-- ==== Sys2Proof/Word.lean ====
section
/-! DEFINITION. The word types of the Otset (R3, R78): bit vectors for what the manual treats as bits. -/

namespace Sys2Proof

/-- A byte of memory. -/
abbrev Byte := BitVec 8
/-- An x-register, a 32-bit system register or a syllable. -/
abbrev W32 := BitVec 32
/-- An a-, e-, h- or k-register, a 64-bit system register, an address. -/
abbrev W64 := BitVec 64
/-- A v-register as its 256-byte memory image: lane l is bits [32l+31:32l], and the packed elements of width w are
the consecutive w-bit fields from the low end (R3, R228). -/
abbrev VReg := BitVec 2048
/-- A stream register (R307). -/
abbrev QReg := BitVec 256

/-- A register file of n registers of w bits. -/
abbrev RegFile (n w : Nat) := Vector (BitVec w) n

end Sys2Proof
end

