-- ==== Sys2Proof/Syntax.lean ====
section
/-! DEFINITION. The abstract syntax of the Otset: one constructor for each row of the opcode table. -/

namespace Sys2Proof

/-- One constructor per row of spec/opcode_table.json. The first 199 are the syllables; their operands are the
fields of the row, most significant first, under the table's letters, and `xx` is the payload of the high-immediate
or extra-operand X syllable that follows the word, if one does (R68, R69). The other 144 are the steps without an
encoding: events of the engines, the front end, the host and the package. Their operands name what the step acts
on: a die (physical number, 16 and 17 the I/O dies), a core, a thread, launch, request, group or command identity. -/
inductive Instr where
  /-- NOP (R201). Changes no state. -/
  | nop
  /-- ADD (R178). Writes the sum of two x-registers modulo 2^32. -/
  | add (d : BitVec 5) (s : BitVec 5) (t : BitVec 5)
  /-- SUB (R178). Writes the difference of two x-registers. -/
  | sub (d : BitVec 5) (s : BitVec 5) (t : BitVec 5)
  /-- MUL (R178). Writes the low 32 bits of the product. -/
  | mul (d : BitVec 5) (s : BitVec 5) (t : BitVec 5)
  /-- MULH (R178). Writes the high 32 bits of the signed product. -/
  | mulh (d : BitVec 5) (s : BitVec 5) (t : BitVec 5)
  /-- MULHB (R178). Writes the high 32 bits of the unsigned product. -/
  | mulhb (d : BitVec 5) (s : BitVec 5) (t : BitVec 5)
  /-- DIV (R179). Long operation giving the signed quotient within 3 rotations. -/
  | div (d : BitVec 5) (s : BitVec 5) (t : BitVec 5)
  /-- DIVB (R179). Long operation giving the unsigned quotient. -/
  | divb (d : BitVec 5) (s : BitVec 5) (t : BitVec 5)
  /-- REM (R179). Long operation giving the signed remainder. -/
  | rem (d : BitVec 5) (s : BitVec 5) (t : BitVec 5)
  /-- REMB (R179). Long operation giving the unsigned remainder. -/
  | remb (d : BitVec 5) (s : BitVec 5) (t : BitVec 5)
  /-- AND (R178). Bitwise and of two x-registers. -/
  | and (d : BitVec 5) (s : BitVec 5) (t : BitVec 5)
  /-- OR (R178). Bitwise or of two x-registers. -/
  | or (d : BitVec 5) (s : BitVec 5) (t : BitVec 5)
  /-- XOR (R178). Bitwise exclusive or of two x-registers. -/
  | xor (d : BitVec 5) (s : BitVec 5) (t : BitVec 5)
  /-- ANDN (R178). Writes a and not b. -/
  | andn (d : BitVec 5) (s : BitVec 5) (t : BitVec 5)
  /-- SHL (R178). Shifts left by b[4:0]. -/
  | shl (d : BitVec 5) (s : BitVec 5) (t : BitVec 5)
  /-- SHR (R178). Shifts right with zero fill. -/
  | shr (d : BitVec 5) (s : BitVec 5) (t : BitVec 5)
  /-- SAR (R178). Shifts right with sign fill. -/
  | sar (d : BitVec 5) (s : BitVec 5) (t : BitVec 5)
  /-- ROL (R178). Rotates left by b[4:0]. -/
  | rol (d : BitVec 5) (s : BitVec 5) (t : BitVec 5)
  /-- MIN (R178). Signed minimum. -/
  | min (d : BitVec 5) (s : BitVec 5) (t : BitVec 5)
  /-- MAX (R178). Signed maximum. -/
  | max (d : BitVec 5) (s : BitVec 5) (t : BitVec 5)
  /-- MINB (R178). Unsigned minimum. -/
  | minb (d : BitVec 5) (s : BitVec 5) (t : BitVec 5)
  /-- MAXB (R178). Unsigned maximum. -/
  | maxb (d : BitVec 5) (s : BitVec 5) (t : BitVec 5)
  /-- ADD_IMM (R178). Adds a sign-extended 11-bit immediate. -/
  | addImm (d : BitVec 5) (s : BitVec 5) (i : BitVec 11)
  /-- SUB_IMM (R178). Subtracts a sign-extended immediate. -/
  | subImm (d : BitVec 5) (s : BitVec 5) (i : BitVec 11)
  /-- MUL_IMM (R178). Multiplies by an immediate, low 32 bits. -/
  | mulImm (d : BitVec 5) (s : BitVec 5) (i : BitVec 11)
  /-- MULH_IMM (R178). High signed product with an immediate. -/
  | mulhImm (d : BitVec 5) (s : BitVec 5) (i : BitVec 11)
  /-- MULHB_IMM (R178). High unsigned product with an immediate. -/
  | mulhbImm (d : BitVec 5) (s : BitVec 5) (i : BitVec 11)
  /-- DIV_IMM (R179). Long signed division by an immediate. -/
  | divImm (d : BitVec 5) (s : BitVec 5) (i : BitVec 11)
  /-- DIVB_IMM (R179). Long unsigned division by an immediate. -/
  | divbImm (d : BitVec 5) (s : BitVec 5) (i : BitVec 11)
  /-- REM_IMM (R179). Long signed remainder by an immediate. -/
  | remImm (d : BitVec 5) (s : BitVec 5) (i : BitVec 11)
  /-- REMB_IMM (R179). Long unsigned remainder by an immediate. -/
  | rembImm (d : BitVec 5) (s : BitVec 5) (i : BitVec 11)
  /-- AND_IMM (R178). Bitwise and with an immediate. -/
  | andImm (d : BitVec 5) (s : BitVec 5) (i : BitVec 11)
  /-- OR_IMM (R178). Bitwise or with an immediate. -/
  | orImm (d : BitVec 5) (s : BitVec 5) (i : BitVec 11)
  /-- XOR_IMM (R178). Bitwise exclusive or with an immediate. -/
  | xorImm (d : BitVec 5) (s : BitVec 5) (i : BitVec 11)
  /-- ANDN_IMM (R178). And with the complement of an immediate. -/
  | andnImm (d : BitVec 5) (s : BitVec 5) (i : BitVec 11)
  /-- SHL_IMM (R178). Shifts left by an immediate count. -/
  | shlImm (d : BitVec 5) (s : BitVec 5) (i : BitVec 5)
  /-- SHR_IMM (R178). Shifts right with zero fill by an immediate. -/
  | shrImm (d : BitVec 5) (s : BitVec 5) (i : BitVec 5)
  /-- SAR_IMM (R178). Shifts right with sign fill by an immediate. -/
  | sarImm (d : BitVec 5) (s : BitVec 5) (i : BitVec 5)
  /-- ROL_IMM (R178). Rotates left by an immediate. -/
  | rolImm (d : BitVec 5) (s : BitVec 5) (i : BitVec 5)
  /-- MIN_IMM (R178). Signed minimum with an immediate. -/
  | minImm (d : BitVec 5) (s : BitVec 5) (i : BitVec 11)
  /-- MAX_IMM (R178). Signed maximum with an immediate. -/
  | maxImm (d : BitVec 5) (s : BitVec 5) (i : BitVec 11)
  /-- MINB_IMM (R178). Unsigned minimum with an immediate. -/
  | minbImm (d : BitVec 5) (s : BitVec 5) (i : BitVec 11)
  /-- MAXB_IMM (R178). Unsigned maximum with an immediate. -/
  | maxbImm (d : BitVec 5) (s : BitVec 5) (i : BitVec 11)
  /-- CLZ (R180). Counts leading zero bits. -/
  | clz (d : BitVec 5) (s : BitVec 5)
  /-- CTZ (R180). Counts trailing zero bits. -/
  | ctz (d : BitVec 5) (s : BitVec 5)
  /-- POPC (R180). Counts set bits. -/
  | popc (d : BitVec 5) (s : BitVec 5)
  /-- BREV (R180). Reverses the bit order. -/
  | brev (d : BitVec 5) (s : BitVec 5)
  /-- SEXT (R181). Sign-extends the low w bits. -/
  | sext (d : BitVec 5) (s : BitVec 5) (w : BitVec 5)
  /-- EXT (R181). Extracts a zero-extended bit field. -/
  | ext (d : BitVec 5) (s : BitVec 5) (t : BitVec 5) (w : BitVec 5)
  /-- INS (R181). Inserts a bit field into xd. -/
  | ins (d : BitVec 5) (s : BitVec 5) (t : BitVec 5) (w : BitVec 5)
  /-- SEL (R182). Selects one of two x-registers by a condition. -/
  | sel (d : BitVec 5) (s : BitVec 5) (t : BitVec 5) (n : BitVec 1) (c : BitVec 4)
  /-- LI (R183). Loads a 16-bit or, with an X syllable, 32-bit immediate. -/
  | li (d : BitVec 5) (i : BitVec 16) (xx : Option (BitVec 26))
  /-- CMP (R184). Compares two values and writes a condition. -/
  | cmp (c : BitVec 3) (k : BitVec 3) (s : BitVec 5) (t : BitVec 5) (i : BitVec 5)
  /-- CLOG (R185). Combines two conditions logically. -/
  | clog (d : BitVec 3) (o : BitVec 3) (n : BitVec 1) (a : BitVec 4) (m : BitVec 1) (c : BitVec 4)
  /-- BR (R186). Branches when a condition holds. -/
  | br (c : BitVec 4) (n : BitVec 1) (i : BitVec 16)
  /-- JMP (R187). Jumps by a signed syllable offset. -/
  | jmp (i : BitVec 18) (xx : Option (BitVec 26))
  /-- CALL (R187). Writes x31 and jumps. -/
  | call (i : BitVec 18) (xx : Option (BitVec 26))
  /-- JMPR (R188). Jumps to a register target in the current 4 GiB region. -/
  | jmpr (s : BitVec 5)
  /-- RET (R188). Returns to the address in x31. -/
  | ret
  /-- LOOP (R189). Sets up a hardware loop with a count and end bundle. -/
  | loop (n : BitVec 1) (s : BitVec 5) (i : BitVec 11)
  /-- BAR (R191). Blocks until the group at level L completes the barrier. -/
  | bar (l : BitVec 3)
  /-- EXIT (R193). Ends every thread of the issuer's group at level L. -/
  | exit (l : BitVec 3)
  /-- TRAP (R195). Raises TRAP_INSTRUCTION after the bundle's other syllables. -/
  | trap (n : BitVec 16)
  /-- BRK (R195). Raises BREAK after the bundle's other syllables. -/
  | brk (n : BitVec 16)
  /-- RTE (R196). Returns from a handler to %tpc and lands snapshot entries. -/
  | rte
  /-- SYSR (R197). Reads 32 bits of a system register. -/
  | sysr (x : BitVec 5) (r : BitVec 10) (h : BitVec 1)
  /-- SYSW (R197). Writes 32 bits of a system register for the next bundle. -/
  | sysw (x : BitVec 5) (r : BitVec 10) (h : BitVec 1)
  /-- FRAME (R198). Registers arrival and blocks until the group's frames start. -/
  | frame (l : BitVec 3)
  /-- XFA (R199). Copies one half of an a-register to an x-register. -/
  | xfa (d : BitVec 5) (a : BitVec 4) (h : BitVec 1)
  /-- XFE (R199). Copies one half of an e-register to an x-register. -/
  | xfe (d : BitVec 5) (e : BitVec 3) (h : BitVec 1)
  /-- XFV (R200). Long operation copying a vector element to an x-register. -/
  | xfv (d : BitVec 5) (v : BitVec 4) (k : BitVec 3) (e : BitVec 2) (l : BitVec 6)
  /-- LD_B (R210). Loads a sign-extended byte. -/
  | ldB (d : BitVec 5) (a : BitVec 4) (m : BitVec 2) (s : BitVec 2) (o : BitVec 8)
  /-- LD_H (R210). Loads a sign-extended halfword. -/
  | ldH (d : BitVec 5) (a : BitVec 4) (m : BitVec 2) (s : BitVec 2) (o : BitVec 8)
  /-- LD_W (R210). Loads a word into an x-register. -/
  | ldW (d : BitVec 5) (a : BitVec 4) (m : BitVec 2) (s : BitVec 2) (o : BitVec 8)
  /-- LD_D (R210). Loads 8 bytes into an a-register. -/
  | ldD (d : BitVec 4) (a : BitVec 4) (m : BitVec 2) (s : BitVec 2) (o : BitVec 8)
  /-- LDZ_B (R210). Loads a zero-extended byte. -/
  | ldzB (d : BitVec 5) (a : BitVec 4) (m : BitVec 2) (s : BitVec 2) (o : BitVec 8)
  /-- LDZ_H (R210). Loads a zero-extended halfword. -/
  | ldzH (d : BitVec 5) (a : BitVec 4) (m : BitVec 2) (s : BitVec 2) (o : BitVec 8)
  /-- LDZ_W (R210). Loads a zero-extended word into an a-register. -/
  | ldzW (d : BitVec 4) (a : BitVec 4) (m : BitVec 2) (s : BitVec 2) (o : BitVec 8)
  /-- ST_B (R210). Stores a byte. -/
  | stB (d : BitVec 5) (a : BitVec 4) (m : BitVec 2) (s : BitVec 2) (o : BitVec 8)
  /-- ST_H (R210). Stores a halfword. -/
  | stH (d : BitVec 5) (a : BitVec 4) (m : BitVec 2) (s : BitVec 2) (o : BitVec 8)
  /-- ST_W (R210). Stores a word. -/
  | stW (d : BitVec 5) (a : BitVec 4) (m : BitVec 2) (s : BitVec 2) (o : BitVec 8)
  /-- ST_D (R210). Stores an a-register. -/
  | stD (d : BitVec 4) (a : BitVec 4) (m : BitVec 2) (s : BitVec 2) (o : BitVec 8)
  /-- LDV (R210). Loads a 256-byte vector register. -/
  | ldv (d : BitVec 4) (a : BitVec 4) (m : BitVec 2) (s : BitVec 2) (o : BitVec 8)
  /-- STV (R210). Stores a 256-byte vector register. -/
  | stv (d : BitVec 4) (a : BitVec 4) (m : BitVec 2) (s : BitVec 2) (o : BitVec 8)
  /-- LDVS (R211). Loads one element per active lane with a stride. -/
  | ldvs (v : BitVec 4) (a : BitVec 4) (m : BitVec 2) (s : BitVec 2) (k : BitVec 3) (x : BitVec 5)
  /-- STVS (R211). Stores one element per active lane with a stride. -/
  | stvs (v : BitVec 4) (a : BitVec 4) (m : BitVec 2) (s : BitVec 2) (k : BitVec 3) (x : BitVec 5)
  /-- GLD (R212). Gathers lane words from own-core buffer offsets. -/
  | gld (v : BitVec 4) (a : BitVec 4) (s : BitVec 2) (k : BitVec 3) (i : BitVec 4)
  /-- GST (R212). Scatters lane words to own-core buffer offsets. -/
  | gst (v : BitVec 4) (a : BitVec 4) (s : BitVec 2) (k : BitVec 3) (i : BitVec 4)
  /-- LDK (R210). Loads a mask register. -/
  | ldk (k : BitVec 3) (a : BitVec 4) (m : BitVec 2) (s : BitVec 2) (o : BitVec 8)
  /-- STK (R210). Stores a mask register. -/
  | stk (k : BitVec 3) (a : BitVec 4) (m : BitVec 2) (s : BitVec 2) (o : BitVec 8)
  /-- AADD (R213). Adds an immediate to an a-register. -/
  | aadd (d : BitVec 4) (s : BitVec 4) (i : BitVec 13)
  /-- ALI (R213). Loads a sign-extended immediate into an a-register. -/
  | ali (d : BitVec 4) (i : BitVec 13) (xx : Option (BitVec 26))
  /-- AFX (R214). Forms an a-register from x-registers. -/
  | afx (h : BitVec 5) (a : BitVec 4) (l : BitVec 5) (o : BitVec 4)
  /-- PEER (R215). Forms a peer buffer address in an a-register. -/
  | peer (d : BitVec 5) (a : BitVec 4) (c : BitVec 5) (x : BitVec 1) (y : BitVec 1) (q : BitVec 2)
  /-- AMO (R218). Performs an atomic at a buffer bank, returning the old value. -/
  | amo (d : BitVec 5) (a : BitVec 4) (s : BitVec 5) (o : BitVec 4) (z : BitVec 1) (p : BitVec 2) (xx : Option (BitVec 26))
  /-- RLD (R220). Issues an asynchronous load from any device address with a handle. -/
  | rld (d : BitVec 5) (a : BitVec 4) (h : BitVec 3) (z : BitVec 2)
  /-- RST (R220). Issues an asynchronous store to any device address with a handle. -/
  | rst (d : BitVec 5) (a : BitVec 4) (h : BitVec 3) (z : BitVec 2)
  /-- RAMO (R221). Issues an asynchronous atomic at the home of any address. -/
  | ramo (d : BitVec 5) (a : BitVec 4) (h : BitVec 3) (z : BitVec 2) (n : BitVec 1) (o : BitVec 4) (xx : Option (BitVec 26))
  /-- VFADD (R233). Adds float elements with one rounding. -/
  | vfadd (d : BitVec 4) (s : BitVec 4) (t : BitVec 4) (k : BitVec 3) (y : BitVec 3)
  /-- VFSUB (R233). Subtracts float elements. -/
  | vfsub (d : BitVec 4) (s : BitVec 4) (t : BitVec 4) (k : BitVec 3) (y : BitVec 3)
  /-- VFMUL (R233). Multiplies float elements. -/
  | vfmul (d : BitVec 4) (s : BitVec 4) (t : BitVec 4) (k : BitVec 3) (y : BitVec 3)
  /-- VFMA (R233). Fused multiply-add into vd. -/
  | vfma (d : BitVec 4) (s : BitVec 4) (t : BitVec 4) (k : BitVec 3) (y : BitVec 3)
  /-- VFNMA (R233). Fused negated multiply-add into vd. -/
  | vfnma (d : BitVec 4) (s : BitVec 4) (t : BitVec 4) (k : BitVec 3) (y : BitVec 3)
  /-- VFMIN (R234). Writes minimumNumber of element pairs. -/
  | vfmin (d : BitVec 4) (s : BitVec 4) (t : BitVec 4) (k : BitVec 3) (y : BitVec 3)
  /-- VFMAX (R234). Writes maximumNumber of element pairs. -/
  | vfmax (d : BitVec 4) (s : BitVec 4) (t : BitVec 4) (k : BitVec 3) (y : BitVec 3)
  /-- VFABS (R234). Clears each element's sign bit. -/
  | vfabs (d : BitVec 4) (s : BitVec 4) (k : BitVec 3) (y : BitVec 3)
  /-- VFNEG (R234). Inverts each element's sign bit. -/
  | vfneg (d : BitVec 4) (s : BitVec 4) (k : BitVec 3) (y : BitVec 3)
  /-- VFCPS (R234). Copies signs from vs2 onto vs1 magnitudes. -/
  | vfcps (d : BitVec 4) (s : BitVec 4) (t : BitVec 4) (k : BitVec 3) (y : BitVec 3)
  /-- VFCMP (R236). Compares f32 lanes into a mask register. -/
  | vfcmp (d : BitVec 3) (s : BitVec 4) (t : BitVec 4) (k : BitVec 3) (n : BitVec 2)
  /-- VFRCP (R235). Long operation giving the correctly rounded reciprocal. -/
  | vfrcp (d : BitVec 4) (s : BitVec 4) (k : BitVec 3) (y : BitVec 3)
  /-- VFRSQ (R235). Long operation giving the reciprocal square root. -/
  | vfrsq (d : BitVec 4) (s : BitVec 4) (k : BitVec 3) (y : BitVec 3)
  /-- VFSQRT (R235). Long operation giving the square root. -/
  | vfsqrt (d : BitVec 4) (s : BitVec 4) (k : BitVec 3) (y : BitVec 3)
  /-- VFDIV (R233). Long operation giving the quotient. -/
  | vfdiv (d : BitVec 4) (s : BitVec 4) (t : BitVec 4) (k : BitVec 3) (y : BitVec 3)
  /-- VFEXP2 (R235). Long operation giving 2 to the power of each element. -/
  | vfexp2 (d : BitVec 4) (s : BitVec 4) (k : BitVec 3) (y : BitVec 3)
  /-- VFLOG2 (R235). Long operation giving the base-2 logarithm. -/
  | vflog2 (d : BitVec 4) (s : BitVec 4) (k : BitVec 3) (y : BitVec 3)
  /-- VADD (R237). Adds integer elements, optionally saturating. -/
  | vadd (d : BitVec 4) (s : BitVec 4) (t : BitVec 4) (k : BitVec 3) (y : BitVec 3) (q : BitVec 1) (u : BitVec 1)
  /-- VSUB (R237). Subtracts integer elements. -/
  | vsub (d : BitVec 4) (s : BitVec 4) (t : BitVec 4) (k : BitVec 3) (y : BitVec 3) (q : BitVec 1) (u : BitVec 1)
  /-- VMUL (R237). Multiplies integer elements. -/
  | vmul (d : BitVec 4) (s : BitVec 4) (t : BitVec 4) (k : BitVec 3) (y : BitVec 3) (q : BitVec 1) (u : BitVec 1)
  /-- VMULH (R237). High half of integer element products. -/
  | vmulh (d : BitVec 4) (s : BitVec 4) (t : BitVec 4) (k : BitVec 3) (y : BitVec 3) (u : BitVec 1)
  /-- VMADW (R239). Widening dot-multiply-add into 32-bit lanes. -/
  | vmadw (d : BitVec 4) (s : BitVec 4) (t : BitVec 4) (k : BitVec 3) (y : BitVec 3) (q : BitVec 1) (u : BitVec 1)
  /-- VMIN (R237). Integer element minimum. -/
  | vmin (d : BitVec 4) (s : BitVec 4) (t : BitVec 4) (k : BitVec 3) (y : BitVec 3) (u : BitVec 1)
  /-- VMAX (R237). Integer element maximum. -/
  | vmax (d : BitVec 4) (s : BitVec 4) (t : BitVec 4) (k : BitVec 3) (y : BitVec 3) (u : BitVec 1)
  /-- VAND (R237). Bitwise and of lanes. -/
  | vand (d : BitVec 4) (s : BitVec 4) (t : BitVec 4) (k : BitVec 3)
  /-- VOR (R237). Bitwise or of lanes. -/
  | vor (d : BitVec 4) (s : BitVec 4) (t : BitVec 4) (k : BitVec 3)
  /-- VXOR (R237). Bitwise exclusive or of lanes. -/
  | vxor (d : BitVec 4) (s : BitVec 4) (t : BitVec 4) (k : BitVec 3)
  /-- VSHL (R237). Shifts elements left by per-element counts. -/
  | vshl (d : BitVec 4) (s : BitVec 4) (t : BitVec 4) (k : BitVec 3) (y : BitVec 3)
  /-- VSHR (R237). Logical right shift of elements. -/
  | vshr (d : BitVec 4) (s : BitVec 4) (t : BitVec 4) (k : BitVec 3) (y : BitVec 3)
  /-- VSAR (R237). Arithmetic right shift of elements. -/
  | vsar (d : BitVec 4) (s : BitVec 4) (t : BitVec 4) (k : BitVec 3) (y : BitVec 3)
  /-- VCMP (R236). Compares i32 lanes into a mask register. -/
  | vcmp (d : BitVec 3) (s : BitVec 4) (t : BitVec 4) (k : BitVec 3) (n : BitVec 2) (u : BitVec 1)
  /-- VABS (R237). Integer absolute value, optionally saturating. -/
  | vabs (d : BitVec 4) (s : BitVec 4) (k : BitVec 3) (y : BitVec 3) (q : BitVec 1)
  /-- VSAT (R238). Shifts, optionally rounds, and narrows with saturation. -/
  | vsat (d : BitVec 4) (s : BitVec 4) (t : BitVec 4) (k : BitVec 3) (y : BitVec 3) (r : BitVec 1) (u : BitVec 1)
  /-- VMOV (R240). Copies each active lane. -/
  | vmov (d : BitVec 4) (s : BitVec 4) (k : BitVec 3)
  /-- VFX (R241). Copies an x-register into lanes or elements. -/
  | vfx (d : BitVec 4) (x : BitVec 5) (n : BitVec 2) (l : BitVec 6)
  /-- VPERM (R243). Permutes elements by an index register. -/
  | vperm (d : BitVec 4) (s : BitVec 4) (t : BitVec 4) (k : BitVec 3) (y : BitVec 3)
  /-- VSLIDE (R242). Slides elements up or down across two sources. -/
  | vslide (d : BitVec 4) (s : BitVec 4) (t : BitVec 4) (k : BitVec 3) (y : BitVec 3) (m : BitVec 2) (p : BitVec 1)
  /-- VSEL (R244). Selects lanes by a mask. -/
  | vsel (d : BitVec 4) (s : BitVec 4) (t : BitVec 4) (k : BitVec 3)
  /-- VPACK (R245). Narrows two sources into one register. -/
  | vpack (d : BitVec 4) (s : BitVec 4) (t : BitVec 4) (k : BitVec 3) (y : BitVec 3) (u : BitVec 1)
  /-- VUNPK (R246). Widens half of a source register. -/
  | vunpk (d : BitVec 4) (s : BitVec 4) (k : BitVec 3) (y : BitVec 3) (h : BitVec 1) (u : BitVec 1)
  /-- VCVT (R247). Converts elements between types. -/
  | vcvt (d : BitVec 4) (s : BitVec 4) (c : BitVec 1) (g : BitVec 3) (k : BitVec 3) (y : BitVec 3) (p : BitVec 2) (z : BitVec 1)
  /-- VQNT (R248). Quantises scaled FP32 lanes into a part. -/
  | vqnt (d : BitVec 4) (s : BitVec 4) (t : BitVec 4) (k : BitVec 3) (y : BitVec 3) (p : BitVec 2) (u : BitVec 1)
  /-- VDQNT (R248). Dequantises a part to scaled FP32. -/
  | vdqnt (d : BitVec 4) (s : BitVec 4) (t : BitVec 4) (k : BitVec 3) (y : BitVec 3) (p : BitVec 2) (u : BitVec 1)
  /-- VRED (R249). Long operation reducing all elements into every lane. -/
  | vred (d : BitVec 4) (s : BitVec 4) (k : BitVec 3) (y : BitVec 3) (o : BitVec 2) (u : BitVec 1)
  /-- VSCAN (R250). Long operation computing an inclusive scan. -/
  | vscan (d : BitVec 4) (s : BitVec 4) (k : BitVec 3) (y : BitVec 3) (o : BitVec 2) (u : BitVec 1)
  /-- VKEY (R251). Maps values to Prism ticks for a window. -/
  | vkey (d : BitVec 4) (s : BitVec 4) (t : BitVec 4) (k : BitVec 3) (y : BitVec 3) (p : BitVec 1) (n : BitVec 1) (r : BitVec 1)
  /-- KOP (R252). Logical operation on mask registers. -/
  | kop (d : BitVec 3) (a : BitVec 3) (c : BitVec 3) (o : BitVec 3)
  /-- KPOP (R253). Writes mask popcounts into every lane. -/
  | kpop (d : BitVec 4) (a : BitVec 3) (p : BitVec 1)
  /-- KFIRST (R254). Derives a mask from the lowest set bit. -/
  | kfirst (d : BitVec 3) (a : BitVec 3) (m : BitVec 3)
  /-- KSET (R255). Writes the first n lanes, or their complement. -/
  | kset (d : BitVec 3) (n : BitVec 8) (i : BitVec 1)
  /-- VMM (R256). Combines two AB operands and writes AB through pointers. -/
  | vmm (d : BitVec 4) (s : BitVec 4) (t : BitVec 4) (k : BitVec 3) (y : BitVec 3) (o : BitVec 3)
  /-- VSHL_IMM (R237). Shifts elements left by an immediate. -/
  | vshlImm (d : BitVec 4) (s : BitVec 4) (y : BitVec 3) (k : BitVec 3) (c : BitVec 5)
  /-- VSHR_IMM (R237). Logical right shift by an immediate. -/
  | vshrImm (d : BitVec 4) (s : BitVec 4) (y : BitVec 3) (k : BitVec 3) (c : BitVec 5)
  /-- VSAR_IMM (R237). Arithmetic right shift by an immediate. -/
  | vsarImm (d : BitVec 4) (s : BitVec 4) (y : BitVec 3) (k : BitVec 3) (c : BitVec 5)
  /-- VSLIDE_IMM (R242). Slides elements by an immediate, filling with zero. -/
  | vslideImm (d : BitVec 4) (s : BitVec 4) (y : BitVec 3) (u : BitVec 1) (n : BitVec 9)
  /-- VMOV_IMM (R240). Broadcasts an immediate, or an iota sequence. -/
  | vmovImm (d : BitVec 4) (i : BitVec 1) (n : BitVec 12)
  /-- QSET (R325). Writes one field of a stream register. -/
  | qset (q : BitVec 3) (x : BitVec 5) (f : BitVec 5) (n : BitVec 8)
  /-- QLD (R326). Loads a stream register from AB. -/
  | qld (q : BitVec 3) (x : BitVec 5) (n : BitVec 8)
  /-- QST (R326). Stores a stream register to AB. -/
  | qst (q : BitVec 3) (x : BitVec 5) (n : BitVec 8)
  /-- MOWN (R327). Takes ownership of the matrix and Prism engines. -/
  | mown
  /-- MOWN_REL (R327). Releases ownership of the matrix and Prism engines. -/
  | mownRel
  /-- MMUL (R328). Queues a dense matrix multiply-accumulate into a CB tile. -/
  | mmul (a : BitVec 3) (c : BitVec 3) (t : BitVec 4) (h : BitVec 3) (k : BitVec 8)
  /-- MMULS (R328). Queues a 2:4 sparse matrix multiply-accumulate. -/
  | mmuls (a : BitVec 3) (c : BitVec 3) (t : BitVec 4) (h : BitVec 3) (k : BitVec 8)
  /-- MMROT (R329). Queues a multiply that then rotates operands to ring neighbours. -/
  | mmrot (a : BitVec 3) (c : BitVec 3) (t : BitVec 4) (h : BitVec 3) (k : BitVec 8)
  /-- MZERO (R330). Queues zeroing of a CB tile. -/
  | mzero (t : BitVec 4) (h : BitVec 3)
  /-- MDRN (R331). Queues a drain of a tile to AB with conversion. -/
  | mdrn (a : BitVec 3) (o : BitVec 3) (t : BitVec 4) (h : BitVec 3)
  /-- MLDC (R332). Queues a fill of a tile from AB. -/
  | mldc (a : BitVec 3) (o : BitVec 3) (t : BitVec 4) (h : BitVec 3)
  /-- PWIN (R349). Queues setting of the Prism window and op. -/
  | pwin (k : BitVec 4) (x : BitVec 1) (o : BitVec 2) (h : BitVec 3) (w : BitVec 8)
  /-- PLDW (R350). Queues loading of Prism cell delays and modes. -/
  | pldw (q : BitVec 3) (m : BitVec 4) (h : BitVec 3) (x : BitVec 1)
  /-- PLAUNCH (R351). Queues a Prism race over the masked bands. -/
  | plaunch (q : BitVec 3) (m : BitVec 4) (h : BitVec 3)
  /-- PCAP (R352). Queues writing of captures to AB. -/
  | pcap (q : BitVec 3) (m : BitVec 4) (h : BitVec 3)
  /-- PCAP_LIST (R352). Queues writing of the KFIRST list to AB. -/
  | pcapList (q : BitVec 3) (h : BitVec 3)
  /-- PRST (R353). Queues clearing of the masked bands. -/
  | prst (m : BitVec 4) (h : BitVec 3)
  /-- SEND (R268). Sends an envelope on a port, taking a credit. -/
  | send (s : BitVec 3) (p : BitVec 3)
  /-- RECV (R269). Takes the oldest envelope of an inbox and returns a credit. -/
  | recv (d : BitVec 3) (p : BitVec 3)
  /-- PBIND (R270). Binds a send port to the issuing thread. -/
  | pbind (p : BitVec 3)
  /-- PBIND_REL (R270). Releases a send port binding. -/
  | pbindRel (p : BitVec 3)
  /-- EFX (R271). Forms an e-register from x-registers. -/
  | efx (d : BitVec 3) (h : BitVec 5) (l : BitVec 5) (o : BitVec 3)
  /-- CPY (R295). Queues a byte copy on a copy context. -/
  | cpy (d : BitVec 4) (s : BitVec 4) (e : BitVec 3) (h : BitVec 3) (c : BitVec 2)
  /-- CPYT (R296). Queues a pitched row copy, optionally converting. -/
  | cpyt (d : BitVec 4) (s : BitVec 4) (e : BitVec 3) (h : BitVec 3) (c : BitVec 2) (v : BitVec 1) (r : BitVec 1) (q : BitVec 3)
  /-- GATH (R297). Queues an indexed row gather. -/
  | gath (d : BitVec 4) (s : BitVec 4) (e : BitVec 3) (h : BitVec 3) (c : BitVec 2) (i : BitVec 4)
  /-- SCAT (R297). Queues an indexed row scatter. -/
  | scat (d : BitVec 4) (s : BitVec 4) (e : BitVec 3) (h : BitVec 3) (c : BitVec 2) (i : BitVec 4)
  /-- SIG (R298). Queues a release atomic add to a signal word. -/
  | sig (d : BitVec 4) (e : BitVec 3) (h : BitVec 3) (c : BitVec 2)
  /-- WAIT (R301). Blocks until a handle's operation completes, acquiring it and reporting faults. -/
  | wait (h : BitVec 3) (c : BitVec 3) (a : BitVec 1) (e : BitVec 3) (q : BitVec 1)
  /-- TEST (R302). Writes a condition telling whether a handle is complete. -/
  | test (h : BitVec 3) (c : BitVec 3) (a : BitVec 1) (e : BitVec 3)
  /-- CANCEL (R303). Cancels a named operation. -/
  | cancel (h : BitVec 3) (a : BitVec 1) (e : BitVec 3)
  /-- TLWAIT (R304). Blocks until a context's timeline counter reaches a count. -/
  | tlwait (h : BitVec 3) (n : BitVec 3) (a : BitVec 1) (e : BitVec 3)
  /-- TLRD (R305). Reads a timeline counter, issued count or fault record word. -/
  | tlrd (h : BitVec 3) (f : BitVec 1) (n : BitVec 4) (d : BitVec 3) (a : BitVec 1) (e : BitVec 3)
  /-- FENCE_REL (R306). Release to the dies of a mask. -/
  | fenceRel (e : BitVec 3)
  /-- FENCE_ACQ (R306). Acquire of earlier reads. -/
  | fenceAcq
  /-- FENCE_SC (R306). Sequentially consistent fence to a mask. -/
  | fenceSc (e : BitVec 3)
  /-- SPAWN (R376). Charges a task record to a die queue or core arrival list. -/
  | spawn (a : BitVec 4) (f : BitVec 5) (n : BitVec 4) (y : BitVec 4) (h : BitVec 3) (d : BitVec 1)
  /-- FANOUT (R377). Starts a launch from a header with a chip index. -/
  | fanout (h : BitVec 3) (x : BitVec 5) (a : BitVec 4)
  /-- TRIG (R378). Marks the thread triggered and releases. -/
  | trig
  /-- MIGR (R379). Moves the thread to a named core. -/
  | migr (d : BitVec 4)
  /-- MIGR_HOME (R379). Moves the thread to a core near the home of an address. -/
  | migrHome (d : BitVec 4)
  /-- YIELD (R380). Spills the thread when an equal or higher priority source waits. -/
  | yield (c : BitVec 3)
  /-- COLL (R400). Queues a collective from a descriptor in AB. -/
  | coll (d : BitVec 4) (h : BitVec 3) (c : BitVec 4)
  /-- HANDOFF (R409). Requests a change of a stack's owner die. -/
  | handoff (s : BitVec 3) (h : BitVec 3)
  /-- XLINV (R423). Invalidates cached translations of a range or of all pages. -/
  | xlinv (h : BitVec 3) (l : BitVec 1) (e : BitVec 3)
  /-- ISSUE_STAMP (R57). Fixes the frame position at which its bundle issues. -/
  | issueStamp (x : BitVec 1) (s : BitVec 20)
  /-- NULL_BUNDLE (R18). A turn with nothing to issue issues a bundle that changes no state. -/
  | nullBundle
  /-- BUNDLE_RELEASE (R34). A held bundle issues at the first issue cycle after all its conditions hold. -/
  | bundleRelease
  /-- STAMP_TARGET (R57). A stamped bundle issues when its target frame position is reached. -/
  | stampTarget
  /-- THREAD_RESUME (R173). A control core resumes a trapped thread at %tpc. -/
  | threadResume (tid : Nat) (tpc : Option (BitVec 64))
  /-- GROUP_KILL (R176). A control core or the host kills a group, discarding its pending state. -/
  | groupKill (tid : Nat) (level : Nat)
  /-- FRAME_START (R56). The group's frames start at z after the last FRAME arrival. -/
  | frameStart (gid : Nat) (die : Nat)
  /-- FRAME_WRAP (R55). POS wraps from F−1 to 0 and NUM increments. -/
  | frameWrap
  /-- BARRIER_COMPLETE (R192). A barrier instance completes once every member has arrived. -/
  | barrierComplete (gid : Nat)
  /-- EXIT_ARRIVAL (R193). A group exit reaches a member, which leaves. -/
  | exitArrival (tid : Nat)
  /-- LONG_RESULT_LANDING (R86). A long result lands in its destination within its bound. -/
  | longResultLanding
  /-- SNAPSHOT_LANDING (R174). A latched snapshot entry lands after resumption. -/
  | snapshotLanding
  /-- VMM_DELAY_END (R257). The bank-conflict delay of a VMM runs out and the next bundle issues. -/
  | vmmDelayEnd
  /-- REGION_STRETCH (R46). A region raises a warning and stretches its cycles. -/
  | regionStretch (die : Nat) (region : Nat)
  /-- STRETCH_END (R47). A stretch ends when no region has held a warning for 32 cycles. -/
  | stretchEnd (die : Nat)
  /-- EDGE_HOLD (R48). A receiving region holds its clock edge until a boundary entry arrives. -/
  | edgeHold (die : Nat) (region : Nat)
  /-- SKEW_FORCED_STRETCH (R49). The skew monitor forces a die-wide stretch. -/
  | skewForcedStretch (die : Nat) (region : Nat)
  /-- POWER_STEP (R52). The power controller changes a die's frequency at a rotation boundary. -/
  | powerStep (die : Nat) (freq : Nat)
  /-- TASK_DISPATCH (R39). A free turn is filled from a restorable thread, an arrival or the ready queue. -/
  | taskDispatch (die : Nat) (core : Nat)
  /-- TASK_AGEING (R40). A task waiting 2^20 cycles moves to the next higher priority. -/
  | taskAgeing (die : Nat)
  /-- STEAL_REQUEST (R41). An idle die asks a neighbour for a task. -/
  | stealRequest (die : Nat)
  /-- STEAL_ANSWER (R41). A neighbour answers a steal request with a task or nothing. -/
  | stealAnswer (die : Nat) (nb : Nat)
  /-- STEAL_BACKOFF_EXPIRY (R41). The 4,096-cycle steal back-off runs out. -/
  | stealBackoffExpiry (die : Nat)
  /-- TURN_SHORTAGE_SPILL (R36). The spill engine selects a blocked lower-priority thread to spill. -/
  | turnShortageSpill (die : Nat)
  /-- SPILL_COMPLETE (R434). A thread image is written once the thread has quiesced. -/
  | spillComplete (tid : Nat)
  /-- BUFFER_SCRUB (R37). A core scrubs its buffers after its launch's last thread leaves. -/
  | bufferScrub (die : Nat) (core : Nat)
  /-- PEER_REQUEST (R134). A peer access arrives at a target bank and is checked against its launch. -/
  | peerRequest (rid : Nat)
  /-- OFF_CORE_REPLY (R208). The reply to an off-core access arrives at the issuing core. -/
  | offCoreReply (rid : Nat)
  /-- FANOUT_FORWARD (R361). A launch is forwarded along the spanning tree of dies and cores. -/
  | fanoutForward (lid : Nat)
  /-- FANOUT_HEADER_READ (R359). The launch header read completes and is checked. -/
  | fanoutHeaderRead (lid : Nat)
  /-- LAUNCH_PLACEMENT (R362). A reserved core places the launch's threads once buffers and turns are free. -/
  | launchPlacement (lid : Nat) (die : Nat) (core : Nat)
  /-- LAUNCH_FINISH (R363). A launch finishes and the root die adds 1 at DONE. -/
  | launchFinish (lid : Nat)
  /-- DEPENDENCY_SATISFIED (R370). A dependency on a prerequisite launch at a level is satisfied. -/
  | dependencySatisfied (lid : Nat) (pid : Nat) (level : Nat)
  /-- SPAWN_RECORD_ARRIVAL (R365). A task record charged to another die enters its queue. -/
  | spawnRecordArrival (rid : Nat)
  /-- MIGRATION_DEPART (R373). A migrating thread's portable state leaves once its waits are over. -/
  | migrationDepart (tid : Nat)
  /-- MIGRATION_ARRIVAL (R373). A migrated thread takes a turn of the target core. -/
  | migrationArrival (tid : Nat) (die : Nat) (core : Nat)
  /-- FORWARD_WINDOW_EXPIRY (R224). The 4,096-cycle forwarding window of a migrated thread ends. -/
  | forwardWindowExpiry (die : Nat) (core : Nat) (tid : Nat)
  /-- REMOTE_REPLY (R223). A remote operation completes and delivers or faults. -/
  | remoteReply (rid : Nat)
  /-- ENVELOPE_ARRIVAL (R262). An envelope arrives in a destination inbox. -/
  | envelopeArrival (die : Nat) (core : Nat) (port : Nat) (env : BitVec 64)
  /-- CREDIT_ARRIVAL (R263). A returned credit arrives at a feeding port. -/
  | creditArrival (die : Nat) (core : Nat) (port : Nat)
  /-- PROBE_LAUNCH (R273). A RECV blocked 65,536 cycles launches a deadlock probe. -/
  | probeLaunch (tid : Nat)
  /-- PROBE (R273). A probe follows wait edges and confirms a cycle of blocked members. -/
  | probe (tid : Nat)
  /-- COPY_START (R276). A copy context starts its next operation after the previous completes. -/
  | copyStart (die : Nat) (core : Nat) (ctx : Nat)
  /-- COPY_UNIT (R284). One unit of a copy operation reads its source and writes its destination. -/
  | copyUnit (die : Nat) (core : Nat) (ctx : Nat)
  /-- COPY_COMPLETE (R283). An operation completes and the timeline counter advances. -/
  | copyComplete (die : Nat) (core : Nat) (ctx : Nat)
  /-- COMPLETION_NOTICE (R301). Notice of a completion reaches a foreign waiting core. -/
  | completionNotice (tid : Nat)
  /-- MATRIX_START (R316). A queued matrix command starts at its start cycle. -/
  | matrixStart (die : Nat) (core : Nat) (num : Nat) (elapsed : Nat)
  /-- MATRIX_COMPLETE (R316). A matrix command completes and releases. -/
  | matrixComplete (die : Nat) (core : Nat) (num : Nat)
  /-- MMROT_RING_NOTICE (R322). An MMROT tells its ring neighbours the ring sizes it uses. -/
  | mmrotRingNotice (die : Nat) (core : Nat) (num : Nat)
  /-- MMROT_TRANSFER (R321). An MMROT operand transfer starts and lands at the neighbour. -/
  | mmrotTransfer (die : Nat) (core : Nat) (num : Nat) (side : Nat) (cycle : Nat)
  /-- PRISM_START (R343). A queued Prism command starts. -/
  | prismStart (die : Nat) (core : Nat) (num : Nat) (elapsed : Nat)
  /-- PRISM_COMPLETE (R343). A Prism command or race completes and releases. -/
  | prismComplete (die : Nat) (core : Nat) (num : Nat)
  /-- COLL_START (R381). A collective issue starts, is checked and matched. -/
  | collStart (die : Nat) (ctx : Nat)
  /-- COLL_SEGMENT (R398). A segment's inputs from every member are combined and written. -/
  | collSegment (die : Nat) (ctx : Nat) (num : Nat)
  /-- COLL_COMPLETE (R393). A collective issue completes at its member and releases. -/
  | collComplete (die : Nat) (ctx : Nat) (num : Nat)
  /-- FLIT_DATA (R404). A data flit is received, corrected and checked. -/
  | flitData (port : Nat) (hdr : BitVec 64) (off : BitVec 64) (data : BitVec 1792)
  /-- FLIT_WINDOW_ACK (R401). A window acknowledgement flit frees send window bytes. -/
  | flitWindowAck (port : Nat) (hdr : BitVec 64)
  /-- FLIT_IDLE (R404). An idle flit is received. -/
  | flitIdle (port : Nat) (hdr : BitVec 64)
  /-- FLIT_REPLAY_REQUEST (R405). A replay request makes the sender replay from a sequence. -/
  | flitReplayRequest (port : Nat) (hdr : BitVec 64)
  /-- FLIT_LINK_CONTROL (R404). A link control flit is received. -/
  | flitLinkControl (port : Nat) (hdr : BitVec 64)
  /-- LINK_SILENCE_TIMEOUT (R405). No flit for 10 µs declares a link down. -/
  | linkSilenceTimeout (port : Nat)
  /-- LINK_REPLAY_LIMIT (R405). A flit replayed 16 times declares a link down. -/
  | linkReplayLimit (port : Nat)
  /-- HANDOVER_START (R411). A handover reaches the owner and parks new requests. -/
  | handoverStart (die : Nat) (num : Nat)
  /-- HANDOVER_FLIP (R411). After the drain the ownership flips, parked requests go to the new owner and the operation completes. -/
  | handoverFlip (die : Nat) (num : Nat)
  /-- MEMORY_REQUEST (R139). A die-memory request is served at its home slice. -/
  | memoryRequest (rid : Nat)
  /-- PAGE_WALK_COMPLETE (R422). A slice's table walk completes with a translation or fault. -/
  | pageWalkComplete (die : Nat) (part : Nat) (va : BitVec 64)
  /-- XLINV_COMPLETE (R423). A translation invalidation completes once all slices have dropped entries. -/
  | xlinvComplete (die : Nat) (num : Nat)
  /-- PAGE_MIGRATE_IN (R424). A device access moves a migratable host page into a device frame. -/
  | pageMigrateIn (part : Nat) (va : BitVec 64)
  /-- PAGE_MIGRATE_OUT (R424). A host access moves a page back to host memory. -/
  | pageMigrateOut (part : Nat) (va : BitVec 64) (host : BitVec 64)
  /-- MIGRATION_EVENT_ANSWER (R424). The host answers a posted migration event. -/
  | migrationEventAnswer (part : Nat) (va : BitVec 64) (leaf : BitVec 64)
  /-- HYSTERESIS_EXPIRY (R425). A remote mapping's hysteresis window ends. -/
  | hysteresisExpiry (part : Nat) (va : BitVec 64)
  /-- QUIESCE_COMPLETE (R435). A pre-empted die finishes quiescing and writes back. -/
  | quiesceComplete (die : Nat)
  /-- PARTITION_EVICTED (R435). Every die has written its images and the partition is evicted. -/
  | partitionEvicted (part : Nat)
  /-- WAKE (R458). A host write of WAKE sets PIDX and wakes or latches the queue. -/
  | wake (fn : Nat) (q : Nat) (v : BitVec 32)
  /-- RBASE_WRITE (R451). A write of RBASE, dropped while EN is 1. -/
  | rbaseWrite (fn : Nat) (q : Nat) (v : BitVec 64)
  /-- RCFG_WRITE (R451). A write of RCFG enabling or disabling a queue and clearing STOP. -/
  | rcfgWrite (fn : Nat) (q : Nat) (v : BitVec 32)
  /-- FCTL_WRITE (R447). A write of FCTL enabling the function's queues. -/
  | fctlWrite (fn : Nat) (v : BitVec 32)
  /-- MBEVT_CLEAR (R473). Writing 1 clears mailbox event bits. -/
  | mbevtClear (port : Nat) (v : BitVec 32)
  /-- REGISTER_WRITE (R6). A write to a register with no behaviour of its own. -/
  | registerWrite (fn : Nat) (bar : Nat) (off : Nat) (v : BitVec 64)
  /-- COMMAND_FETCH (R451). The front end fetches a slot of a runnable mapped queue. -/
  | commandFetch (fn : Nat) (q : Nat)
  /-- COMMAND_START (R454). A fetched command starts once its ordering rules allow. -/
  | commandStart (cid : Nat)
  /-- COMMAND_COMPLETE (R453). The front end writes STATUS and optionally sends MSI-X. -/
  | commandComplete (cid : Nat)
  /-- LAUNCH (R456). Starts a launch on its root core once resident and dependencies hold. -/
  | launch (cid : Nat)
  /-- PIPE (R461). Checks a pipe descriptor, sets up channels and starts stages. -/
  | pipe (cid : Nat)
  /-- SIGNAL (R456). Performs a release atomic add at a word. -/
  | signal (cid : Nat)
  /-- WAITSIG (R456). Waits until a word reaches a value. -/
  | waitsig (cid : Nat)
  /-- WAITSIG_TIMEOUT (R456). A WAITSIG timeout passes and the command completes TIMEOUT. -/
  | waitsigTimeout (cid : Nat)
  /-- COPYH (R456). Copies bytes between host and device memory. -/
  | copyh (cid : Nat)
  /-- HANDOFFQ (R456). Performs a stack handover for the function's partition. -/
  | handoffq (cid : Nat)
  /-- PIPE_STAGE_START (R462). The next lower stage starts once the previous stage's FANOUT completes. -/
  | pipeStageStart (cid : Nat)
  /-- CHANNEL_TEARDOWN (R462). A channel is torn down once both endpoint stages finish. -/
  | channelTeardown (chan : Nat)
  /-- FUNCTION_LEVEL_RESET (R449). An FLR unmaps and clears a function's queues. -/
  | functionLevelReset (fn : Nat)
  /-- HOT_RESET (R445). Hot reset of a port acts as an FLR of each of its functions. -/
  | hotReset (port : Nat)
  /-- BAR2_ACCESS (R446). A host access through the BAR 2 window reaches partition memory. -/
  | bar2Access (fn : Nat) (write : Nat) (off : Nat) (len : Nat) (v : BitVec 128)
  /-- PLUGIN_CALL (R465). A write of %pcall starts a confined plug-in call. -/
  | pluginCall (v : BitVec 32)
  /-- PLUGIN_OVERRUN (R467). A plug-in call's 2,000-cycle budget expires. -/
  | pluginOverrun (tid : Nat)
  /-- HEARTBEAT (R475). A write of %hbeat commits a pending firmware update. -/
  | heartbeat (die : Nat)
  /-- TIME_SLICE_EXPIRY (R468). A queue's default-policy time slice ends. -/
  | timeSliceExpiry (fn : Nat) (q : Nat)
  /-- BUDGET_PERIOD (R469). A 10 µs budget period ends and held requests proceed. -/
  | budgetPeriod (part : Nat)
  /-- HOST_TRAP_ANSWER (R470). The host answers a posted trap record. -/
  | hostTrapAnswer (tid : Nat) (kill : Nat)
  /-- PFORM (R472). Forms a partition from named dies and loads its key. -/
  | pform (mid : Nat)
  /-- PDISS (R472). Dissolves a partition. -/
  | pdiss (mid : Nat)
  /-- KEYLD (R472). Loads a fresh key into a partition key slot. -/
  | keyld (mid : Nat)
  /-- STKMOVE (R472). Moves a stack to another partition with zeroing. -/
  | stkmove (mid : Nat)
  /-- POOL (R472). Sets a die's spill pool and save area. -/
  | pool (mid : Nat)
  /-- EVICT (R472). Pre-empts a partition and stops its dies. -/
  | evict (mid : Nat)
  /-- RESUME (R442). Checks images and resumes a partition. -/
  | resume (mid : Nat)
  /-- MEMCFG (R472). Writes a partition's memory configuration word. -/
  | memcfg (mid : Nat)
  /-- XROOT (R472). Sets a partition's translation root. -/
  | xroot (mid : Nat)
  /-- GTAB (R472). Writes a group table entry. -/
  | gtab (mid : Nat)
  /-- BUDGET (R472). Sets a partition's activity budget. -/
  | budget (mid : Nat)
  /-- SWIN (R472). Sets a partition's send window. -/
  | swin (mid : Nat)
  /-- CROUTE (R472). Writes a chip route table entry. -/
  | croute (mid : Nat)
  /-- FASSIGN (R472). Assigns or unassigns a function and sets its modes. -/
  | fassign (mid : Nat)
  /-- QMAP (R472). Maps a queue. -/
  | qmap (mid : Nat)
  /-- QUNMAP (R472). Unmaps a queue and saves its state. -/
  | qunmap (mid : Nat)
  /-- HYST (R472). Sets a partition's hysteresis window. -/
  | hyst (mid : Nat)
  /-- PLOAD (R472). Verifies and loads a tenant plug-in image. -/
  | pload (mid : Nat)
  /-- TSLICE (R472). Sets a tenant's default-policy slice. -/
  | tslice (mid : Nat)
  /-- FPOOL (R472). Adds frames to a function's free-frame pool. -/
  | fpool (mid : Nat)
  /-- KILL (R472). Kills a member's group at a level. -/
  | kill (mid : Nat)
  /-- FWLOAD (R473). Writes image bytes into the inactive firmware slot. -/
  | fwload (port : Nat)
  /-- FWACT (R475). Verifies, quiesces and starts the inactive firmware slot. -/
  | fwact (port : Nat)
  /-- QUIESCE_TIMEOUT (R475). The supervisor fails to quiesce within 1 ms and the update reports BUSY. -/
  | quiesceTimeout (io : Nat)
  /-- UPDATE_TIMEOUT (R476). The 50 ms timer expires before commit and the update rolls back. -/
  | updateTimeout (io : Nat)
  /-- LOGRD (R473). Returns measurement log entries. -/
  | logrd (port : Nat)
  /-- MGMT (R473). Carries out a management block at monitor privilege. -/
  | mgmt (port : Nat)
  /-- GET_VERSION (R484). SPDM request answered with the supported version. -/
  | getVersion (port : Nat)
  /-- GET_CAPABILITIES (R484). SPDM request for responder capabilities. -/
  | getCapabilities (port : Nat)
  /-- NEGOTIATE_ALGORITHMS (R484). SPDM request negotiating SHA-256 and SLH-DSA. -/
  | negotiateAlgorithms (port : Nat)
  /-- GET_DIGESTS (R484). SPDM request for certificate chain digests. -/
  | getDigests (port : Nat)
  /-- GET_CERTIFICATE (R484). SPDM request for the slot 0 certificate chain. -/
  | getCertificate (port : Nat)
  /-- CHALLENGE (R484). SPDM challenge signed by the alias key. -/
  | challenge (port : Nat)
  /-- GET_MEASUREMENTS (R484). SPDM request for measurement blocks. -/
  | getMeasurements (port : Nat)
  /-- SPDM_UNSUPPORTED_REQUEST (R484). Any other SPDM request is answered with ERROR. -/
  | spdmUnsupportedRequest (port : Nat)
  /-- PACKAGE_RESET (R479). Power-on or package reset starts Kaolin's boot. -/
  | packageReset
  /-- DIE_BRINGUP (R479). Kaolin measures, loads and releases the next die from reset. -/
  | dieBringup (verified : Nat) (tested : Nat) (router : Nat) (version : BitVec 32) (digest : BitVec 256)
  /-- THERMAL_STEPDOWN (R488). At 95 °C a die is stepped down in frequency. -/
  | thermalStepdown (die : Nat)
  /-- THERMAL_TRIP (R488). At 110 °C Kaolin stops every die and holds the package in reset. -/
  | thermalTrip
  /-- ILLEGAL_SYLLABLE (R87). A bundle that holds a reserved or unassigned encoding, a class 6 or 7 word, or X kind 10 reaches issue and traps ILLEGAL_SYLLABLE. -/
  | illegalSyllable (slot : Nat) (word : BitVec 32)
  /-- FETCH_PAGE_FAULT (R73). A fetch packet without a valid translation, rights or good data makes the first bundle in it trap precisely. -/
  | fetchPageFault (cause : Nat) (addr : BitVec 64)
  /-- FLIT_RESERVED_KIND (R404). A received flit whose KIND is reserved is discarded and counted as an error. -/
  | flitReservedKind (port : Nat) (hdr : BitVec 64)
  /-- FLIT_FAILS_CHECK (R405). A flit that fails its CRC after FEC correction is discarded, the receiver discards later flits until the expected sequence, and sends one replay request. -/
  | flitFailsCheck (port : Nat)
  /-- PCIE_LINK_UP (R482). A PCI Express port trains its link and its readiness bit becomes 1. -/
  | pcieLinkUp (port : Nat)
  /-- MAILBOX_BADREQ (R473). A host write of MBCMD with a reserved REQ or TGT completes the request with status BADREQ. -/
  | mailboxBadreq (port : Nat)
  deriving DecidableEq, Repr

/-- An event of the agenda: the constructor of `Instr` with the same name and operands, without the steps that the
issue of a bundle holds, and at the end inputs and actions that have no row. (A type of its own, because a value of `Instr`
cannot be built by compiled code beyond its 245th constructor.) -/
inductive Event where
  | threadResume (tid : Nat) (tpc : Option (BitVec 64))
  | groupKill (tid : Nat) (level : Nat)
  | frameStart (gid : Nat) (die : Nat)
  | barrierComplete (gid : Nat)
  | exitArrival (tid : Nat)
  | regionStretch (die : Nat) (region : Nat)
  | stretchEnd (die : Nat)
  | edgeHold (die : Nat) (region : Nat)
  | skewForcedStretch (die : Nat) (region : Nat)
  | powerStep (die : Nat) (freq : Nat)
  | taskDispatch (die : Nat) (core : Nat)
  | taskAgeing (die : Nat)
  | stealRequest (die : Nat)
  | stealAnswer (die : Nat) (nb : Nat)
  | stealBackoffExpiry (die : Nat)
  | turnShortageSpill (die : Nat)
  | spillComplete (tid : Nat)
  | bufferScrub (die : Nat) (core : Nat)
  | peerRequest (rid : Nat)
  | offCoreReply (rid : Nat)
  | fanoutForward (lid : Nat)
  | fanoutHeaderRead (lid : Nat)
  | launchPlacement (lid : Nat) (die : Nat) (core : Nat)
  | launchFinish (lid : Nat)
  | dependencySatisfied (lid : Nat) (pid : Nat) (level : Nat)
  | spawnRecordArrival (rid : Nat)
  | migrationDepart (tid : Nat)
  | migrationArrival (tid : Nat) (die : Nat) (core : Nat)
  | forwardWindowExpiry (die : Nat) (core : Nat) (tid : Nat)
  | remoteReply (rid : Nat)
  | envelopeArrival (die : Nat) (core : Nat) (port : Nat) (env : BitVec 64)
  | creditArrival (die : Nat) (core : Nat) (port : Nat)
  | probeLaunch (tid : Nat)
  | probe (tid : Nat)
  | copyStart (die : Nat) (core : Nat) (ctx : Nat)
  | copyUnit (die : Nat) (core : Nat) (ctx : Nat)
  | copyComplete (die : Nat) (core : Nat) (ctx : Nat)
  | completionNotice (tid : Nat)
  | matrixStart (die : Nat) (core : Nat) (num : Nat) (elapsed : Nat)
  | matrixComplete (die : Nat) (core : Nat) (num : Nat)
  | mmrotRingNotice (die : Nat) (core : Nat) (num : Nat)
  | mmrotTransfer (die : Nat) (core : Nat) (num : Nat) (side : Nat) (cycle : Nat)
  | prismStart (die : Nat) (core : Nat) (num : Nat) (elapsed : Nat)
  | prismComplete (die : Nat) (core : Nat) (num : Nat)
  | collStart (die : Nat) (ctx : Nat)
  | collSegment (die : Nat) (ctx : Nat) (num : Nat)
  | collComplete (die : Nat) (ctx : Nat) (num : Nat)
  | flitData (port : Nat) (hdr : BitVec 64) (off : BitVec 64) (data : BitVec 1792)
  | flitWindowAck (port : Nat) (hdr : BitVec 64)
  | flitIdle (port : Nat) (hdr : BitVec 64)
  | flitReplayRequest (port : Nat) (hdr : BitVec 64)
  | flitLinkControl (port : Nat) (hdr : BitVec 64)
  | linkSilenceTimeout (port : Nat)
  | linkReplayLimit (port : Nat)
  | handoverStart (die : Nat) (num : Nat)
  | handoverFlip (die : Nat) (num : Nat)
  | memoryRequest (rid : Nat)
  | pageWalkComplete (die : Nat) (part : Nat) (va : BitVec 64)
  | xlinvComplete (die : Nat) (num : Nat)
  | pageMigrateIn (part : Nat) (va : BitVec 64)
  | pageMigrateOut (part : Nat) (va : BitVec 64) (host : BitVec 64)
  | migrationEventAnswer (part : Nat) (va : BitVec 64) (leaf : BitVec 64)
  | hysteresisExpiry (part : Nat) (va : BitVec 64)
  | quiesceComplete (die : Nat)
  | partitionEvicted (part : Nat)
  | wake (fn : Nat) (q : Nat) (v : BitVec 32)
  | rbaseWrite (fn : Nat) (q : Nat) (v : BitVec 64)
  | rcfgWrite (fn : Nat) (q : Nat) (v : BitVec 32)
  | fctlWrite (fn : Nat) (v : BitVec 32)
  | mbevtClear (port : Nat) (v : BitVec 32)
  | registerWrite (fn : Nat) (bar : Nat) (off : Nat) (v : BitVec 64)
  | commandFetch (fn : Nat) (q : Nat)
  | commandStart (cid : Nat)
  | commandComplete (cid : Nat)
  | launch (cid : Nat)
  | pipe (cid : Nat)
  | signal (cid : Nat)
  | waitsig (cid : Nat)
  | waitsigTimeout (cid : Nat)
  | copyh (cid : Nat)
  | handoffq (cid : Nat)
  | pipeStageStart (cid : Nat)
  | channelTeardown (chan : Nat)
  | functionLevelReset (fn : Nat)
  | hotReset (port : Nat)
  | bar2Access (fn : Nat) (write : Nat) (off : Nat) (len : Nat) (v : BitVec 128)
  | pluginCall (v : BitVec 32)
  | pluginOverrun (tid : Nat)
  | heartbeat (die : Nat)
  | timeSliceExpiry (fn : Nat) (q : Nat)
  | budgetPeriod (part : Nat)
  | hostTrapAnswer (tid : Nat) (kill : Nat)
  | pform (mid : Nat)
  | pdiss (mid : Nat)
  | keyld (mid : Nat)
  | stkmove (mid : Nat)
  | pool (mid : Nat)
  | evict (mid : Nat)
  | resume (mid : Nat)
  | memcfg (mid : Nat)
  | xroot (mid : Nat)
  | gtab (mid : Nat)
  | budget (mid : Nat)
  | swin (mid : Nat)
  | croute (mid : Nat)
  | fassign (mid : Nat)
  | qmap (mid : Nat)
  | qunmap (mid : Nat)
  | hyst (mid : Nat)
  | pload (mid : Nat)
  | tslice (mid : Nat)
  | fpool (mid : Nat)
  | kill (mid : Nat)
  | fwload (port : Nat)
  | fwact (port : Nat)
  | quiesceTimeout (io : Nat)
  | updateTimeout (io : Nat)
  | logrd (port : Nat)
  | mgmt (port : Nat)
  | getVersion (port : Nat)
  | getCapabilities (port : Nat)
  | negotiateAlgorithms (port : Nat)
  | getDigests (port : Nat)
  | getCertificate (port : Nat)
  | challenge (port : Nat)
  | getMeasurements (port : Nat)
  | spdmUnsupportedRequest (port : Nat)
  | packageReset
  | dieBringup (verified : Nat) (tested : Nat) (router : Nat) (version : BitVec 32) (digest : BitVec 256)
  | thermalStepdown (die : Nat)
  | thermalTrip
  | flitReservedKind (port : Nat) (hdr : BitVec 64)
  | flitFailsCheck (port : Nat)
  | pcieLinkUp (port : Nat)
  | mailboxBadreq (port : Nat)
  /-- The supervisor moves a partition to other physical dies (R428). -/
  | groupMove (part : Nat) (dies : List Nat)
  /-- A host reads a register of a function (R446). -/
  | hostRead (fn : Nat) (bar : Nat) (off : Nat)
  /-- The host behind a port writes its own memory (R154). -/
  | hostStore (port : Nat) (addr : Nat) (n : Nat) (v : BitVec 512)
  /-- The first of the host accesses of a port that wait is tried again (R153, R154). -/
  | hostTurn (port : Nat)
  /-- An MSI-X vector of a function is sent (R444, R469). -/
  | msix (fn : Nat) (vec : Nat)
  /-- A die corrects an error of a class (R486). -/
  | correctedError (die : Nat) (cls : Nat)
  /-- The 256 bytes of a flit arrive at a Dziaris port (R404). -/
  | flitReceived (port : Nat) (flit : BitVec 2048)
  deriving DecidableEq, Repr

end Sys2Proof
end

