-- ==== Sys2Proof/Machine/Legal.lean ====
section
/-! DEFINITION. The operand values that the entry of each syllable accepts: the decode checks of R77. -/

namespace Sys2Proof.Machine

/-- Numbers that name a system register (R166, R464). -/
def sysAssigned (n : Nat) : Bool :=
  n ≤ 0x00B || n = 0x010 || n = 0x011 || n = 0x018 || n = 0x019 || (0x020 ≤ n && n ≤ 0x022) ||
  (0x028 ≤ n && n ≤ 0x02F) || (0x030 ≤ n && n ≤ 0x033) || n = 0x038 || (0x100 ≤ n && n ≤ 0x10C) ||
  n = 0x110 || n = 0x111
/-- 64-bit registers (R166, R464). -/
def sysWide (n : Nat) : Bool := n = 0x000 || n = 0x001 || n = 0x010 || n = 0x032 || n = 0x102
/-- An assigned register, and a 64-bit one for the high half (R166, R167). -/
def legalSys (r : BitVec 10) (h : BitVec 1) : Bool := sysAssigned r.toNat && (h == 0 || sysWide r.toNat)

/-- Format AM: mode 11 is reserved, and mode 01 leaves [7:5] zero (R76, R204). -/
def legalAm (m : BitVec 2) (o : BitVec 8) : Bool := m != 3 && (m != 1 || o.extractLsb' 5 3 == 0)

/-- The forms of AFX and EFX: a source that the form does not use is zero (R214, R271). -/
def legalForm (o : Nat) (h l : BitVec 5) : Bool :=
  match o with
  | 0 => true
  | 1 | 2 | 3 => h == 0
  | 4 => l == 0
  | _ => false

/-- Type codes of V syllables (R228): the float types, the integer types, and the element width. -/
def isFl (y : BitVec 3) : Bool := y.toNat ≤ 2
def isIn (y : BitVec 3) : Bool := y == 3 || y == 4 || y == 5
def typeWidth (y : BitVec 3) : Nat :=
  match y.toNat with
  | 0 | 3 => 32
  | 1 | 2 | 4 => 16
  | _ => 8
/-- The ratio r of R247. -/
def partRatio (a b : Nat) : Nat := if a ≤ b then b / a else a / b

/-- The extra operands of an atomic (R69): its reserved bits are zero, MX is zero without a release, XS2 for anything
but cas, DS without DET. -/
def legalExtra (x : BitVec 26) (cas : Bool) : Bool :=
  x.extractLsb' 21 3 == 0 && x.extractLsb' 0 7 == 0 && (x.getLsbD 25 || x.extractLsb' 16 5 == 0) &&
  (cas || x.extractLsb' 11 5 == 0) && (x.getLsbD 7 || x.extractLsb' 8 3 == 0)

/-- The operation, size and registers of AMO and RAMO (R216, R217, R221): `dbl` is size d, `ramoRet`
holds for a RAMO that returns, `s` is the operand register. -/
def legalAtomic (o : BitVec 4) (dbl : Bool) (ramoRet : Bool) (s : BitVec 5) (xx : Option (BitVec 26)) : Bool :=
  let det := match xx with
    | some x => x.getLsbD 7
    | none => false
  let c2 := match xx with
    | some x => x.extractLsb' 11 5
    | none => 0#5
  let float := o == 10 || o == 11 || o == 12
  o.toNat ≤ 12 && (o != 9 || xx.isSome) &&
  (match xx with
   | some x => legalExtra x (o == 9)
   | none => true) &&
  (!det || (dbl && o == 10 && !ramoRet)) && (!dbl || !float || det) &&
  (!dbl || det || (s.toNat < 16 && c2.toNat < 16))

/-- The operand values that each syllable accepts (R77 and the entry of each). The steps without an encoding take any
operand. -/
def legal : Instr → Bool
  | .li _ _ xx => match xx with | none => true | some x => x.extractLsb' 16 10 == 0
  | .clog _ o _ _ m c => o.toNat ≤ 3 && (o != 3 || (m == 0 && c == 0))
  | .loop _ _ i => i.getLsbD 10 == false && i != 0
  | .bar l => l != 7
  | .exit l => l != 7
  | .sysr _ r h => legalSys r h
  | .sysw _ r h => legalSys r h
  | .frame l => l != 7
  | .xfv _ _ k e _ => k.toNat ≤ 4 && (if k == 0 then e == 0 else if k.toNat ≤ 2 then e.toNat ≤ 1 else true)
  | .ldB _ _ m _ o => legalAm m o
  | .ldH _ _ m _ o => legalAm m o
  | .ldW _ _ m _ o => legalAm m o
  | .ldD d a m _ o => legalAm m o && !(m == 2 && d == a)
  | .ldzB _ _ m _ o => legalAm m o
  | .ldzH _ _ m _ o => legalAm m o
  | .ldzW d a m _ o => legalAm m o && !(m == 2 && d == a)
  | .stB _ _ m _ o => legalAm m o
  | .stH _ _ m _ o => legalAm m o
  | .stW _ _ m _ o => legalAm m o
  | .stD _ _ m _ o => legalAm m o
  | .ldv _ _ m _ o => legalAm m o
  | .stv _ _ m _ o => legalAm m o
  | .ldvs _ _ m _ _ _ => m == 0 || m == 2
  | .stvs _ _ m _ _ _ => m == 0 || m == 2
  | .gld _ _ s _ _ => s != 3
  | .gst _ _ s _ _ => s != 3
  | .ldk _ _ m _ o => legalAm m o
  | .stk _ _ m _ o => legalAm m o
  | .afx h _ l o => legalForm o.toNat h l
  | .peer d _ c x y q => q != 3 && (x == 0 || c == 0) && (y == 0 || d == 0)
  | .amo d _ s o z p xx => (z == 0 || d.toNat ≤ 16) && p != 3 && legalAtomic o (z == 1) false s xx
  | .rld d _ _ z => if z == 0 then true else if z == 3 then d.toNat < 8 else d.toNat < 16
  | .rst d _ _ z => if z == 0 then true else if z == 3 then d.toNat < 8 else d.toNat < 16
  | .ramo d _ _ z n o xx => z.toNat ≤ 1 && legalAtomic o (z == 1) (n == 0) d xx
  | .vfadd _ _ _ _ y => isFl y
  | .vfsub _ _ _ _ y => isFl y
  | .vfmul _ _ _ _ y => isFl y
  | .vfma _ _ _ _ y => isFl y
  | .vfnma _ _ _ _ y => isFl y
  | .vfmin _ _ _ _ y => isFl y
  | .vfmax _ _ _ _ y => isFl y
  | .vfabs _ _ _ y => isFl y
  | .vfneg _ _ _ y => isFl y
  | .vfcps _ _ _ _ y => isFl y
  | .vfrcp _ _ _ y => isFl y
  | .vfrsq _ _ _ y => isFl y
  | .vfsqrt _ _ _ y => isFl y
  | .vfdiv _ _ _ _ y => isFl y
  | .vfexp2 _ _ _ y => isFl y
  | .vflog2 _ _ _ y => isFl y
  | .vadd _ _ _ _ y _ _ => isIn y
  | .vsub _ _ _ _ y _ _ => isIn y
  | .vmul _ _ _ _ y _ _ => isIn y
  | .vmulh _ _ _ _ y _ => isIn y
  | .vmadw _ _ _ _ y _ _ => y == 4 || y == 5
  | .vmin _ _ _ _ y _ => isIn y
  | .vmax _ _ _ _ y _ => isIn y
  | .vshl _ _ _ _ y => isIn y
  | .vshr _ _ _ _ y => isIn y
  | .vsar _ _ _ _ y => isIn y
  | .vabs _ _ _ y _ => isIn y
  | .vsat _ _ _ _ y _ _ => y == 3 || y == 4
  | .vfx _ _ n l => n == 1 || l == 0
  | .vslide _ _ _ _ _ m _ => m != 3
  | .vpack _ _ _ _ y u => (1 ≤ y.toNat && y.toNat ≤ 5 && y != 3) && (u == 0 || isIn y)
  | .vunpk _ _ _ y _ u => (1 ≤ y.toNat && y.toNat ≤ 5 && y != 3) && (u == 0 || isIn y)
  | .vcvt _ _ c g _ y p z => (c == 0 || isIn g) && (z == 0 || isIn y) && !(y == g && c == z) && p.toNat < partRatio (typeWidth g) (typeWidth y)
  | .vqnt _ _ _ _ y p u => 4 ≤ y.toNat && p.toNat < 32 / typeWidth y && (u == 0 || isIn y)
  | .vdqnt _ _ _ _ y p u => 1 ≤ y.toNat && y != 3 && p.toNat < 32 / typeWidth y && (u == 0 || isIn y)
  | .vred _ _ _ y o u => y.toNat ≤ 5 && o != 3 && (u == 0 || isIn y)
  | .vscan _ _ _ y o u => y.toNat ≤ 5 && o != 3 && (u == 0 || isIn y)
  | .vkey _ _ _ _ y p _ _ => (y == 0 || y == 1 || y == 3) && (y != 1 || p == 0)
  | .kop _ _ c o => o.toNat ≤ 4 && (o != 4 || c == 0)
  | .kfirst _ _ m => m.toNat ≤ 2
  | .kset _ n _ => n.toNat ≤ 64
  | .vmm _ _ _ _ y o => y.toNat ≤ 5 && o.toNat ≤ 5
  | .vshlImm _ _ y _ c => isIn y && c.toNat < typeWidth y
  | .vshrImm _ _ y _ c => isIn y && c.toNat < typeWidth y
  | .vsarImm _ _ y _ c => isIn y && c.toNat < typeWidth y
  | .vslideImm _ _ y _ n => n.toNat ≤ 64 * (32 / typeWidth y)
  | .qset _ _ f _ => f.toNat ≤ 14
  | .mdrn _ o _ _ => o.toNat ≤ 2
  | .mldc _ o _ _ => o.toNat ≤ 2
  | .pwin k _ o _ w => o != 3 && (o == 2 || k == 0) && w != 0
  | .pldw _ m _ _ => m != 0
  | .plaunch _ m _ => m != 0
  | .pcap _ m _ => m != 0
  | .prst m _ => m != 0
  | .efx _ h l o => legalForm o.toNat h l
  | .cpyt _ _ e _ _ v r q => e.getLsbD 0 == false && (v == 1 || (r == 0 && q == 0))
  | .wait _ c a e q => (q == 1 || c == 0) && (a == 1 || e == 0)
  | .test _ _ a e => a == 1 || e == 0
  | .cancel _ a e => a == 1 || e == 0
  | .tlwait _ _ a e => a == 1 || e == 0
  | .tlrd _ f n _ a e => (if f == 0 then n.toNat ≤ 1 else n.toNat ≤ 11) && (a == 1 || e == 0)
  | .spawn a f n _ _ _ => a.getLsbD 0 == false && f.toNat + n.toNat + 1 ≤ 32
  | .xlinv _ l e => l == 0 || e == 0
  | .nop | .add _ _ _ | .sub _ _ _ | .mul _ _ _ | .mulh _ _ _ | .mulhb _ _ _ | .div _ _ _ | .divb _ _ _
  | .rem _ _ _ | .remb _ _ _ | .and _ _ _ | .or _ _ _ | .xor _ _ _ | .andn _ _ _ | .shl _ _ _ | .shr _ _ _
  | .sar _ _ _ | .rol _ _ _ | .min _ _ _ | .max _ _ _ | .minb _ _ _ | .maxb _ _ _ | .addImm _ _ _ | .subImm _ _ _
  | .mulImm _ _ _ | .mulhImm _ _ _ | .mulhbImm _ _ _ | .divImm _ _ _ | .divbImm _ _ _ | .remImm _ _ _
  | .rembImm _ _ _ | .andImm _ _ _ | .orImm _ _ _ | .xorImm _ _ _ | .andnImm _ _ _ | .shlImm _ _ _ | .shrImm _ _ _
  | .sarImm _ _ _ | .rolImm _ _ _ | .minImm _ _ _ | .maxImm _ _ _ | .minbImm _ _ _ | .maxbImm _ _ _ | .clz _ _
  | .ctz _ _ | .popc _ _ | .brev _ _ | .sext _ _ _ | .ext _ _ _ _ | .ins _ _ _ _ | .sel _ _ _ _ _ | .cmp _ _ _ _ _
  | .br _ _ _ | .jmp _ _ | .call _ _ | .jmpr _ | .ret | .trap _ | .brk _ | .rte | .xfa _ _ _ | .xfe _ _ _
  | .aadd _ _ _ | .ali _ _ _ | .vfcmp _ _ _ _ _ | .vand _ _ _ _ | .vor _ _ _ _ | .vxor _ _ _ _ | .vcmp _ _ _ _ _ _
  | .vmov _ _ _ | .vperm _ _ _ _ _ | .vsel _ _ _ _ | .kpop _ _ _ | .vmovImm _ _ _ | .qld _ _ _ | .qst _ _ _
  | .mown | .mownRel | .mmul _ _ _ _ _ | .mmuls _ _ _ _ _ | .mmrot _ _ _ _ _ | .mzero _ _ | .pcapList _ _
  | .send _ _ | .recv _ _ | .pbind _ | .pbindRel _ | .cpy _ _ _ _ _ | .gath _ _ _ _ _ _ | .scat _ _ _ _ _ _
  | .sig _ _ _ _ | .fenceRel _ | .fenceAcq | .fenceSc _ | .fanout _ _ _ | .trig | .migr _ | .migrHome _ | .yield _
  | .coll _ _ _ | .handoff _ _ | .issueStamp _ _ | .nullBundle | .bundleRelease | .stampTarget | .threadResume _ _
  | .groupKill _ _ | .frameStart _ _ | .frameWrap | .barrierComplete _ | .exitArrival _ | .longResultLanding
  | .snapshotLanding | .vmmDelayEnd | .regionStretch _ _ | .stretchEnd _ | .edgeHold _ _ | .skewForcedStretch _ _
  | .powerStep _ _ | .taskDispatch _ _ | .taskAgeing _ | .stealRequest _ | .stealAnswer _ _
  | .stealBackoffExpiry _ | .turnShortageSpill _ | .spillComplete _ | .bufferScrub _ _ | .peerRequest _
  | .offCoreReply _ | .fanoutForward _ | .fanoutHeaderRead _ | .launchPlacement _ _ _ | .launchFinish _
  | .dependencySatisfied _ _ _ | .spawnRecordArrival _ | .migrationDepart _ | .migrationArrival _ _ _
  | .forwardWindowExpiry _ _ _ | .remoteReply _ | .envelopeArrival _ _ _ _ | .creditArrival _ _ _ | .probeLaunch _
  | .probe _ | .copyStart _ _ _ | .copyUnit _ _ _ | .copyComplete _ _ _ | .completionNotice _
  | .matrixStart _ _ _ _ | .matrixComplete _ _ _ | .mmrotRingNotice _ _ _ | .mmrotTransfer _ _ _ _ _
  | .prismStart _ _ _ _ | .prismComplete _ _ _ | .collStart _ _ | .collSegment _ _ _ | .collComplete _ _ _
  | .flitData _ _ _ _ | .flitWindowAck _ _ | .flitIdle _ _ | .flitReplayRequest _ _ | .flitLinkControl _ _
  | .linkSilenceTimeout _ | .linkReplayLimit _ | .handoverStart _ _ | .handoverFlip _ _ | .memoryRequest _
  | .pageWalkComplete _ _ _ | .xlinvComplete _ _ | .pageMigrateIn _ _ | .pageMigrateOut _ _ _
  | .migrationEventAnswer _ _ _ | .hysteresisExpiry _ _ | .quiesceComplete _ | .partitionEvicted _ | .wake _ _ _
  | .rbaseWrite _ _ _ | .rcfgWrite _ _ _ | .fctlWrite _ _ | .mbevtClear _ _ | .registerWrite _ _ _ _
  | .commandFetch _ _ | .commandStart _ | .commandComplete _ | .launch _ | .pipe _ | .signal _ | .waitsig _
  | .waitsigTimeout _ | .copyh _ | .handoffq _ | .pipeStageStart _ | .channelTeardown _ | .functionLevelReset _
  | .hotReset _ | .bar2Access _ _ _ _ _ | .pluginCall _ | .pluginOverrun _ | .heartbeat _ | .timeSliceExpiry _ _
  | .budgetPeriod _ | .hostTrapAnswer _ _ | .pform _ | .pdiss _ | .keyld _ | .stkmove _ | .pool _ | .evict _
  | .resume _ | .memcfg _ | .xroot _ | .gtab _ | .budget _ | .swin _ | .croute _ | .fassign _ | .qmap _
  | .qunmap _ | .hyst _ | .pload _ | .tslice _ | .fpool _ | .kill _ | .fwload _ | .fwact _ | .quiesceTimeout _
  | .updateTimeout _ | .logrd _ | .mgmt _ | .getVersion _ | .getCapabilities _ | .negotiateAlgorithms _
  | .getDigests _ | .getCertificate _ | .challenge _ | .getMeasurements _ | .spdmUnsupportedRequest _
  | .packageReset | .dieBringup _ _ _ _ _ | .thermalStepdown _ | .thermalTrip | .illegalSyllable _ _
  | .fetchPageFault _ _ | .flitReservedKind _ _ | .flitFailsCheck _ | .pcieLinkUp _ | .mailboxBadreq _ => true

end Sys2Proof.Machine
end

