-- ==== Sys2Proof/WellFormed.lean ====
section
/-! DEFINITION. Well-formed instructions: every operand holds a value that the instruction's entry accepts. -/

namespace Sys2Proof

/-- A well-formed instruction: what the decode checks of R77 accept. -/
def Instr.wf (i : Instr) : Bool := Machine.legal i

end Sys2Proof
end

