-- ==== Sys2Proof/Decode.lean ====
section
/-! DEFINITION. Decoding and encoding of syllables (R63, R67-R69, R76, R87-R92). -/

namespace Sys2Proof

/-- Why words are no instruction. -/
inductive Reject where
  /-- No words, or more than a syllable and its X syllable. -/
  | length
  /-- Class 6 or 7, or a class 5 word that is no issue stamp (R64, R67). -/
  | reservedClass
  /-- An opcode that the opcode map does not assign (R87). -/
  | unassigned
  /-- A bit that must be zero, or a selector that the entry does not assign (R77). -/
  | field
  /-- An X syllable after a syllable that takes none of its kind (R68, R69). -/
  | extension
  /-- An operand value that the entry does not accept (R77). -/
  | value
  deriving DecidableEq, Repr

/-- Bits hi to lo of a word. -/
def fld (w : BitVec 32) (hi lo : Nat) : BitVec (hi + 1 - lo) := w.extractLsb' lo (hi + 1 - lo)

/-- Bits hi to lo are zero. -/
def zf (w : BitVec 32) (hi lo : Nat) : Bool := fld w hi lo == 0

/-- The payload of a high-immediate X syllable (kind 00) or an extra-operand one (kind 01), if the word is one. -/
def payload (kind : Nat) (x : BitVec 32) : Option (BitVec 26) :=
  if (x.extractLsb' 26 6).toNat = 20 + kind then some (x.extractLsb' 0 26) else none

/-- A syllable without an X syllable, its zero fields checked. -/
def plain (x : Option (BitVec 32)) (ok : Bool) (i : Instr) : Except Reject Instr :=
  if x.isSome then .error .extension
  else if !ok then .error .field
  else if i.wf then .ok i else .error .value

/-- A syllable that an X syllable of the given kind may extend (R68, R69). -/
def extended (kind : Nat) (x : Option (BitVec 32)) (ok : Bool) (i : Option (BitVec 26) → Instr) :
    Except Reject Instr :=
  if !ok then .error .field
  else
    match x with
    | none => if (i none).wf then .ok (i none) else .error .value
    | some y =>
      match payload kind y with
      | some p => if (i (some p)).wf then .ok (i (some p)) else .error .value
      | none => .error .extension

/-- Class S (R88). -/
def decodeS (w : BitVec 32) (x : Option (BitVec 32)) : Except Reject Instr :=
  match (fld w 27 21).toNat with
  | 0x00 => plain x (zf w 20 0) .nop
  | 0x01 => plain x (zf w 5 0) (.add (fld w 20 16) (fld w 15 11) (fld w 10 6))
  | 0x02 => plain x (zf w 5 0) (.sub (fld w 20 16) (fld w 15 11) (fld w 10 6))
  | 0x03 => plain x (zf w 5 0) (.mul (fld w 20 16) (fld w 15 11) (fld w 10 6))
  | 0x04 => plain x (zf w 5 0) (.mulh (fld w 20 16) (fld w 15 11) (fld w 10 6))
  | 0x05 => plain x (zf w 5 0) (.mulhb (fld w 20 16) (fld w 15 11) (fld w 10 6))
  | 0x06 => plain x (zf w 5 0) (.div (fld w 20 16) (fld w 15 11) (fld w 10 6))
  | 0x07 => plain x (zf w 5 0) (.divb (fld w 20 16) (fld w 15 11) (fld w 10 6))
  | 0x08 => plain x (zf w 5 0) (.rem (fld w 20 16) (fld w 15 11) (fld w 10 6))
  | 0x09 => plain x (zf w 5 0) (.remb (fld w 20 16) (fld w 15 11) (fld w 10 6))
  | 0x0A => plain x (zf w 5 0) (.and (fld w 20 16) (fld w 15 11) (fld w 10 6))
  | 0x0B => plain x (zf w 5 0) (.or (fld w 20 16) (fld w 15 11) (fld w 10 6))
  | 0x0C => plain x (zf w 5 0) (.xor (fld w 20 16) (fld w 15 11) (fld w 10 6))
  | 0x0D => plain x (zf w 5 0) (.andn (fld w 20 16) (fld w 15 11) (fld w 10 6))
  | 0x0E => plain x (zf w 5 0) (.shl (fld w 20 16) (fld w 15 11) (fld w 10 6))
  | 0x0F => plain x (zf w 5 0) (.shr (fld w 20 16) (fld w 15 11) (fld w 10 6))
  | 0x10 => plain x (zf w 5 0) (.sar (fld w 20 16) (fld w 15 11) (fld w 10 6))
  | 0x11 => plain x (zf w 5 0) (.rol (fld w 20 16) (fld w 15 11) (fld w 10 6))
  | 0x12 => plain x (zf w 5 0) (.min (fld w 20 16) (fld w 15 11) (fld w 10 6))
  | 0x13 => plain x (zf w 5 0) (.max (fld w 20 16) (fld w 15 11) (fld w 10 6))
  | 0x14 => plain x (zf w 5 0) (.minb (fld w 20 16) (fld w 15 11) (fld w 10 6))
  | 0x15 => plain x (zf w 5 0) (.maxb (fld w 20 16) (fld w 15 11) (fld w 10 6))
  | 0x16 => plain x (zf w 10 0) (.clz (fld w 20 16) (fld w 15 11))
  | 0x17 => plain x (zf w 10 0) (.ctz (fld w 20 16) (fld w 15 11))
  | 0x18 => plain x (zf w 10 0) (.popc (fld w 20 16) (fld w 15 11))
  | 0x19 => plain x (zf w 10 0) (.brev (fld w 20 16) (fld w 15 11))
  | 0x1A => plain x (zf w 10 5) (.sext (fld w 20 16) (fld w 15 11) (fld w 4 0))
  | 0x1B => plain x (zf w 5 5) (.ext (fld w 20 16) (fld w 15 11) (fld w 10 6) (fld w 4 0))
  | 0x1C => plain x (zf w 5 5) (.ins (fld w 20 16) (fld w 15 11) (fld w 10 6) (fld w 4 0))
  | 0x1D => plain x (zf w 5 5) (.sel (fld w 20 16) (fld w 15 11) (fld w 10 6) (fld w 4 4) (fld w 3 0))
  | 0x21 => plain x (true) (.addImm (fld w 20 16) (fld w 15 11) (fld w 10 0))
  | 0x22 => plain x (true) (.subImm (fld w 20 16) (fld w 15 11) (fld w 10 0))
  | 0x23 => plain x (true) (.mulImm (fld w 20 16) (fld w 15 11) (fld w 10 0))
  | 0x24 => plain x (true) (.mulhImm (fld w 20 16) (fld w 15 11) (fld w 10 0))
  | 0x25 => plain x (true) (.mulhbImm (fld w 20 16) (fld w 15 11) (fld w 10 0))
  | 0x26 => plain x (true) (.divImm (fld w 20 16) (fld w 15 11) (fld w 10 0))
  | 0x27 => plain x (true) (.divbImm (fld w 20 16) (fld w 15 11) (fld w 10 0))
  | 0x28 => plain x (true) (.remImm (fld w 20 16) (fld w 15 11) (fld w 10 0))
  | 0x29 => plain x (true) (.rembImm (fld w 20 16) (fld w 15 11) (fld w 10 0))
  | 0x2A => plain x (true) (.andImm (fld w 20 16) (fld w 15 11) (fld w 10 0))
  | 0x2B => plain x (true) (.orImm (fld w 20 16) (fld w 15 11) (fld w 10 0))
  | 0x2C => plain x (true) (.xorImm (fld w 20 16) (fld w 15 11) (fld w 10 0))
  | 0x2D => plain x (true) (.andnImm (fld w 20 16) (fld w 15 11) (fld w 10 0))
  | 0x2E => plain x (zf w 10 5) (.shlImm (fld w 20 16) (fld w 15 11) (fld w 4 0))
  | 0x2F => plain x (zf w 10 5) (.shrImm (fld w 20 16) (fld w 15 11) (fld w 4 0))
  | 0x30 => plain x (zf w 10 5) (.sarImm (fld w 20 16) (fld w 15 11) (fld w 4 0))
  | 0x31 => plain x (zf w 10 5) (.rolImm (fld w 20 16) (fld w 15 11) (fld w 4 0))
  | 0x32 => plain x (true) (.minImm (fld w 20 16) (fld w 15 11) (fld w 10 0))
  | 0x33 => plain x (true) (.maxImm (fld w 20 16) (fld w 15 11) (fld w 10 0))
  | 0x34 => plain x (true) (.minbImm (fld w 20 16) (fld w 15 11) (fld w 10 0))
  | 0x35 => plain x (true) (.maxbImm (fld w 20 16) (fld w 15 11) (fld w 10 0))
  | 0x38 => extended 0 x (true) (.li (fld w 20 16) (fld w 15 0))
  | 0x3A => plain x (true) (.cmp (fld w 20 18) (fld w 17 15) (fld w 14 10) (fld w 9 5) (fld w 4 0))
  | 0x3B => plain x (zf w 4 0) (.clog (fld w 20 18) (fld w 17 15) (fld w 14 14) (fld w 13 10) (fld w 9 9) (fld w 8 5))
  | 0x40 => plain x (true) (.br (fld w 20 17) (fld w 16 16) (fld w 15 0))
  | 0x41 => extended 0 x (zf w 20 18) (.jmp (fld w 17 0))
  | 0x42 => plain x (zf w 20 16 && zf w 10 0) (.jmpr (fld w 15 11))
  | 0x43 => extended 0 x (zf w 20 18) (.call (fld w 17 0))
  | 0x44 => plain x (zf w 20 0) .ret
  | 0x45 => plain x (zf w 20 17) (.loop (fld w 16 16) (fld w 15 11) (fld w 10 0))
  | 0x46 => plain x (zf w 20 3) (.bar (fld w 2 0))
  | 0x47 => plain x (zf w 20 3) (.exit (fld w 2 0))
  | 0x48 => plain x (zf w 20 16) (.trap (fld w 15 0))
  | 0x49 => plain x (zf w 20 0) .rte
  | 0x4A => plain x (zf w 20 16) (.brk (fld w 15 0))
  | 0x50 => plain x (zf w 5 1) (.sysr (fld w 20 16) (fld w 15 6) (fld w 0 0))
  | 0x51 => plain x (zf w 5 1) (.sysw (fld w 20 16) (fld w 15 6) (fld w 0 0))
  | 0x52 => plain x (zf w 20 3) (.frame (fld w 2 0))
  | 0x58 => plain x (zf w 15 15 && zf w 10 1) (.xfa (fld w 20 16) (fld w 14 11) (fld w 0 0))
  | 0x59 => plain x (zf w 15 15) (.xfv (fld w 20 16) (fld w 14 11) (fld w 10 8) (fld w 7 6) (fld w 5 0))
  | 0x5A => plain x (zf w 15 14 && zf w 10 1) (.xfe (fld w 20 16) (fld w 13 11) (fld w 0 0))
  | _ => .error .unassigned

/-- Class A (R89). -/
def decodeA (w : BitVec 32) (x : Option (BitVec 32)) : Except Reject Instr :=
  match (fld w 27 21).toNat with
  | 0x00 => plain x (true) (.ldB (fld w 20 16) (fld w 15 12) (fld w 11 10) (fld w 9 8) (fld w 7 0))
  | 0x01 => plain x (true) (.ldH (fld w 20 16) (fld w 15 12) (fld w 11 10) (fld w 9 8) (fld w 7 0))
  | 0x02 => plain x (true) (.ldW (fld w 20 16) (fld w 15 12) (fld w 11 10) (fld w 9 8) (fld w 7 0))
  | 0x03 => plain x (zf w 20 20) (.ldD (fld w 19 16) (fld w 15 12) (fld w 11 10) (fld w 9 8) (fld w 7 0))
  | 0x04 => plain x (true) (.ldzB (fld w 20 16) (fld w 15 12) (fld w 11 10) (fld w 9 8) (fld w 7 0))
  | 0x05 => plain x (true) (.ldzH (fld w 20 16) (fld w 15 12) (fld w 11 10) (fld w 9 8) (fld w 7 0))
  | 0x06 => plain x (zf w 20 20) (.ldzW (fld w 19 16) (fld w 15 12) (fld w 11 10) (fld w 9 8) (fld w 7 0))
  | 0x08 => plain x (true) (.stB (fld w 20 16) (fld w 15 12) (fld w 11 10) (fld w 9 8) (fld w 7 0))
  | 0x09 => plain x (true) (.stH (fld w 20 16) (fld w 15 12) (fld w 11 10) (fld w 9 8) (fld w 7 0))
  | 0x0A => plain x (true) (.stW (fld w 20 16) (fld w 15 12) (fld w 11 10) (fld w 9 8) (fld w 7 0))
  | 0x0B => plain x (zf w 20 20) (.stD (fld w 19 16) (fld w 15 12) (fld w 11 10) (fld w 9 8) (fld w 7 0))
  | 0x10 => plain x (zf w 20 20) (.ldv (fld w 19 16) (fld w 15 12) (fld w 11 10) (fld w 9 8) (fld w 7 0))
  | 0x11 => plain x (zf w 20 20) (.stv (fld w 19 16) (fld w 15 12) (fld w 11 10) (fld w 9 8) (fld w 7 0))
  | 0x12 => plain x (zf w 20 20) (.ldvs (fld w 19 16) (fld w 15 12) (fld w 11 10) (fld w 9 8) (fld w 7 5) (fld w 4 0))
  | 0x13 => plain x (zf w 20 20) (.stvs (fld w 19 16) (fld w 15 12) (fld w 11 10) (fld w 9 8) (fld w 7 5) (fld w 4 0))
  | 0x14 => plain x (zf w 20 20 && zf w 11 10 && zf w 4 4) (.gld (fld w 19 16) (fld w 15 12) (fld w 9 8) (fld w 7 5) (fld w 3 0))
  | 0x15 => plain x (zf w 20 20 && zf w 11 10 && zf w 4 4) (.gst (fld w 19 16) (fld w 15 12) (fld w 9 8) (fld w 7 5) (fld w 3 0))
  | 0x16 => plain x (zf w 20 19) (.ldk (fld w 18 16) (fld w 15 12) (fld w 11 10) (fld w 9 8) (fld w 7 0))
  | 0x17 => plain x (zf w 20 19) (.stk (fld w 18 16) (fld w 15 12) (fld w 11 10) (fld w 9 8) (fld w 7 0))
  | 0x20 => plain x (true) (.aadd (fld w 20 17) (fld w 16 13) (fld w 12 0))
  | 0x21 => extended 0 x (zf w 16 13) (.ali (fld w 20 17) (fld w 12 0))
  | 0x22 => plain x (zf w 2 0) (.afx (fld w 20 16) (fld w 15 12) (fld w 11 7) (fld w 6 3))
  | 0x23 => plain x (zf w 2 0) (.peer (fld w 20 16) (fld w 15 12) (fld w 11 7) (fld w 6 6) (fld w 5 5) (fld w 4 3))
  | 0x28 => extended 1 x (true) (.amo (fld w 20 16) (fld w 15 12) (fld w 11 7) (fld w 6 3) (fld w 2 2) (fld w 1 0))
  | 0x30 => plain x (zf w 6 0) (.rld (fld w 20 16) (fld w 15 12) (fld w 11 9) (fld w 8 7))
  | 0x31 => plain x (zf w 6 0) (.rst (fld w 20 16) (fld w 15 12) (fld w 11 9) (fld w 8 7))
  | 0x32 => extended 1 x (zf w 6 5) (.ramo (fld w 20 16) (fld w 15 12) (fld w 11 9) (fld w 8 7) (fld w 4 4) (fld w 3 0))
  | _ => .error .unassigned

/-- Class V (R90). -/
def decodeV (w : BitVec 32) (x : Option (BitVec 32)) : Except Reject Instr :=
  match (fld w 27 21).toNat with
  | 0x00 => plain x (zf w 2 0) (.vfadd (fld w 20 17) (fld w 16 13) (fld w 12 9) (fld w 8 6) (fld w 5 3))
  | 0x01 => plain x (zf w 2 0) (.vfsub (fld w 20 17) (fld w 16 13) (fld w 12 9) (fld w 8 6) (fld w 5 3))
  | 0x02 => plain x (zf w 2 0) (.vfmul (fld w 20 17) (fld w 16 13) (fld w 12 9) (fld w 8 6) (fld w 5 3))
  | 0x03 => plain x (zf w 2 0) (.vfma (fld w 20 17) (fld w 16 13) (fld w 12 9) (fld w 8 6) (fld w 5 3))
  | 0x04 => plain x (zf w 2 0) (.vfnma (fld w 20 17) (fld w 16 13) (fld w 12 9) (fld w 8 6) (fld w 5 3))
  | 0x05 => plain x (zf w 2 0) (.vfmin (fld w 20 17) (fld w 16 13) (fld w 12 9) (fld w 8 6) (fld w 5 3))
  | 0x06 => plain x (zf w 2 0) (.vfmax (fld w 20 17) (fld w 16 13) (fld w 12 9) (fld w 8 6) (fld w 5 3))
  | 0x07 => plain x (zf w 12 9 && zf w 2 0) (.vfabs (fld w 20 17) (fld w 16 13) (fld w 8 6) (fld w 5 3))
  | 0x08 => plain x (zf w 12 9 && zf w 2 0) (.vfneg (fld w 20 17) (fld w 16 13) (fld w 8 6) (fld w 5 3))
  | 0x09 => plain x (zf w 2 0) (.vfcps (fld w 20 17) (fld w 16 13) (fld w 12 9) (fld w 8 6) (fld w 5 3))
  | 0x0A => plain x (zf w 20 20 && zf w 5 3 && zf w 0 0) (.vfcmp (fld w 19 17) (fld w 16 13) (fld w 12 9) (fld w 8 6) (fld w 2 1))
  | 0x10 => plain x (zf w 12 9 && zf w 2 0) (.vfrcp (fld w 20 17) (fld w 16 13) (fld w 8 6) (fld w 5 3))
  | 0x11 => plain x (zf w 12 9 && zf w 2 0) (.vfrsq (fld w 20 17) (fld w 16 13) (fld w 8 6) (fld w 5 3))
  | 0x12 => plain x (zf w 12 9 && zf w 2 0) (.vfsqrt (fld w 20 17) (fld w 16 13) (fld w 8 6) (fld w 5 3))
  | 0x13 => plain x (zf w 2 0) (.vfdiv (fld w 20 17) (fld w 16 13) (fld w 12 9) (fld w 8 6) (fld w 5 3))
  | 0x14 => plain x (zf w 12 9 && zf w 2 0) (.vfexp2 (fld w 20 17) (fld w 16 13) (fld w 8 6) (fld w 5 3))
  | 0x15 => plain x (zf w 12 9 && zf w 2 0) (.vflog2 (fld w 20 17) (fld w 16 13) (fld w 8 6) (fld w 5 3))
  | 0x20 => plain x (zf w 2 2) (.vadd (fld w 20 17) (fld w 16 13) (fld w 12 9) (fld w 8 6) (fld w 5 3) (fld w 1 1) (fld w 0 0))
  | 0x21 => plain x (zf w 2 2) (.vsub (fld w 20 17) (fld w 16 13) (fld w 12 9) (fld w 8 6) (fld w 5 3) (fld w 1 1) (fld w 0 0))
  | 0x22 => plain x (zf w 2 2) (.vmul (fld w 20 17) (fld w 16 13) (fld w 12 9) (fld w 8 6) (fld w 5 3) (fld w 1 1) (fld w 0 0))
  | 0x23 => plain x (zf w 2 1) (.vmulh (fld w 20 17) (fld w 16 13) (fld w 12 9) (fld w 8 6) (fld w 5 3) (fld w 0 0))
  | 0x24 => plain x (zf w 2 2) (.vmadw (fld w 20 17) (fld w 16 13) (fld w 12 9) (fld w 8 6) (fld w 5 3) (fld w 1 1) (fld w 0 0))
  | 0x25 => plain x (zf w 2 1) (.vmin (fld w 20 17) (fld w 16 13) (fld w 12 9) (fld w 8 6) (fld w 5 3) (fld w 0 0))
  | 0x26 => plain x (zf w 2 1) (.vmax (fld w 20 17) (fld w 16 13) (fld w 12 9) (fld w 8 6) (fld w 5 3) (fld w 0 0))
  | 0x27 => plain x (zf w 5 0) (.vand (fld w 20 17) (fld w 16 13) (fld w 12 9) (fld w 8 6))
  | 0x28 => plain x (zf w 5 0) (.vor (fld w 20 17) (fld w 16 13) (fld w 12 9) (fld w 8 6))
  | 0x29 => plain x (zf w 5 0) (.vxor (fld w 20 17) (fld w 16 13) (fld w 12 9) (fld w 8 6))
  | 0x2A => plain x (zf w 2 0) (.vshl (fld w 20 17) (fld w 16 13) (fld w 12 9) (fld w 8 6) (fld w 5 3))
  | 0x2B => plain x (zf w 2 0) (.vshr (fld w 20 17) (fld w 16 13) (fld w 12 9) (fld w 8 6) (fld w 5 3))
  | 0x2C => plain x (zf w 2 0) (.vsar (fld w 20 17) (fld w 16 13) (fld w 12 9) (fld w 8 6) (fld w 5 3))
  | 0x2D => plain x (zf w 20 20 && fld w 5 3 == 3) (.vcmp (fld w 19 17) (fld w 16 13) (fld w 12 9) (fld w 8 6) (fld w 2 1) (fld w 0 0))
  | 0x2E => plain x (zf w 12 9 && zf w 2 2 && zf w 0 0) (.vabs (fld w 20 17) (fld w 16 13) (fld w 8 6) (fld w 5 3) (fld w 1 1))
  | 0x2F => plain x (zf w 2 2) (.vsat (fld w 20 17) (fld w 16 13) (fld w 12 9) (fld w 8 6) (fld w 5 3) (fld w 1 1) (fld w 0 0))
  | 0x40 => plain x (zf w 12 9 && zf w 5 0) (.vmov (fld w 20 17) (fld w 16 13) (fld w 8 6))
  | 0x41 => plain x (zf w 16 13) (.vfx (fld w 20 17) (fld w 12 8) (fld w 7 6) (fld w 5 0))
  | 0x42 => plain x (zf w 2 0) (.vperm (fld w 20 17) (fld w 16 13) (fld w 12 9) (fld w 8 6) (fld w 5 3))
  | 0x43 => plain x (true) (.vslide (fld w 20 17) (fld w 16 13) (fld w 12 9) (fld w 8 6) (fld w 5 3) (fld w 2 1) (fld w 0 0))
  | 0x44 => plain x (zf w 5 0) (.vsel (fld w 20 17) (fld w 16 13) (fld w 12 9) (fld w 8 6))
  | 0x45 => plain x (zf w 2 1) (.vpack (fld w 20 17) (fld w 16 13) (fld w 12 9) (fld w 8 6) (fld w 5 3) (fld w 0 0))
  | 0x46 => plain x (zf w 12 9 && zf w 2 2) (.vunpk (fld w 20 17) (fld w 16 13) (fld w 8 6) (fld w 5 3) (fld w 1 1) (fld w 0 0))
  | 0x47 => plain x (true) (.vcvt (fld w 20 17) (fld w 16 13) (fld w 12 12) (fld w 11 9) (fld w 8 6) (fld w 5 3) (fld w 2 1) (fld w 0 0))
  | 0x48 => plain x (true) (.vqnt (fld w 20 17) (fld w 16 13) (fld w 12 9) (fld w 8 6) (fld w 5 3) (fld w 2 1) (fld w 0 0))
  | 0x49 => plain x (true) (.vdqnt (fld w 20 17) (fld w 16 13) (fld w 12 9) (fld w 8 6) (fld w 5 3) (fld w 2 1) (fld w 0 0))
  | 0x4A => plain x (zf w 12 9) (.vred (fld w 20 17) (fld w 16 13) (fld w 8 6) (fld w 5 3) (fld w 2 1) (fld w 0 0))
  | 0x4B => plain x (zf w 12 9) (.vscan (fld w 20 17) (fld w 16 13) (fld w 8 6) (fld w 5 3) (fld w 2 1) (fld w 0 0))
  | 0x4C => plain x (true) (.vkey (fld w 20 17) (fld w 16 13) (fld w 12 9) (fld w 8 6) (fld w 5 3) (fld w 2 2) (fld w 1 1) (fld w 0 0))
  | 0x50 => plain x (zf w 20 20 && zf w 16 16 && zf w 12 12 && zf w 8 3) (.kop (fld w 19 17) (fld w 15 13) (fld w 11 9) (fld w 2 0))
  | 0x51 => plain x (zf w 16 16 && zf w 12 1) (.kpop (fld w 20 17) (fld w 15 13) (fld w 0 0))
  | 0x52 => plain x (zf w 20 20 && zf w 16 16 && zf w 12 3) (.kfirst (fld w 19 17) (fld w 15 13) (fld w 2 0))
  | 0x53 => plain x (zf w 20 20 && zf w 8 1) (.kset (fld w 19 17) (fld w 16 9) (fld w 0 0))
  | 0x60 => plain x (true) (.vmm (fld w 20 17) (fld w 16 13) (fld w 12 9) (fld w 8 6) (fld w 5 3) (fld w 2 0))
  | 0x70 => plain x (zf w 9 9 && zf w 5 5) (.vshlImm (fld w 20 17) (fld w 16 13) (fld w 12 10) (fld w 8 6) (fld w 4 0))
  | 0x71 => plain x (zf w 9 9 && zf w 5 5) (.vshrImm (fld w 20 17) (fld w 16 13) (fld w 12 10) (fld w 8 6) (fld w 4 0))
  | 0x72 => plain x (zf w 9 9 && zf w 5 5) (.vsarImm (fld w 20 17) (fld w 16 13) (fld w 12 10) (fld w 8 6) (fld w 4 0))
  | 0x73 => plain x (true) (.vslideImm (fld w 20 17) (fld w 16 13) (fld w 12 10) (fld w 9 9) (fld w 8 0))
  | 0x74 => plain x (zf w 16 13) (.vmovImm (fld w 20 17) (fld w 12 12) (fld w 11 0))
  | _ => .error .unassigned

/-- Class M (R91). -/
def decodeM (w : BitVec 32) (x : Option (BitVec 32)) : Except Reject Instr :=
  match (fld w 27 21).toNat with
  | 0x00 => plain x (true) (.qset (fld w 20 18) (fld w 17 13) (fld w 12 8) (fld w 7 0))
  | 0x01 => plain x (zf w 12 8) (.qld (fld w 20 18) (fld w 17 13) (fld w 7 0))
  | 0x02 => plain x (zf w 12 8) (.qst (fld w 20 18) (fld w 17 13) (fld w 7 0))
  | 0x03 =>
    match (fld w 0 0).toNat with
    | 0 => plain x (zf w 20 0) .mown
    | 1 => plain x (fld w 20 0 == 1) .mownRel
    | _ => .error .field
  | 0x10 => plain x (true) (.mmul (fld w 20 18) (fld w 17 15) (fld w 14 11) (fld w 10 8) (fld w 7 0))
  | 0x11 => plain x (true) (.mmuls (fld w 20 18) (fld w 17 15) (fld w 14 11) (fld w 10 8) (fld w 7 0))
  | 0x12 => plain x (true) (.mmrot (fld w 20 18) (fld w 17 15) (fld w 14 11) (fld w 10 8) (fld w 7 0))
  | 0x13 => plain x (zf w 20 15 && zf w 7 0) (.mzero (fld w 14 11) (fld w 10 8))
  | 0x14 => plain x (zf w 7 0) (.mdrn (fld w 20 18) (fld w 17 15) (fld w 14 11) (fld w 10 8))
  | 0x15 => plain x (zf w 7 0) (.mldc (fld w 20 18) (fld w 17 15) (fld w 14 11) (fld w 10 8))
  | 0x20 => plain x (zf w 20 18) (.pwin (fld w 17 14) (fld w 13 13) (fld w 12 11) (fld w 10 8) (fld w 7 0))
  | 0x21 => plain x (zf w 13 11 && zf w 7 1) (.pldw (fld w 20 18) (fld w 17 14) (fld w 10 8) (fld w 0 0))
  | 0x22 => plain x (zf w 13 11 && zf w 7 0) (.plaunch (fld w 20 18) (fld w 17 14) (fld w 10 8))
  | 0x23 =>
    match (fld w 0 0).toNat with
    | 0 => plain x (zf w 13 11 && zf w 7 0) (.pcap (fld w 20 18) (fld w 17 14) (fld w 10 8))
    | 1 => plain x (zf w 17 11 && fld w 7 0 == 1) (.pcapList (fld w 20 18) (fld w 10 8))
    | _ => .error .field
  | 0x24 => plain x (zf w 20 18 && zf w 13 11 && zf w 7 0) (.prst (fld w 17 14) (fld w 10 8))
  | _ => .error .unassigned

/-- Class N (R92). -/
def decodeN (w : BitVec 32) (x : Option (BitVec 32)) : Except Reject Instr :=
  match (fld w 27 21).toNat with
  | 0x00 => plain x (zf w 20 18 && zf w 11 0) (.send (fld w 17 15) (fld w 14 12))
  | 0x01 => plain x (zf w 17 15 && zf w 11 0) (.recv (fld w 20 18) (fld w 14 12))
  | 0x02 =>
    match (fld w 0 0).toNat with
    | 0 => plain x (zf w 20 15 && zf w 11 0) (.pbind (fld w 14 12))
    | 1 => plain x (zf w 20 15 && fld w 11 0 == 1) (.pbindRel (fld w 14 12))
    | _ => .error .field
  | 0x08 => plain x (zf w 4 0) (.efx (fld w 20 18) (fld w 17 13) (fld w 12 8) (fld w 7 5))
  | 0x10 => plain x (zf w 4 0) (.cpy (fld w 20 17) (fld w 16 13) (fld w 12 10) (fld w 9 7) (fld w 6 5))
  | 0x11 => plain x (true) (.cpyt (fld w 20 17) (fld w 16 13) (fld w 12 10) (fld w 9 7) (fld w 6 5) (fld w 4 4) (fld w 3 3) (fld w 2 0))
  | 0x12 => plain x (zf w 4 4) (.gath (fld w 20 17) (fld w 16 13) (fld w 12 10) (fld w 9 7) (fld w 6 5) (fld w 3 0))
  | 0x13 => plain x (zf w 4 4) (.scat (fld w 20 17) (fld w 16 13) (fld w 12 10) (fld w 9 7) (fld w 6 5) (fld w 3 0))
  | 0x18 => plain x (zf w 14 5) (.wait (fld w 20 18) (fld w 17 15) (fld w 4 4) (fld w 3 1) (fld w 0 0))
  | 0x19 => plain x (zf w 14 5 && zf w 0 0) (.test (fld w 20 18) (fld w 17 15) (fld w 4 4) (fld w 3 1))
  | 0x1A => plain x (zf w 17 5 && zf w 0 0) (.cancel (fld w 20 18) (fld w 4 4) (fld w 3 1))
  | 0x1B => plain x (zf w 17 8 && zf w 0 0) (.tlwait (fld w 20 18) (fld w 7 5) (fld w 4 4) (fld w 3 1))
  | 0x1C => plain x (zf w 17 13 && zf w 0 0) (.tlrd (fld w 20 18) (fld w 12 12) (fld w 11 8) (fld w 7 5) (fld w 4 4) (fld w 3 1))
  | 0x20 =>
    match (fld w 17 16).toNat with
    | 0 => plain x (zf w 17 0) (.fenceRel (fld w 20 18))
    | 1 => plain x (fld w 20 0 == 65536) .fenceAcq
    | 2 => plain x (fld w 17 0 == 131072) (.fenceSc (fld w 20 18))
    | _ => .error .field
  | 0x21 => plain x (zf w 16 13 && zf w 4 0) (.sig (fld w 20 17) (fld w 12 10) (fld w 9 7) (fld w 6 5))
  | 0x28 => plain x (true) (.spawn (fld w 20 17) (fld w 16 12) (fld w 11 8) (fld w 7 4) (fld w 3 1) (fld w 0 0))
  | 0x29 => plain x (zf w 17 9) (.fanout (fld w 20 18) (fld w 8 4) (fld w 3 0))
  | 0x2A => plain x (zf w 20 0) .trig
  | 0x2B =>
    match (fld w 0 0).toNat with
    | 0 => plain x (zf w 16 0) (.migr (fld w 20 17))
    | 1 => plain x (fld w 16 0 == 1) (.migrHome (fld w 20 17))
    | _ => .error .field
  | 0x2C => plain x (zf w 20 18 && zf w 14 0) (.yield (fld w 17 15))
  | 0x30 => plain x (zf w 16 10 && zf w 6 5 && zf w 0 0) (.coll (fld w 20 17) (fld w 9 7) (fld w 4 1))
  | 0x38 => plain x (zf w 20 18 && zf w 14 12 && zf w 8 0) (.handoff (fld w 17 15) (fld w 11 9))
  | 0x39 => plain x (zf w 17 5 && zf w 0 0) (.xlinv (fld w 20 18) (fld w 4 4) (fld w 3 1))
  | _ => .error .unassigned

/-- A syllable and the high-immediate or extra-operand X syllable that follows it, or an issue stamp. -/
def decodeWord (w : BitVec 32) (x : Option (BitVec 32)) : Except Reject Instr :=
  match (fld w 30 28).toNat with
  | 0 => decodeS w x
  | 1 => decodeA w x
  | 2 => decodeV w x
  | 3 => decodeM w x
  | 4 => decodeN w x
  | 5 => if (fld w 31 21).toNat = 0x2E0 then plain x true (.issueStamp (fld w 20 20) (fld w 19 0)) else .error .reservedClass
  | _ => .error .reservedClass

/-- Decoding of a list of words: one instruction, or the reason why they are none. -/
def decode : List (BitVec 32) → Except Reject Instr
  | [w] => decodeWord w none
  | [w, x] => decodeWord w (some x)
  | _ => .error .length

/-- The instruction, if the words are one. -/
def decode? (ws : List (BitVec 32)) : Option Instr :=
  match decode ws with
  | .ok i => some i
  | .error _ => none

/-- A word of 32 bits from its number: the sum of its fields, each at its place. -/
def word (n : Nat) : BitVec 32 := BitVec.ofNat 32 n

/-- A word followed by its X syllable of kind 00 or 01, if it has one (R67). -/
def withX (kind : Nat) (w : BitVec 32) (xx : Option (BitVec 26)) : List (BitVec 32) :=
  match xx with
  | none => [w]
  | some p => [w, word (0x50000000 + kind * 0x4000000 + p.toNat)]

/-- The words of a syllable, with B = 1 for classes 0 to 4. A step without an encoding has none. -/
def encode : Instr → List (BitVec 32)
  | .nop => [word 0x80000000]
  | .add d s t => [word (0x80200000 + d.toNat * 0x10000 + s.toNat * 0x800 + t.toNat * 0x40)]
  | .sub d s t => [word (0x80400000 + d.toNat * 0x10000 + s.toNat * 0x800 + t.toNat * 0x40)]
  | .mul d s t => [word (0x80600000 + d.toNat * 0x10000 + s.toNat * 0x800 + t.toNat * 0x40)]
  | .mulh d s t => [word (0x80800000 + d.toNat * 0x10000 + s.toNat * 0x800 + t.toNat * 0x40)]
  | .mulhb d s t => [word (0x80A00000 + d.toNat * 0x10000 + s.toNat * 0x800 + t.toNat * 0x40)]
  | .div d s t => [word (0x80C00000 + d.toNat * 0x10000 + s.toNat * 0x800 + t.toNat * 0x40)]
  | .divb d s t => [word (0x80E00000 + d.toNat * 0x10000 + s.toNat * 0x800 + t.toNat * 0x40)]
  | .rem d s t => [word (0x81000000 + d.toNat * 0x10000 + s.toNat * 0x800 + t.toNat * 0x40)]
  | .remb d s t => [word (0x81200000 + d.toNat * 0x10000 + s.toNat * 0x800 + t.toNat * 0x40)]
  | .and d s t => [word (0x81400000 + d.toNat * 0x10000 + s.toNat * 0x800 + t.toNat * 0x40)]
  | .or d s t => [word (0x81600000 + d.toNat * 0x10000 + s.toNat * 0x800 + t.toNat * 0x40)]
  | .xor d s t => [word (0x81800000 + d.toNat * 0x10000 + s.toNat * 0x800 + t.toNat * 0x40)]
  | .andn d s t => [word (0x81A00000 + d.toNat * 0x10000 + s.toNat * 0x800 + t.toNat * 0x40)]
  | .shl d s t => [word (0x81C00000 + d.toNat * 0x10000 + s.toNat * 0x800 + t.toNat * 0x40)]
  | .shr d s t => [word (0x81E00000 + d.toNat * 0x10000 + s.toNat * 0x800 + t.toNat * 0x40)]
  | .sar d s t => [word (0x82000000 + d.toNat * 0x10000 + s.toNat * 0x800 + t.toNat * 0x40)]
  | .rol d s t => [word (0x82200000 + d.toNat * 0x10000 + s.toNat * 0x800 + t.toNat * 0x40)]
  | .min d s t => [word (0x82400000 + d.toNat * 0x10000 + s.toNat * 0x800 + t.toNat * 0x40)]
  | .max d s t => [word (0x82600000 + d.toNat * 0x10000 + s.toNat * 0x800 + t.toNat * 0x40)]
  | .minb d s t => [word (0x82800000 + d.toNat * 0x10000 + s.toNat * 0x800 + t.toNat * 0x40)]
  | .maxb d s t => [word (0x82A00000 + d.toNat * 0x10000 + s.toNat * 0x800 + t.toNat * 0x40)]
  | .addImm d s i => [word (0x84200000 + d.toNat * 0x10000 + s.toNat * 0x800 + i.toNat)]
  | .subImm d s i => [word (0x84400000 + d.toNat * 0x10000 + s.toNat * 0x800 + i.toNat)]
  | .mulImm d s i => [word (0x84600000 + d.toNat * 0x10000 + s.toNat * 0x800 + i.toNat)]
  | .mulhImm d s i => [word (0x84800000 + d.toNat * 0x10000 + s.toNat * 0x800 + i.toNat)]
  | .mulhbImm d s i => [word (0x84A00000 + d.toNat * 0x10000 + s.toNat * 0x800 + i.toNat)]
  | .divImm d s i => [word (0x84C00000 + d.toNat * 0x10000 + s.toNat * 0x800 + i.toNat)]
  | .divbImm d s i => [word (0x84E00000 + d.toNat * 0x10000 + s.toNat * 0x800 + i.toNat)]
  | .remImm d s i => [word (0x85000000 + d.toNat * 0x10000 + s.toNat * 0x800 + i.toNat)]
  | .rembImm d s i => [word (0x85200000 + d.toNat * 0x10000 + s.toNat * 0x800 + i.toNat)]
  | .andImm d s i => [word (0x85400000 + d.toNat * 0x10000 + s.toNat * 0x800 + i.toNat)]
  | .orImm d s i => [word (0x85600000 + d.toNat * 0x10000 + s.toNat * 0x800 + i.toNat)]
  | .xorImm d s i => [word (0x85800000 + d.toNat * 0x10000 + s.toNat * 0x800 + i.toNat)]
  | .andnImm d s i => [word (0x85A00000 + d.toNat * 0x10000 + s.toNat * 0x800 + i.toNat)]
  | .shlImm d s i => [word (0x85C00000 + d.toNat * 0x10000 + s.toNat * 0x800 + i.toNat)]
  | .shrImm d s i => [word (0x85E00000 + d.toNat * 0x10000 + s.toNat * 0x800 + i.toNat)]
  | .sarImm d s i => [word (0x86000000 + d.toNat * 0x10000 + s.toNat * 0x800 + i.toNat)]
  | .rolImm d s i => [word (0x86200000 + d.toNat * 0x10000 + s.toNat * 0x800 + i.toNat)]
  | .minImm d s i => [word (0x86400000 + d.toNat * 0x10000 + s.toNat * 0x800 + i.toNat)]
  | .maxImm d s i => [word (0x86600000 + d.toNat * 0x10000 + s.toNat * 0x800 + i.toNat)]
  | .minbImm d s i => [word (0x86800000 + d.toNat * 0x10000 + s.toNat * 0x800 + i.toNat)]
  | .maxbImm d s i => [word (0x86A00000 + d.toNat * 0x10000 + s.toNat * 0x800 + i.toNat)]
  | .clz d s => [word (0x82C00000 + d.toNat * 0x10000 + s.toNat * 0x800)]
  | .ctz d s => [word (0x82E00000 + d.toNat * 0x10000 + s.toNat * 0x800)]
  | .popc d s => [word (0x83000000 + d.toNat * 0x10000 + s.toNat * 0x800)]
  | .brev d s => [word (0x83200000 + d.toNat * 0x10000 + s.toNat * 0x800)]
  | .sext d s w => [word (0x83400000 + d.toNat * 0x10000 + s.toNat * 0x800 + w.toNat)]
  | .ext d s t w => [word (0x83600000 + d.toNat * 0x10000 + s.toNat * 0x800 + t.toNat * 0x40 + w.toNat)]
  | .ins d s t w => [word (0x83800000 + d.toNat * 0x10000 + s.toNat * 0x800 + t.toNat * 0x40 + w.toNat)]
  | .sel d s t n c => [word (0x83A00000 + d.toNat * 0x10000 + s.toNat * 0x800 + t.toNat * 0x40 + n.toNat * 0x10 + c.toNat)]
  | .li d i xx => withX 0 (word (0x87000000 + d.toNat * 0x10000 + i.toNat)) xx
  | .cmp c k s t i => [word (0x87400000 + c.toNat * 0x40000 + k.toNat * 0x8000 + s.toNat * 0x400 + t.toNat * 0x20 + i.toNat)]
  | .clog d o n a m c => [word (0x87600000 + d.toNat * 0x40000 + o.toNat * 0x8000 + n.toNat * 0x4000 + a.toNat * 0x400 + m.toNat * 0x200 + c.toNat * 0x20)]
  | .br c n i => [word (0x88000000 + c.toNat * 0x20000 + n.toNat * 0x10000 + i.toNat)]
  | .jmp i xx => withX 0 (word (0x88200000 + i.toNat)) xx
  | .call i xx => withX 0 (word (0x88600000 + i.toNat)) xx
  | .jmpr s => [word (0x88400000 + s.toNat * 0x800)]
  | .ret => [word 0x88800000]
  | .loop n s i => [word (0x88A00000 + n.toNat * 0x10000 + s.toNat * 0x800 + i.toNat)]
  | .bar l => [word (0x88C00000 + l.toNat)]
  | .exit l => [word (0x88E00000 + l.toNat)]
  | .trap n => [word (0x89000000 + n.toNat)]
  | .brk n => [word (0x89400000 + n.toNat)]
  | .rte => [word 0x89200000]
  | .sysr x r h => [word (0x8A000000 + x.toNat * 0x10000 + r.toNat * 0x40 + h.toNat)]
  | .sysw x r h => [word (0x8A200000 + x.toNat * 0x10000 + r.toNat * 0x40 + h.toNat)]
  | .frame l => [word (0x8A400000 + l.toNat)]
  | .xfa d a h => [word (0x8B000000 + d.toNat * 0x10000 + a.toNat * 0x800 + h.toNat)]
  | .xfe d e h => [word (0x8B400000 + d.toNat * 0x10000 + e.toNat * 0x800 + h.toNat)]
  | .xfv d v k e l => [word (0x8B200000 + d.toNat * 0x10000 + v.toNat * 0x800 + k.toNat * 0x100 + e.toNat * 0x40 + l.toNat)]
  | .ldB d a m s o => [word (0x90000000 + d.toNat * 0x10000 + a.toNat * 0x1000 + m.toNat * 0x400 + s.toNat * 0x100 + o.toNat)]
  | .ldH d a m s o => [word (0x90200000 + d.toNat * 0x10000 + a.toNat * 0x1000 + m.toNat * 0x400 + s.toNat * 0x100 + o.toNat)]
  | .ldW d a m s o => [word (0x90400000 + d.toNat * 0x10000 + a.toNat * 0x1000 + m.toNat * 0x400 + s.toNat * 0x100 + o.toNat)]
  | .ldD d a m s o => [word (0x90600000 + d.toNat * 0x10000 + a.toNat * 0x1000 + m.toNat * 0x400 + s.toNat * 0x100 + o.toNat)]
  | .ldzB d a m s o => [word (0x90800000 + d.toNat * 0x10000 + a.toNat * 0x1000 + m.toNat * 0x400 + s.toNat * 0x100 + o.toNat)]
  | .ldzH d a m s o => [word (0x90A00000 + d.toNat * 0x10000 + a.toNat * 0x1000 + m.toNat * 0x400 + s.toNat * 0x100 + o.toNat)]
  | .ldzW d a m s o => [word (0x90C00000 + d.toNat * 0x10000 + a.toNat * 0x1000 + m.toNat * 0x400 + s.toNat * 0x100 + o.toNat)]
  | .stB d a m s o => [word (0x91000000 + d.toNat * 0x10000 + a.toNat * 0x1000 + m.toNat * 0x400 + s.toNat * 0x100 + o.toNat)]
  | .stH d a m s o => [word (0x91200000 + d.toNat * 0x10000 + a.toNat * 0x1000 + m.toNat * 0x400 + s.toNat * 0x100 + o.toNat)]
  | .stW d a m s o => [word (0x91400000 + d.toNat * 0x10000 + a.toNat * 0x1000 + m.toNat * 0x400 + s.toNat * 0x100 + o.toNat)]
  | .stD d a m s o => [word (0x91600000 + d.toNat * 0x10000 + a.toNat * 0x1000 + m.toNat * 0x400 + s.toNat * 0x100 + o.toNat)]
  | .ldv d a m s o => [word (0x92000000 + d.toNat * 0x10000 + a.toNat * 0x1000 + m.toNat * 0x400 + s.toNat * 0x100 + o.toNat)]
  | .stv d a m s o => [word (0x92200000 + d.toNat * 0x10000 + a.toNat * 0x1000 + m.toNat * 0x400 + s.toNat * 0x100 + o.toNat)]
  | .ldvs v a m s k x => [word (0x92400000 + v.toNat * 0x10000 + a.toNat * 0x1000 + m.toNat * 0x400 + s.toNat * 0x100 + k.toNat * 0x20 + x.toNat)]
  | .stvs v a m s k x => [word (0x92600000 + v.toNat * 0x10000 + a.toNat * 0x1000 + m.toNat * 0x400 + s.toNat * 0x100 + k.toNat * 0x20 + x.toNat)]
  | .gld v a s k i => [word (0x92800000 + v.toNat * 0x10000 + a.toNat * 0x1000 + s.toNat * 0x100 + k.toNat * 0x20 + i.toNat)]
  | .gst v a s k i => [word (0x92A00000 + v.toNat * 0x10000 + a.toNat * 0x1000 + s.toNat * 0x100 + k.toNat * 0x20 + i.toNat)]
  | .ldk k a m s o => [word (0x92C00000 + k.toNat * 0x10000 + a.toNat * 0x1000 + m.toNat * 0x400 + s.toNat * 0x100 + o.toNat)]
  | .stk k a m s o => [word (0x92E00000 + k.toNat * 0x10000 + a.toNat * 0x1000 + m.toNat * 0x400 + s.toNat * 0x100 + o.toNat)]
  | .aadd d s i => [word (0x94000000 + d.toNat * 0x20000 + s.toNat * 0x2000 + i.toNat)]
  | .ali d i xx => withX 0 (word (0x94200000 + d.toNat * 0x20000 + i.toNat)) xx
  | .afx h a l o => [word (0x94400000 + h.toNat * 0x10000 + a.toNat * 0x1000 + l.toNat * 0x80 + o.toNat * 0x8)]
  | .peer d a c x y q => [word (0x94600000 + d.toNat * 0x10000 + a.toNat * 0x1000 + c.toNat * 0x80 + x.toNat * 0x40 + y.toNat * 0x20 + q.toNat * 0x8)]
  | .amo d a s o z p xx => withX 1 (word (0x95000000 + d.toNat * 0x10000 + a.toNat * 0x1000 + s.toNat * 0x80 + o.toNat * 0x8 + z.toNat * 0x4 + p.toNat)) xx
  | .rld d a h z => [word (0x96000000 + d.toNat * 0x10000 + a.toNat * 0x1000 + h.toNat * 0x200 + z.toNat * 0x80)]
  | .rst d a h z => [word (0x96200000 + d.toNat * 0x10000 + a.toNat * 0x1000 + h.toNat * 0x200 + z.toNat * 0x80)]
  | .ramo d a h z n o xx => withX 1 (word (0x96400000 + d.toNat * 0x10000 + a.toNat * 0x1000 + h.toNat * 0x200 + z.toNat * 0x80 + n.toNat * 0x10 + o.toNat)) xx
  | .vfadd d s t k y => [word (0xA0000000 + d.toNat * 0x20000 + s.toNat * 0x2000 + t.toNat * 0x200 + k.toNat * 0x40 + y.toNat * 0x8)]
  | .vfsub d s t k y => [word (0xA0200000 + d.toNat * 0x20000 + s.toNat * 0x2000 + t.toNat * 0x200 + k.toNat * 0x40 + y.toNat * 0x8)]
  | .vfmul d s t k y => [word (0xA0400000 + d.toNat * 0x20000 + s.toNat * 0x2000 + t.toNat * 0x200 + k.toNat * 0x40 + y.toNat * 0x8)]
  | .vfma d s t k y => [word (0xA0600000 + d.toNat * 0x20000 + s.toNat * 0x2000 + t.toNat * 0x200 + k.toNat * 0x40 + y.toNat * 0x8)]
  | .vfnma d s t k y => [word (0xA0800000 + d.toNat * 0x20000 + s.toNat * 0x2000 + t.toNat * 0x200 + k.toNat * 0x40 + y.toNat * 0x8)]
  | .vfmin d s t k y => [word (0xA0A00000 + d.toNat * 0x20000 + s.toNat * 0x2000 + t.toNat * 0x200 + k.toNat * 0x40 + y.toNat * 0x8)]
  | .vfmax d s t k y => [word (0xA0C00000 + d.toNat * 0x20000 + s.toNat * 0x2000 + t.toNat * 0x200 + k.toNat * 0x40 + y.toNat * 0x8)]
  | .vfabs d s k y => [word (0xA0E00000 + d.toNat * 0x20000 + s.toNat * 0x2000 + k.toNat * 0x40 + y.toNat * 0x8)]
  | .vfneg d s k y => [word (0xA1000000 + d.toNat * 0x20000 + s.toNat * 0x2000 + k.toNat * 0x40 + y.toNat * 0x8)]
  | .vfcps d s t k y => [word (0xA1200000 + d.toNat * 0x20000 + s.toNat * 0x2000 + t.toNat * 0x200 + k.toNat * 0x40 + y.toNat * 0x8)]
  | .vfcmp d s t k n => [word (0xA1400000 + d.toNat * 0x20000 + s.toNat * 0x2000 + t.toNat * 0x200 + k.toNat * 0x40 + n.toNat * 0x2)]
  | .vfrcp d s k y => [word (0xA2000000 + d.toNat * 0x20000 + s.toNat * 0x2000 + k.toNat * 0x40 + y.toNat * 0x8)]
  | .vfrsq d s k y => [word (0xA2200000 + d.toNat * 0x20000 + s.toNat * 0x2000 + k.toNat * 0x40 + y.toNat * 0x8)]
  | .vfsqrt d s k y => [word (0xA2400000 + d.toNat * 0x20000 + s.toNat * 0x2000 + k.toNat * 0x40 + y.toNat * 0x8)]
  | .vfdiv d s t k y => [word (0xA2600000 + d.toNat * 0x20000 + s.toNat * 0x2000 + t.toNat * 0x200 + k.toNat * 0x40 + y.toNat * 0x8)]
  | .vfexp2 d s k y => [word (0xA2800000 + d.toNat * 0x20000 + s.toNat * 0x2000 + k.toNat * 0x40 + y.toNat * 0x8)]
  | .vflog2 d s k y => [word (0xA2A00000 + d.toNat * 0x20000 + s.toNat * 0x2000 + k.toNat * 0x40 + y.toNat * 0x8)]
  | .vadd d s t k y q u => [word (0xA4000000 + d.toNat * 0x20000 + s.toNat * 0x2000 + t.toNat * 0x200 + k.toNat * 0x40 + y.toNat * 0x8 + q.toNat * 0x2 + u.toNat)]
  | .vsub d s t k y q u => [word (0xA4200000 + d.toNat * 0x20000 + s.toNat * 0x2000 + t.toNat * 0x200 + k.toNat * 0x40 + y.toNat * 0x8 + q.toNat * 0x2 + u.toNat)]
  | .vmul d s t k y q u => [word (0xA4400000 + d.toNat * 0x20000 + s.toNat * 0x2000 + t.toNat * 0x200 + k.toNat * 0x40 + y.toNat * 0x8 + q.toNat * 0x2 + u.toNat)]
  | .vmulh d s t k y u => [word (0xA4600000 + d.toNat * 0x20000 + s.toNat * 0x2000 + t.toNat * 0x200 + k.toNat * 0x40 + y.toNat * 0x8 + u.toNat)]
  | .vmadw d s t k y q u => [word (0xA4800000 + d.toNat * 0x20000 + s.toNat * 0x2000 + t.toNat * 0x200 + k.toNat * 0x40 + y.toNat * 0x8 + q.toNat * 0x2 + u.toNat)]
  | .vmin d s t k y u => [word (0xA4A00000 + d.toNat * 0x20000 + s.toNat * 0x2000 + t.toNat * 0x200 + k.toNat * 0x40 + y.toNat * 0x8 + u.toNat)]
  | .vmax d s t k y u => [word (0xA4C00000 + d.toNat * 0x20000 + s.toNat * 0x2000 + t.toNat * 0x200 + k.toNat * 0x40 + y.toNat * 0x8 + u.toNat)]
  | .vand d s t k => [word (0xA4E00000 + d.toNat * 0x20000 + s.toNat * 0x2000 + t.toNat * 0x200 + k.toNat * 0x40)]
  | .vor d s t k => [word (0xA5000000 + d.toNat * 0x20000 + s.toNat * 0x2000 + t.toNat * 0x200 + k.toNat * 0x40)]
  | .vxor d s t k => [word (0xA5200000 + d.toNat * 0x20000 + s.toNat * 0x2000 + t.toNat * 0x200 + k.toNat * 0x40)]
  | .vshl d s t k y => [word (0xA5400000 + d.toNat * 0x20000 + s.toNat * 0x2000 + t.toNat * 0x200 + k.toNat * 0x40 + y.toNat * 0x8)]
  | .vshr d s t k y => [word (0xA5600000 + d.toNat * 0x20000 + s.toNat * 0x2000 + t.toNat * 0x200 + k.toNat * 0x40 + y.toNat * 0x8)]
  | .vsar d s t k y => [word (0xA5800000 + d.toNat * 0x20000 + s.toNat * 0x2000 + t.toNat * 0x200 + k.toNat * 0x40 + y.toNat * 0x8)]
  | .vcmp d s t k n u => [word (0xA5A00018 + d.toNat * 0x20000 + s.toNat * 0x2000 + t.toNat * 0x200 + k.toNat * 0x40 + n.toNat * 0x2 + u.toNat)]
  | .vabs d s k y q => [word (0xA5C00000 + d.toNat * 0x20000 + s.toNat * 0x2000 + k.toNat * 0x40 + y.toNat * 0x8 + q.toNat * 0x2)]
  | .vsat d s t k y r u => [word (0xA5E00000 + d.toNat * 0x20000 + s.toNat * 0x2000 + t.toNat * 0x200 + k.toNat * 0x40 + y.toNat * 0x8 + r.toNat * 0x2 + u.toNat)]
  | .vmov d s k => [word (0xA8000000 + d.toNat * 0x20000 + s.toNat * 0x2000 + k.toNat * 0x40)]
  | .vfx d x n l => [word (0xA8200000 + d.toNat * 0x20000 + x.toNat * 0x100 + n.toNat * 0x40 + l.toNat)]
  | .vperm d s t k y => [word (0xA8400000 + d.toNat * 0x20000 + s.toNat * 0x2000 + t.toNat * 0x200 + k.toNat * 0x40 + y.toNat * 0x8)]
  | .vslide d s t k y m p => [word (0xA8600000 + d.toNat * 0x20000 + s.toNat * 0x2000 + t.toNat * 0x200 + k.toNat * 0x40 + y.toNat * 0x8 + m.toNat * 0x2 + p.toNat)]
  | .vsel d s t k => [word (0xA8800000 + d.toNat * 0x20000 + s.toNat * 0x2000 + t.toNat * 0x200 + k.toNat * 0x40)]
  | .vpack d s t k y u => [word (0xA8A00000 + d.toNat * 0x20000 + s.toNat * 0x2000 + t.toNat * 0x200 + k.toNat * 0x40 + y.toNat * 0x8 + u.toNat)]
  | .vunpk d s k y h u => [word (0xA8C00000 + d.toNat * 0x20000 + s.toNat * 0x2000 + k.toNat * 0x40 + y.toNat * 0x8 + h.toNat * 0x2 + u.toNat)]
  | .vcvt d s c g k y p z => [word (0xA8E00000 + d.toNat * 0x20000 + s.toNat * 0x2000 + c.toNat * 0x1000 + g.toNat * 0x200 + k.toNat * 0x40 + y.toNat * 0x8 + p.toNat * 0x2 + z.toNat)]
  | .vqnt d s t k y p u => [word (0xA9000000 + d.toNat * 0x20000 + s.toNat * 0x2000 + t.toNat * 0x200 + k.toNat * 0x40 + y.toNat * 0x8 + p.toNat * 0x2 + u.toNat)]
  | .vdqnt d s t k y p u => [word (0xA9200000 + d.toNat * 0x20000 + s.toNat * 0x2000 + t.toNat * 0x200 + k.toNat * 0x40 + y.toNat * 0x8 + p.toNat * 0x2 + u.toNat)]
  | .vred d s k y o u => [word (0xA9400000 + d.toNat * 0x20000 + s.toNat * 0x2000 + k.toNat * 0x40 + y.toNat * 0x8 + o.toNat * 0x2 + u.toNat)]
  | .vscan d s k y o u => [word (0xA9600000 + d.toNat * 0x20000 + s.toNat * 0x2000 + k.toNat * 0x40 + y.toNat * 0x8 + o.toNat * 0x2 + u.toNat)]
  | .vkey d s t k y p n r => [word (0xA9800000 + d.toNat * 0x20000 + s.toNat * 0x2000 + t.toNat * 0x200 + k.toNat * 0x40 + y.toNat * 0x8 + p.toNat * 0x4 + n.toNat * 0x2 + r.toNat)]
  | .kop d a c o => [word (0xAA000000 + d.toNat * 0x20000 + a.toNat * 0x2000 + c.toNat * 0x200 + o.toNat)]
  | .kpop d a p => [word (0xAA200000 + d.toNat * 0x20000 + a.toNat * 0x2000 + p.toNat)]
  | .kfirst d a m => [word (0xAA400000 + d.toNat * 0x20000 + a.toNat * 0x2000 + m.toNat)]
  | .kset d n i => [word (0xAA600000 + d.toNat * 0x20000 + n.toNat * 0x200 + i.toNat)]
  | .vmm d s t k y o => [word (0xAC000000 + d.toNat * 0x20000 + s.toNat * 0x2000 + t.toNat * 0x200 + k.toNat * 0x40 + y.toNat * 0x8 + o.toNat)]
  | .vshlImm d s y k c => [word (0xAE000000 + d.toNat * 0x20000 + s.toNat * 0x2000 + y.toNat * 0x400 + k.toNat * 0x40 + c.toNat)]
  | .vshrImm d s y k c => [word (0xAE200000 + d.toNat * 0x20000 + s.toNat * 0x2000 + y.toNat * 0x400 + k.toNat * 0x40 + c.toNat)]
  | .vsarImm d s y k c => [word (0xAE400000 + d.toNat * 0x20000 + s.toNat * 0x2000 + y.toNat * 0x400 + k.toNat * 0x40 + c.toNat)]
  | .vslideImm d s y u n => [word (0xAE600000 + d.toNat * 0x20000 + s.toNat * 0x2000 + y.toNat * 0x400 + u.toNat * 0x200 + n.toNat)]
  | .vmovImm d i n => [word (0xAE800000 + d.toNat * 0x20000 + i.toNat * 0x1000 + n.toNat)]
  | .qset q x f n => [word (0xB0000000 + q.toNat * 0x40000 + x.toNat * 0x2000 + f.toNat * 0x100 + n.toNat)]
  | .qld q x n => [word (0xB0200000 + q.toNat * 0x40000 + x.toNat * 0x2000 + n.toNat)]
  | .qst q x n => [word (0xB0400000 + q.toNat * 0x40000 + x.toNat * 0x2000 + n.toNat)]
  | .mown => [word 0xB0600000]
  | .mownRel => [word 0xB0600001]
  | .mmul a c t h k => [word (0xB2000000 + a.toNat * 0x40000 + c.toNat * 0x8000 + t.toNat * 0x800 + h.toNat * 0x100 + k.toNat)]
  | .mmuls a c t h k => [word (0xB2200000 + a.toNat * 0x40000 + c.toNat * 0x8000 + t.toNat * 0x800 + h.toNat * 0x100 + k.toNat)]
  | .mmrot a c t h k => [word (0xB2400000 + a.toNat * 0x40000 + c.toNat * 0x8000 + t.toNat * 0x800 + h.toNat * 0x100 + k.toNat)]
  | .mzero t h => [word (0xB2600000 + t.toNat * 0x800 + h.toNat * 0x100)]
  | .mdrn a o t h => [word (0xB2800000 + a.toNat * 0x40000 + o.toNat * 0x8000 + t.toNat * 0x800 + h.toNat * 0x100)]
  | .mldc a o t h => [word (0xB2A00000 + a.toNat * 0x40000 + o.toNat * 0x8000 + t.toNat * 0x800 + h.toNat * 0x100)]
  | .pwin k x o h w => [word (0xB4000000 + k.toNat * 0x4000 + x.toNat * 0x2000 + o.toNat * 0x800 + h.toNat * 0x100 + w.toNat)]
  | .pldw q m h x => [word (0xB4200000 + q.toNat * 0x40000 + m.toNat * 0x4000 + h.toNat * 0x100 + x.toNat)]
  | .plaunch q m h => [word (0xB4400000 + q.toNat * 0x40000 + m.toNat * 0x4000 + h.toNat * 0x100)]
  | .pcap q m h => [word (0xB4600000 + q.toNat * 0x40000 + m.toNat * 0x4000 + h.toNat * 0x100)]
  | .pcapList q h => [word (0xB4600001 + q.toNat * 0x40000 + h.toNat * 0x100)]
  | .prst m h => [word (0xB4800000 + m.toNat * 0x4000 + h.toNat * 0x100)]
  | .send s p => [word (0xC0000000 + s.toNat * 0x8000 + p.toNat * 0x1000)]
  | .recv d p => [word (0xC0200000 + d.toNat * 0x40000 + p.toNat * 0x1000)]
  | .pbind p => [word (0xC0400000 + p.toNat * 0x1000)]
  | .pbindRel p => [word (0xC0400001 + p.toNat * 0x1000)]
  | .efx d h l o => [word (0xC1000000 + d.toNat * 0x40000 + h.toNat * 0x2000 + l.toNat * 0x100 + o.toNat * 0x20)]
  | .cpy d s e h c => [word (0xC2000000 + d.toNat * 0x20000 + s.toNat * 0x2000 + e.toNat * 0x400 + h.toNat * 0x80 + c.toNat * 0x20)]
  | .cpyt d s e h c v r q => [word (0xC2200000 + d.toNat * 0x20000 + s.toNat * 0x2000 + e.toNat * 0x400 + h.toNat * 0x80 + c.toNat * 0x20 + v.toNat * 0x10 + r.toNat * 0x8 + q.toNat)]
  | .gath d s e h c i => [word (0xC2400000 + d.toNat * 0x20000 + s.toNat * 0x2000 + e.toNat * 0x400 + h.toNat * 0x80 + c.toNat * 0x20 + i.toNat)]
  | .scat d s e h c i => [word (0xC2600000 + d.toNat * 0x20000 + s.toNat * 0x2000 + e.toNat * 0x400 + h.toNat * 0x80 + c.toNat * 0x20 + i.toNat)]
  | .sig d e h c => [word (0xC4200000 + d.toNat * 0x20000 + e.toNat * 0x400 + h.toNat * 0x80 + c.toNat * 0x20)]
  | .wait h c a e q => [word (0xC3000000 + h.toNat * 0x40000 + c.toNat * 0x8000 + a.toNat * 0x10 + e.toNat * 0x2 + q.toNat)]
  | .test h c a e => [word (0xC3200000 + h.toNat * 0x40000 + c.toNat * 0x8000 + a.toNat * 0x10 + e.toNat * 0x2)]
  | .cancel h a e => [word (0xC3400000 + h.toNat * 0x40000 + a.toNat * 0x10 + e.toNat * 0x2)]
  | .tlwait h n a e => [word (0xC3600000 + h.toNat * 0x40000 + n.toNat * 0x20 + a.toNat * 0x10 + e.toNat * 0x2)]
  | .tlrd h f n d a e => [word (0xC3800000 + h.toNat * 0x40000 + f.toNat * 0x1000 + n.toNat * 0x100 + d.toNat * 0x20 + a.toNat * 0x10 + e.toNat * 0x2)]
  | .fenceRel e => [word (0xC4000000 + e.toNat * 0x40000)]
  | .fenceAcq => [word 0xC4010000]
  | .fenceSc e => [word (0xC4020000 + e.toNat * 0x40000)]
  | .spawn a f n y h d => [word (0xC5000000 + a.toNat * 0x20000 + f.toNat * 0x1000 + n.toNat * 0x100 + y.toNat * 0x10 + h.toNat * 0x2 + d.toNat)]
  | .fanout h x a => [word (0xC5200000 + h.toNat * 0x40000 + x.toNat * 0x10 + a.toNat)]
  | .trig => [word 0xC5400000]
  | .migr d => [word (0xC5600000 + d.toNat * 0x20000)]
  | .migrHome d => [word (0xC5600001 + d.toNat * 0x20000)]
  | .yield c => [word (0xC5800000 + c.toNat * 0x8000)]
  | .coll d h c => [word (0xC6000000 + d.toNat * 0x20000 + h.toNat * 0x80 + c.toNat * 0x2)]
  | .handoff s h => [word (0xC7000000 + s.toNat * 0x8000 + h.toNat * 0x200)]
  | .xlinv h l e => [word (0xC7200000 + h.toNat * 0x40000 + l.toNat * 0x10 + e.toNat * 0x2)]
  | .issueStamp x s => [word (0x5C000000 + x.toNat * 0x100000 + s.toNat)]
  | .nullBundle | .bundleRelease | .stampTarget | .threadResume _ _ | .groupKill _ _ | .frameStart _ _
  | .frameWrap | .barrierComplete _ | .exitArrival _ | .longResultLanding | .snapshotLanding | .vmmDelayEnd
  | .regionStretch _ _ | .stretchEnd _ | .edgeHold _ _ | .skewForcedStretch _ _ | .powerStep _ _
  | .taskDispatch _ _ | .taskAgeing _ | .stealRequest _ | .stealAnswer _ _ | .stealBackoffExpiry _
  | .turnShortageSpill _ | .spillComplete _ | .bufferScrub _ _ | .peerRequest _ | .offCoreReply _
  | .fanoutForward _ | .fanoutHeaderRead _ | .launchPlacement _ _ _ | .launchFinish _ | .dependencySatisfied _ _ _
  | .spawnRecordArrival _ | .migrationDepart _ | .migrationArrival _ _ _ | .forwardWindowExpiry _ _ _
  | .remoteReply _ | .envelopeArrival _ _ _ _ | .creditArrival _ _ _ | .probeLaunch _ | .probe _
  | .copyStart _ _ _ | .copyUnit _ _ _ | .copyComplete _ _ _ | .completionNotice _ | .matrixStart _ _ _ _
  | .matrixComplete _ _ _ | .mmrotRingNotice _ _ _ | .mmrotTransfer _ _ _ _ _ | .prismStart _ _ _ _
  | .prismComplete _ _ _ | .collStart _ _ | .collSegment _ _ _ | .collComplete _ _ _ | .flitData _ _ _ _
  | .flitWindowAck _ _ | .flitIdle _ _ | .flitReplayRequest _ _ | .flitLinkControl _ _ | .linkSilenceTimeout _
  | .linkReplayLimit _ | .handoverStart _ _ | .handoverFlip _ _ | .memoryRequest _ | .pageWalkComplete _ _ _
  | .xlinvComplete _ _ | .pageMigrateIn _ _ | .pageMigrateOut _ _ _ | .migrationEventAnswer _ _ _
  | .hysteresisExpiry _ _ | .quiesceComplete _ | .partitionEvicted _ | .wake _ _ _ | .rbaseWrite _ _ _
  | .rcfgWrite _ _ _ | .fctlWrite _ _ | .mbevtClear _ _ | .registerWrite _ _ _ _ | .commandFetch _ _
  | .commandStart _ | .commandComplete _ | .launch _ | .pipe _ | .signal _ | .waitsig _ | .waitsigTimeout _
  | .copyh _ | .handoffq _ | .pipeStageStart _ | .channelTeardown _ | .functionLevelReset _ | .hotReset _
  | .bar2Access _ _ _ _ _ | .pluginCall _ | .pluginOverrun _ | .heartbeat _ | .timeSliceExpiry _ _
  | .budgetPeriod _ | .hostTrapAnswer _ _ | .pform _ | .pdiss _ | .keyld _ | .stkmove _ | .pool _ | .evict _
  | .resume _ | .memcfg _ | .xroot _ | .gtab _ | .budget _ | .swin _ | .croute _ | .fassign _ | .qmap _
  | .qunmap _ | .hyst _ | .pload _ | .tslice _ | .fpool _ | .kill _ | .fwload _ | .fwact _ | .quiesceTimeout _
  | .updateTimeout _ | .logrd _ | .mgmt _ | .getVersion _ | .getCapabilities _ | .negotiateAlgorithms _
  | .getDigests _ | .getCertificate _ | .challenge _ | .getMeasurements _ | .spdmUnsupportedRequest _
  | .packageReset | .dieBringup _ _ _ _ _ | .thermalStepdown _ | .thermalTrip | .illegalSyllable _ _
  | .fetchPageFault _ _ | .flitReservedKind _ _ | .flitFailsCheck _ | .pcieLinkUp _ | .mailboxBadreq _ => []

/-- An instruction with an encoding. -/
def Instr.encoded (i : Instr) : Bool := !(encode i).isEmpty

/-- What the decoder reads from a word of the opcode table: none unless it has 32 bits. -/
def decodeTableWord (nbits w : Nat) : Option Instr :=
  if nbits = 32 then decode? [BitVec.ofNat 32 w] else none

end Sys2Proof
end

