-- ==== Sys2Proof/Config.lean ====
section
/-! DEFINITION. What is fixed for the machine: the figures of R1 and R136, and the free values, which have no body. -/

namespace Sys2Proof

/-- A free value of w bits: some bit pattern the manual leaves undefined (R8). Applied to the counter `State.free`,
so that each use is a value of its own. Log 3, DESIGN CHOICE. -/
opaque Config.freeBits (w : Nat) : Nat → BitVec w
/-- A free natural number: the cycles, or the wall time, that something takes whose duration the manual leaves open
(R209, R301, R412 and others). Log 4, DESIGN CHOICE. -/
opaque Config.freeTime : Nat → Nat
/-- A free choice between two outcomes the manual allows (R74, R423). Log 13, DESIGN CHOICE. -/
opaque Config.freeChoice : Nat → Bool
/-- The bytes of an SPDM message of DSP0274 with a response code and its fields, a standard outside the manual (R484). Log 14,
DESIGN CHOICE. -/
opaque Config.spdmEncode : (code : Nat) → (fields : List (List Byte)) → List Byte
/-- A request message offers the extended asymmetric algorithm with a vendor identifier and an algorithm code (R484), names a
certificate slot, and asks for a measurement block, in the layout of DSP0274. Log 14, DESIGN CHOICE. -/
opaque Config.spdmOffers : List Byte → (vendor : Nat) → (algorithm : Nat) → Bool
opaque Config.spdmSlot : List Byte → Nat
opaque Config.spdmBlock : List Byte → Nat
/-- The ERROR code that the manual calls NegotiationFail (R484). Log 14, DESIGN CHOICE. -/
opaque Config.negotiationFail : Byte
/-- SLH-DSA-SHA2-128s, a standard outside the manual: the public key and the certificate of a key pair that grows from a seed, a
signature under it, and the verdict of a check under the firmware keys (R475, R472, R478). Log 14, DESIGN CHOICE. -/
opaque Config.publicKey : (seed : List Byte) → List Byte
opaque Config.sign : (seed : List Byte) → List Byte → List Byte
opaque Config.signatureOk : List Byte → Bool
/-- What Kaolin's fuses and boot flash hold (R478, R479): the device seed, the root and identity certificates of the chain, and
the firmware image of each die, 16 and 17 the I/O dies and 18 the Kaolin die. Log 14, DESIGN CHOICE. -/
opaque Config.deviceSeed : BitVec 256
opaque Config.certificates : List Byte
opaque Config.bootImage : Nat → List Byte
/-- The n-th 512-bit key that Kaolin draws from its DRBG (R478, R485). Log 14, DESIGN CHOICE. -/
opaque Config.drbg : Nat → BitVec 512
/-- What the bytes of a 128-byte line that were written under one key read as through another (R427): AES-XTS is a standard
outside the manual. Log 48, DESIGN CHOICE. -/
opaque Config.garble : (wrote : Nat) → (reads : Nat) → (line : Nat) → BitVec 1024 → BitVec 1024
/-- The fixed hash that picks the Dziaris port of a pair within its port set (R403), which the manual does not
give. Log 14, DESIGN CHOICE. -/
opaque Config.portHash : Nat → Nat → Nat

namespace Config

/-- Compute dies of the package (R1). -/
def nDies : Nat := 16
/-- Compute cores of a die (R1). -/
def nCores : Nat := 256
/-- Bytes of WB, AB and CB (R136). -/
def wbSize : Nat := 192 * 1024
def abSize : Nat := 96 * 1024
def cbSize : Nat := 64 * 1024
/-- Bytes of a stack (R1). -/
def stackSize : Nat := 2 ^ 36
/-- Firmware memory of a compute die and of an I/O die (R463). -/
def fwSizeDie : Nat := 2 ^ 20
def fwSizeIo : Nat := 2 ^ 24
/-- Units of wall time in a nanosecond: the least that makes every period of R46 and R52 a whole number. Log 12, DESIGN CHOICE. -/
def ns : Nat := 232792560
/-- Records of a die's ready queue and of a core's arrival list (R365). -/
def readyMax : Nat := 4096
def arrivalMax : Nat := 16
/-- What a byte of memory that nothing has written reads as. Log 2, DESIGN CHOICE. -/
def blank : Byte := 0

end Config
end Sys2Proof
end

