-- ==== Sys2Proof/Machine/State.lean ====
section
/-! DEFINITION. The state of the Otset package as plain data, and the state after reset. -/

namespace Sys2Proof.Machine

/-- An exact value of R106: a NaN, an infinity, or (−1)^neg × m × 2^e, with a signed zero when m is 0. -/
inductive FNum where
  | nan (signalling : Bool)
  | inf (neg : Bool)
  | fin (neg : Bool) (m : Nat) (e : Int)
  deriving DecidableEq, Repr, Inhabited

/-- The trap of a bundle before its record is formed (R171, R175). -/
structure TrapInfo where
  cause  : BitVec 8
  /-- Class 0 to 4 of the raising syllable, 7 for the bundle as a whole. -/
  slot   : Nat
  detail : W32
  addr   : W64
  syl    : W32
  deriving DecidableEq, Repr, Inhabited

/-- What a release hands on (R145–R147): its partition, the logical dies that it names, and the writes that it covers, by
identity, as far as some die cannot see them yet (log 38, DESIGN CHOICE). -/
structure MsgItem where
  part : Nat
  mask : BitVec 16
  ids : List Nat
  deriving DecidableEq, Repr, Inhabited

/-- The release sequences that the bytes from a key on belong to (R146): what a read of them brings to an acquire. -/
structure Msg where
  key : Nat
  n : Nat
  items : List MsgItem
  deriving DecidableEq, Repr, Inhabited

/-- A write to an 8-byte granule of die or host memory that some physical dies cannot see yet (R147), with the granule as
it stood before it and the release sequences that its bytes belonged to then (R146; log 38, DESIGN CHOICE). -/
structure Late where
  id : Nat
  gran : Nat
  old : W64
  msgs : List Msg
  dies : BitVec 16
  deriving DecidableEq, Repr, Inhabited

/-- A fault record (R287); V is its presence, HELD is derived from the entries that wait behind it (R289). -/
structure FaultRec where
  cause : BitVec 8
  cls : BitVec 8
  turn : BitVec 8
  reported : Bool
  /-- HELD as it stood when the record was sent out. -/
  more : Bool
  syl : W32
  pc : W64
  wid : W64
  handle : W64
  op0 : W64
  op1 : W64
  op2 : W64
  op3 : W64
  progress : W64
  faddr : W64
  cycle : W64
  loc : W32
  detail : W32
  /-- Flags that the operation raised, ORed when it completes (R122). -/
  flags : BitVec 7
  /-- The number of the operation, and its issuing thread (R290). -/
  num : Nat
  tid : Nat
  /-- What an image saves of the operation while its fault waits (R289, R438). -/
  cmd : BitVec 1024
  deriving DecidableEq, Repr, Inhabited

/-- A timeline context (R275, R276, R283, R289): counter C, issued count I, the completed numbers above C, the fault
record and the entries held behind it in number order. -/
structure Timeline where
  c : Nat
  i : Nat
  done : List Nat
  frec : Option FaultRec
  held : List FaultRec
  /-- What the completions of its operations hand on, by number (R145, R152). -/
  rel : List (Nat × MsgItem)
  deriving DecidableEq, Repr, Inhabited

/-- A timeline context with nothing issued. -/
def Timeline.init : Timeline := { c := 0, i := 0, done := [], frec := none, held := [], rel := [] }

/-- What an asynchronous operation captures of its issue (R287, R293). -/
structure Issue where
  num : Nat
  tid : Nat
  turn : Nat
  lid : Nat
  die : Nat
  core : Nat
  syl : W32
  pc : W64
  wid : W64
  rnd : W32
  cnt : W32
  /-- The operand values captured, OP0 to OP3 of the fault record. -/
  op0 : W64
  op1 : W64
  op2 : W64
  op3 : W64
  /-- Partition, and %seed (R120). -/
  part : Nat
  seed : W32
  /-- Writes that happen before the issue and that some die could not see then (R152). -/
  after : List Nat
  /-- The identity of the operation's own writes. -/
  oid : Nat
  deriving DecidableEq, Repr, Inhabited

/-- The file that a long result goes to (R433). -/
inductive LongFile where
  | x | v
  deriving DecidableEq, Repr, Inhabited

/-- A long result that has not landed (R86), latched in a snapshot entry or not (R174). -/
structure Long where
  file : LongFile
  reg : Nat
  value : VReg
  /-- Rotations left before the bundle that reads the result (r of R174). -/
  left : Nat
  flags : BitVec 7
  latched : Bool
  /-- It has been latched and waits to land after the resumption (R174). -/
  snap : Bool
  /-- A later write took its destination: only its flags still land (R86). -/
  cancelled : Bool
  deriving DecidableEq, Repr, Inhabited

/-- The privilege of a thread (R165). -/
inductive Priv where
  | user | system | plugin | supervisor | monitor
  deriving DecidableEq, Repr, Inhabited

/-- The state of a thread (R32). A spilled thread keeps the state it left; `moving` is the running thread of R373
between its departure and its arrival. -/
inductive ThreadState where
  | running | blocked | trapped | moving | exited
  deriving DecidableEq, Repr, Inhabited

/-- The system registers and call state that only control-core turns have (R464, R465). -/
structure Ctl where
  pcall : W32
  pstat : W32
  psret : W64
  mcmd : W32
  gbase : RegFile 4 32
  glim : RegFile 4 32
  mstat : W32
  /-- Die cycles left of a plug-in call's budget (R465). -/
  budget : Option Nat
  /-- The hidden shadow of R465: x5–x31, a, e, h and c. -/
  shX : RegFile 32 32
  shA : RegFile 16 64
  shE : RegFile 8 64
  shH : RegFile 8 64
  shC : BitVec 8
  deriving DecidableEq, Repr, Inhabited

/-- An operation of a remote context (R202, R219). -/
inductive RemoteKind where
  | rld | rst | ramo
  deriving DecidableEq, Repr, Inhabited

/-- An RLD or RAMO that its thread has not waited for: its read stands in program order at the WAIT (R144). -/
structure AsyncRead where
  num : Nat
  addr : W64
  size : Nat
  /-- It is an RLD, and its destination file and register. -/
  load : Bool
  file : Nat
  reg : Nat
  /-- A later write took the destination (R223). -/
  dead : Bool
  /-- An acquire or a write of the thread came between, so that the value must be read anew at the WAIT. -/
  stale : Bool
  /-- A RAMO that acquires (R145). -/
  acq : Bool
  got : List MsgItem
  ids : List Nat
  deriving DecidableEq, Repr, Inhabited

/-- A thread: the state at turn scope (R20, R78, R164, R166, R202, R226). -/
structure Thread where
  tid : Nat
  lid : Nat
  part : Nat
  die : Nat
  core : Nat
  turn : Nat
  st : ThreadState
  /-- The pool slot of a spilled thread (R429); `none` while resident. -/
  spilled : Option Nat
  /-- The spill is under way: the turn is not free yet (R434). -/
  spilling : Bool
  /-- The order of spilling, for the restorable threads of R39, and %cycle of the first cycle that the thread did not execute
  (R431). -/
  spillSeq : Nat
  spillZ : Nat
  /-- Spilled by YIELD, and the source that waited has not taken a turn of the core yet (R380). -/
  yielded : Bool
  priv : Priv
  stamped : Bool
  prio : Nat
  x : RegFile 32 32
  a : RegFile 16 64
  v : RegFile 16 2048
  k : RegFile 8 64
  q : RegFile 8 256
  e : RegFile 8 64
  h : RegFile 8 64
  c : BitVec 8
  pc : W64
  wid : W64
  widf : W64
  ext : RegFile 6 32
  rnd : W32
  fflags : W32
  seed : W32
  dscale : RegFile 8 32
  cycHi : W32
  lc : RegFile 2 32
  ls : RegFile 2 64
  le : RegFile 2 64
  tvec : W32
  tcause : W32
  tpc : W64
  trec : W32
  frRun : Bool
  /-- The frame number at the frame that began at %cycle frZ. -/
  frNum : Nat
  frZ : Nat
  /-- Rotations of the frame that were over at frZ: nonzero after a move to another die (R55). -/
  frOff : Nat
  /-- The frame start z of FRAME (R56). -/
  frStart : Nat
  /-- Frame length F in rotations (R54). -/
  frLen : Nat
  /-- The stamp target fixed for the bundle at PC, as a %cycle value (R57, R431). -/
  target : Option Nat
  /-- Stamped BARs not yet checked: the instance, its bundle's address, its NX and stamp, and the last %cycle before
  the check (R59, R60). -/
  barChk : List (Nat × W64 × W32 × Nat)
  longs : List Long
  vdly : Nat
  /-- The VMM delay that a handler's run keeps for the bundle after RTE (R257). -/
  vkept : Nat
  rc : Timeline
  rcOps : List Nat
  rcStores : Nat
  /-- The off-core request of the held bundle (R208). -/
  offReq : Option Nat
  /-- Writes that some die cannot see yet: those that happen before the thread's next release (R147), those that happen
  before its next access, and those that its TRIG covers (R371). -/
  seen : List Nat
  before : List Nat
  trigIds : List Nat
  /-- Writes of its engine operations that have completed: an EXIT covers them too (R145, R194). -/
  overIds : List Nat
  /-- What its FENCEs hand on with each later write, and what its reads have brought to a later acquire (R146). -/
  carry : List MsgItem
  got : List MsgItem
  reads : List AsyncRead
  /-- The die cycle since which the thread is blocked (R36), and the cycle from which the count of R273 runs. -/
  since : Nat
  recvFrom : Nat
  /-- DEADLOCK that the thread takes at its next issue cycle (R273): member count, position and cycle list (R274). -/
  dlk : Option (Nat × Nat × BitVec 512)
  /-- The thread's held FRAME bundle is to issue in the cycle of its attempt, because the frame start z is that cycle
  (R56). -/
  again : Bool
  /-- The packet of the bundle at PC, fetched at its first attempt (R73, R75). -/
  packet : Option (BitVec 256)
  /-- A start stub (R360): it belongs to no launch and runs the front end's own bundles. -/
  stub : Bool
  /-- Undefined values that the thread's own syllables have taken (R8). -/
  undefs : Nat
  /-- Its saved context has changed while it was spilled (R122, R273, R33), and its image is to be written again. -/
  stale : Bool
  /-- The source that this thread's spill makes room for (R36): 1 + a thread, or a task record's identity doubled. -/
  roomFor : Option Nat
  triggered : Bool
  /-- A group exit or kill that has not reached the thread yet (R193). -/
  exiting : Bool
  /-- Notice of a foreign completion that a held WAIT needs: 0 none, 1 on its way, 2 here (R301). -/
  notice : Nat
  /-- A WAIT of the held bundle has reported a record (R291). -/
  reportedOne : Bool
  /-- Where MIGR moves the thread (R373). -/
  dest : Option (Nat × Nat)
  ctl : Ctl
  deriving DecidableEq, Repr, Inhabited

/-- A task record (R364), with the SPAWN operation that made it (R367). -/
structure TaskRec where
  id : Nat
  lid : Nat
  part : Nat
  entry : W64
  wid : W64
  xf : Nat
  xs : List W32
  ext : RegFile 6 32
  prio : Nat
  /-- The die cycle from which it has waited at its priority (R40). -/
  since : Nat
  ctxDie : Nat
  ctx : Nat
  num : Nat
  /-- The issue of the SPAWN, for a cancellation (R367). -/
  iss : Issue
  /-- It has reached the queue or list that it is charged to (R365). -/
  here : Bool
  deriving DecidableEq, Repr, Inhabited

/-- An entry of a core's arrival list (R365). -/
inductive Arrival where
  | record (r : TaskRec)
  /-- A thread that arrives by MIGR, and whether it has reached the core. -/
  | thread (tid : Nat) (here : Bool)
  deriving DecidableEq, Repr, Inhabited

/-- The transfers of R292. -/
inductive CopyKind where
  | cpy
  | cpyt (conv dir : Bool)
  | gath
  | scat
  | sig
  deriving DecidableEq, Repr, Inhabited

/-- An operation of a copy context (R284, R438). -/
structure CopyOp where
  iss : Issue
  kind : CopyKind
  /-- Format of the captured stream (converting CPYT). -/
  fmt : BitVec 3
  /-- Units completed (R285). -/
  units : Nat
  started : Bool
  cancel : Bool
  /-- Cause and address of a failed unit. -/
  fault : Option (BitVec 8 × W64)
  flags : BitVec 7
  deriving DecidableEq, Repr, Inhabited

/-- A copy context (R275). -/
structure CopyCtx where
  tl : Timeline
  queue : List CopyOp
  deriving DecidableEq, Repr, Inhabited

/-- The end of a channel, or of a neighbour link: die, core, port and hop count (R258, R259). -/
structure PortRef where
  die : Nat
  core : Nat
  port : Nat
  hops : Nat
  deriving DecidableEq, Repr, Inhabited

/-- A send port (R258–R263). -/
structure Port where
  bound : Option Nat
  credits : Nat
  /-- Envelopes with the die cycle of their arrival, oldest first. -/
  inbox : List (W64 × Nat)
  /-- Ports 4–7: where the channel that starts here goes, and which port feeds the one that ends here. -/
  out : Option PortRef
  inn : Option PortRef
  allow : Nat
  /-- A thread blocked here when the far core left traps PEER_ABSENT (R264). -/
  torn : Bool
  deriving DecidableEq, Repr, Inhabited

/-- The commands of R323. -/
inductive MatKind where
  | mul (sparse rot : Bool)
  | zero
  | drn (out : Nat)
  | ldc (inn : Nat)
  deriving DecidableEq, Repr, Inhabited

/-- A matrix command (R315–R317, R438). -/
structure MatCmd where
  iss : Issue
  kind : MatKind
  tile : Nat
  /-- K / 32. -/
  groupCount : Nat
  qa : QReg
  qb : QReg
  /-- Die cycle of issue. -/
  issued : Nat
  /-- Start cycle once started. -/
  start : Option Nat
  /-- Exact sums of the groups read so far with their flags, 1,024 each, row by row (R129, R311), but for the first `base`
  groups, which the words of `rows` hold already (R440). -/
  groups : List (List (FNum × BitVec 7))
  base : Nat
  /-- Row pairs read: 64 words each. -/
  rows : List (List W32)
  /-- Row pairs written. -/
  written : Nat
  flags : BitVec 7
  fault : Option (BitVec 8 × W64)
  /-- MMROT (R320–R322): its ordinal, the footprints as they were read (A, A's scales, B, B's scales), and how its
  outgoing and incoming transfers stand (A, then B): 0 not begun, 1 under way, 2 done, 3 discarded. -/
  rotN : Nat
  foot : Vector Nat 4
  /-- Operand bytes of the group read last (R440): A, B, scales and metadata, and from byte 64 of the scales on the second
  scale of each row and column of a stream with 16-element blocks. -/
  cur : Vector Nat 4
  out : Vector Nat 2
  inc : Vector Nat 2
  deriving DecidableEq, Repr, Inhabited

/-- The matrix engine of a core (R313–R315). -/
structure Matrix where
  owner : Option Nat
  tl : Timeline
  queue : List MatCmd
  /-- MMROTs started since the launch took the core (R320). -/
  rots : Nat
  /-- Ring notices received (R322): ordinal, sending core, and the role 0 W, 1 N, 2 E or 3 S in which it names this
  core. -/
  notices : List (Nat × Nat × Nat)
  deriving DecidableEq, Repr, Inhabited

/-- The commands of R347. -/
inductive PrismKind where
  | pwin (w op : Nat) (direct : Bool) (k : Nat)
  | pldw (modes : Bool)
  | plaunch
  | pcap (list : Bool)
  | prst
  deriving DecidableEq, Repr, Inhabited

/-- A Prism command (R343, R438). -/
structure PrismCmd where
  iss : Issue
  kind : PrismKind
  mask : BitVec 4
  q : QReg
  issued : Nat
  start : Option Nat
  /-- The cells of the band being loaded, as read so far. -/
  delayBuf : BitVec 32768
  modeBuf : BitVec 8192
  /-- Input ticks of a race, 64 fields of 16 bits for each band. -/
  inputs : RegFile 4 1024
  /-- Bands loaded. -/
  progress : Nat
  fault : Option (BitVec 8 × W64)
  deriving DecidableEq, Repr, Inhabited

/-- The Prism engine of a core (R333). -/
structure Prism where
  delay : RegFile 4 32768
  mode : RegFile 4 8192
  /-- W, op (0 MINPLUS, 1 MAXPLUS, 2 KFIRST), DIRECT and k. -/
  window : Option (Nat × Nat × Bool × Nat)
  /-- A PWIN has issued since the reset of R335 (R345). -/
  winIssued : Bool
  dirty : BitVec 4
  capt : RegFile 4 1024
  list : BitVec 512
  tl : Timeline
  queue : List PrismCmd
  deriving DecidableEq, Repr, Inhabited

/-- A core: state at core scope (R20). Cores 256 and above are the control cores (R22). -/
structure Core where
  die : Nat
  core : Nat
  /-- The launch that holds the buffers (R37). -/
  owner : Option Nat
  scrubbing : Bool
  /-- Launches that wait to place threads here, in order (R362). -/
  reserved : List Nat
  copy : Vector CopyCtx 4
  ports : Vector Port 8
  mat : Matrix
  prism : Prism
  arrivals : List Arrival
  /-- Threads that left by MIGR and are still forwarded (R374): thread, new die, new core. -/
  fwd : List (Nat × Nat × Nat)
  /-- Fetch packets held by the instruction cache (R74): partition, virtual address and contents. -/
  icache : List (Nat × Nat × BitVec 256)
  /-- Collectives that the core has issued on each group (R383). -/
  collCount : List (Nat × Nat)
  /-- Writes that happen before some access that a thread of the core has made to its buffers (R143, R147). -/
  locals : List Nat
  deriving DecidableEq, Repr, Inhabited

/-- A collective issue in a context (R381, R385, R400). -/
structure CollOp where
  iss : Issue
  desc : BitVec 512
  ctx : Nat
  /-- How many collectives the core had issued on the group before (R383). -/
  ordinal : Nat
  started : Bool
  /-- The fault the issue completes with: cause, detail and failing address (R387, R395). -/
  fault : Option (BitVec 8 × W32 × W64)
  /-- What it is to write, once the inputs of every member have been combined (R398). -/
  out : Option Nat
  /-- Its data has moved, or its fault is fixed: only its completion is to come. -/
  moved : Bool
  /-- A member on another package never issues (R383). -/
  absent : Bool
  /-- Its source rows, once they have been read and sent to the members on other packages. -/
  rows : Option (List Nat)
  /-- Writes noted when it was issued, and what happened before its issue: writes of its core to its source after that make
  results undefined (R393). -/
  mark : Nat
  prior : List Nat
  /-- Granules of its destination still to be written, by number (R393, R398). -/
  todo : List Nat
  /-- Bytes of its destination that are to become undefined, and cannot be written yet: offset and count (R395). -/
  due : List (Nat × Nat)
  flags : BitVec 7
  deriving DecidableEq, Repr, Inhabited

/-- Data of a member on another package, placed in a receiving context (R401, R404): group, byte offset within the operation,
count and bytes. -/
structure Arrived where
  group : Nat
  off : Nat
  n : Nat
  data : BitVec 1792
  deriving DecidableEq, Repr, Inhabited

/-- A collective context (R381), with what has come for it and is not combined yet (R398). -/
structure CollCtx where
  tl : Timeline
  queue : List CollOp
  arrived : List Arrived
  deriving DecidableEq, Repr, Inhabited

/-- A handover operation (R410–R415). -/
structure HandOp where
  iss : Issue
  operand : W64
  part : Nat
  /-- Steps 1 to 5 are under way. -/
  draining : Bool
  /-- It waits at the stack's owner, at this place in the order of arrival (R413). -/
  place : Option Nat
  /-- The physical stack that it drains. -/
  phys : Option Nat
  deriving DecidableEq, Repr, Inhabited

/-- A translation invalidation (R423). -/
structure XlOp where
  iss : Issue
  all : Bool
  operand : W64
  part : Nat
  deriving DecidableEq, Repr, Inhabited

/-- A cached translation of a slice (R419): partition, virtual page and leaf entry with its level. -/
structure TlbEntry where
  part : Nat
  page : Nat
  leaf : W64
  level : Nat
  deriving DecidableEq, Repr, Inhabited

/-- When an agenda entry falls due: a cycle of a die, with the rank of R151 within the cycle, or a wall time. -/
inductive Due where
  | cycle (die : Nat) (c : Nat) (rank : Nat)
  | wall (t : Nat)
  deriving DecidableEq, Repr, Inhabited

/-- A pending event or input, and when it falls due (log 47, DESIGN CHOICE). -/
structure Pending where
  due : Due
  ev : Event
  deriving DecidableEq, Repr

/-- A die: state at die scope (R20). 16 and 17 are the I/O dies. -/
structure Die where
  die : Nat
  up : Bool
  dead : Bool
  routerOk : Bool
  /-- Hardware cycle count (R17), and the count at which %cycle of its partition would be 0 (R50). -/
  cyc : Nat
  base : Nat
  /-- The value of %cycle at the cycle `base` (R442). -/
  origin : Nat
  /-- The partition stands still here (R51): the last cycle it executed, and its pending entries, in the numbers of
  that time. -/
  stopped : Bool
  stopAt : Nat
  frozen : List Pending
  /-- Wall time of the next cycle. -/
  next : Nat
  /-- Frequency in units of 62.5 MHz, 10 to 20 (R52). -/
  freq : Nat
  /-- Regions that hold a warning, and regions that stretch (R46, R47). -/
  warn : BitVec 16
  stretch : BitVec 16
  /-- The last cycle in which a region held a warning. -/
  lastWarn : Nat
  /-- How much earlier than the slowest each region ends its current cycle, the same by number in all of them, in quarters of a
  nominal period (R47, R49). -/
  lead : RegFile 16 8
  /-- The boundary buffers (R48): sending region, receiving region and tag of every entry that is not released. -/
  entries : List (Nat × Nat × Nat)
  ready : List TaskRec
  stealBack : Nat
  stealRank : Nat
  /-- A steal request is out (R41). -/
  stealing : Bool
  coll : Vector CollCtx 16
  task : Vector Timeline 9
  hand : Timeline
  handQ : List HandOp
  xl : Timeline
  xlQ : List XlOp
  pool : BitVec 4096
  tlb : List TlbEntry
  /-- The slot register of an I/O die (R464): 0 on a compute die. -/
  fwslot : W32
  /-- Errors corrected so far, by the classes of R486: buffers and queues, DRAM, links. -/
  corrected : Vector Nat 3
  deriving DecidableEq, Repr

/-- A member word of the group table, unpacked only by accessors (R382). -/
abbrev MemberWord := W32

/-- A WRITE by a member on another package (R390): the die, context and group that its flits name, the address that its bytes go
to and the signal word, the offset of its next flit, whether it has failed here, and whether its atomic add is all that is left. -/
structure Incoming where
  die : Nat
  ctx : Nat
  group : Nat
  dst : W64
  signal : W64
  next : Nat
  failed : Bool
  last : Bool
  deriving DecidableEq, Repr, Inhabited

/-- A partition (R23–R25, R406, R408 and the tables of R472). -/
structure Partition where
  num : Nat
  /-- Physical dies in logical order (R24). -/
  dies : List Nat
  /-- Physical stacks in logical order (R406). -/
  stackList : List Nat
  memcfg : W64
  root : Nat
  groups : List (Nat × List MemberWord)
  /-- KiB per period of the six activities (R469), and what the current period has used. -/
  budget : Vector Nat 6
  used : Vector Nat 6
  /-- Send windows in units of 4 KiB, between dies and between packages (R401). -/
  window : Vector Nat 2
  /-- Chip routes: chip index and port set (R403). -/
  routes : List (Nat × BitVec 16)
  chip : Nat
  hyst : Nat
  home : Option Nat
  /-- Spill pool and save area of each logical die (R429). -/
  pools : List (Nat × W64 × W64)
  resident : Bool
  evicting : Bool
  /-- The physical dies, in logical order, to which a group move takes it once it is evicted (R428); none but then. -/
  moveTo : List Nat
  /-- Key slots that hold a key (R427), and the keys delivered by name (R485): slot, identity and value. -/
  keys : BitVec 16
  keyVals : List (Nat × Nat × BitVec 512)
  /-- What a budget holds until the next period (R469): an entry with the die and the rank that it had, or none. -/
  holding : List Pending
  /-- Members whose issue faulted or was cancelled before its operation moved data (R387, R396): group, ordinal, rank
  and the code 0x10 or 0x11 that their partners complete with. -/
  collFails : List (Nat × Nat × Nat × Nat)
  /-- Writes by members on other packages that some die cannot see yet (R390). -/
  farIds : List Nat
  /-- WRITEs by members on other packages that are under way (R390). -/
  incoming : List Incoming
  /-- The function and queue that has the time slice (R468). -/
  serving : Option (Nat × Nat)
  deriving DecidableEq, Repr, Inhabited

/-- A launch (R356–R363, R369). -/
structure Launch where
  lid : Nat
  part : Nat
  hdr : W64
  entry : W64
  fields : W64
  ext : RegFile 6 32
  tile : RegFile 6 16
  flags : W32
  place : W64
  framew : W64
  xinit : RegFile 8 32
  done : W64
  chip : BitVec 16
  /-- The FANOUT that carries it: die and number in context 8 (R367), with its issue. -/
  fanDie : Nat
  fanNum : Nat
  fanIss : Issue
  /-- The header has been read and accepted. -/
  accepted : Bool
  rejected : Nat
  /-- Nodes of the spanning tree that the launch has reached (R361): rank of the die in the set, index of the core in the
  rectangle. -/
  reached : List (Nat × Nat)
  /-- Cores reached and not yet placed, and cores placed: physical die and core. -/
  pending : List (Nat × Nat)
  placed : List (Nat × Nat)
  finished : Bool
  /-- What is still to be added at DONE (R359, R363). -/
  owed : Nat
  killed : Option W64
  /-- The command that started it (R456). -/
  cid : Option Nat
  /-- Dependencies not yet satisfied: launch and level (R369). -/
  deps : List (Nat × Nat)
  /-- Levels that a dependent launch names (R490). -/
  trigLevels : BitVec 7
  deriving DecidableEq, Repr, Inhabited

/-- Kinds of group instance (R490), and a group that has been exited (R368). -/
inductive GroupKind where
  | barrier | frame | trigger | exited
  deriving DecidableEq, Repr, Inhabited

/-- A barrier instance, frame start or trigger group in progress (R192, R56, R370). -/
structure Group where
  gid : Nat
  lid : Nat
  level : Nat
  key : W64
  kind : GroupKind
  arrived : List Nat
  complete : Bool
  /-- Frame starts: die and %cycle z of the start (R56). -/
  starts : List (Nat × Nat)
  /-- The die of the last arrival, an exit among them (R56). -/
  lastDie : Nat
  /-- Writes that the arrivals cover and that some die cannot see yet (R145). -/
  ids : List Nat
  deriving DecidableEq, Repr, Inhabited

/-- What an in-flight request is (R208, R219, R390, R456). -/
inductive ReqKind where
  | load | store | atomic
  deriving DecidableEq, Repr, Inhabited

/-- A request to a home other than the issuing core's bank (R208, R219). -/
structure Req where
  rid : Nat
  iss : Issue
  part : Nat
  kind : ReqKind
  /-- True for a synchronous off-core access (R208). -/
  sync : Bool
  /-- Element addresses, each of `size` bytes: one for plain accesses, one per active lane for LDVS and STVS. -/
  addrs : List W64
  size : Nat
  data : VReg
  cmp : W64
  op : Nat
  det : Bool
  fb : BitVec 8
  noRet : Bool
  /-- Release and acquire of an atomic (R69), with the release mask. -/
  order : BitVec 2
  mask : BitVec 16
  /-- Destination file (0 x, 1 a, 2 v, 3 k, 4 none) and register. -/
  file : Nat
  reg : Nat
  /-- Requests that must be applied first (R144, R145). -/
  after : List Nat
  /-- What its write hands on and what its read brings (R146), and the writes that it saw and that others do not yet. -/
  carry : List MsgItem
  got : List MsgItem
  ids : List Nat
  /-- Physical dies that have acquired its write before it was applied. -/
  shown : BitVec 16
  /-- An acquire needs its write at once. -/
  rush : Bool
  /-- Lanes of LDVS, STVS, GLD and GST that name the issuing core (R207). -/
  own : List (Nat × W64)
  /-- Events of the request that have not taken place (R150). -/
  todo : BitVec 64
  applied : Bool
  /-- The reply of a synchronous access has arrived, and the cycle of its arrival (R208). -/
  replied : Bool
  repliedAt : Nat
  result : VReg
  progress : Nat
  flags : BitVec 7
  fault : Option (BitVec 8 × W64)
  /-- The delivery has been cancelled by a later write (R223). -/
  noDeliver : Bool
  deriving DecidableEq, Repr, Inhabited

/-- Why a bundle does not take effect, in the order of R75: an encoding or form fault, a privilege fault, a
first-attempt check of R58, a check that a blocking syllable makes at an attempt where its own condition is false
(attempt) or holds (check), a false condition (R34), a trap that a syllable raises as it takes effect, a record that a WAIT reports before its operation is complete (R291), or the
trap of TRAP and BRK after the others have taken effect (R195). -/
inductive Stop where
  | none | illegal | privilege | first | attempt | check | held | trap | report | after
  deriving DecidableEq, Repr, Inhabited

/-- The bundle being issued: the model's own issue stage (log 9, DESIGN CHOICE). -/
structure Bundle where
  /-- Address at which sequential flow continues (R71). -/
  next : W64
  /-- The words of the syllables of class S, A, V, M, N. -/
  words : Vector W32 5
  stamp : Option (Bool × Nat)
  /-- The taken control transfer. -/
  taken : Option W64
  /-- Loop counters written by SYSW in this bundle (R190), and a %rnd written by SYSW (R119). -/
  lcWritten : BitVec 2
  rndWritten : Bool
  /-- Counter values taken by rounding syllables (R119). -/
  counts : Nat
  /-- Flags raised (R122). -/
  flags : BitVec 7
  /-- The bundle's first-attempt checks have been made (R75). -/
  checked : Bool
  /-- Set when the bundle trapped or was held: nothing more of it takes effect. -/
  stop : Stop
  deriving DecidableEq, Repr, Inhabited

/-- A queue of a function (R450, R451, R457). -/
structure Queue where
  q : Nat
  pidx : BitVec 16
  rbase : W64
  rcfg : W32
  cons : BitVec 16
  mapped : Bool
  pw : Bool
  stop : Bool
  deriving DecidableEq, Repr, Inhabited

/-- A PCI Express function and what the supervisor set for it (R445–R448, R468, R470, R424, R467). -/
structure Func where
  fn : Nat
  part : Option Nat
  home : Bool
  pagm : Bool
  mapm : Bool
  trpm : Bool
  en : Bool
  bar2 : Nat
  wbase : W64
  queues : List Queue
  tslice : Nat
  pool : List W64
  plugin : Option (Nat × Nat)
  pluginFaulted : Bool
  /-- Record ring of trap records in hardware mode (R470), oldest first: 64 bytes each. -/
  ring : List (BitVec 512)
  /-- Trap records posted to the host in host-assisted mode (R470). -/
  posted : List (BitVec 512)
  msix : List Nat
  /-- Error records of the partition that the supervisor has reported to its home function (R487). -/
  errors : List (Nat × Nat)
  deriving DecidableEq, Repr, Inhabited

/-- How far a command has come (R453, R454). -/
inductive CmdState where
  | fetched | started | finished
  deriving DecidableEq, Repr, Inhabited

/-- A channel of a pipeline (R459, R460): its ends as physical die, core and port, its hop count, its allowance, and
its source and destination stage. -/
structure Channel where
  srcDie : Nat
  srcCore : Nat
  srcPort : Nat
  dstDie : Nat
  dstCore : Nat
  dstPort : Nat
  hops : Nat
  allow : Nat
  srcStage : Nat
  dstStage : Nat
  deriving DecidableEq, Repr, Inhabited

/-- A command of a host queue (R452). -/
structure Cmd where
  cid : Nat
  fn : Nat
  q : Nat
  slot : BitVec 512
  /-- Host address of the slot, for STATUS. -/
  addr : Nat
  st : CmdState
  code : Nat
  detail : Nat
  /-- The partition that its function belonged to when it was fetched. -/
  part : Option Nat
  /-- A function reset dropped its host writes (R449). -/
  dropped : Bool
  /-- WAITSIG: the word as the front end read it last (R458). -/
  word' : Option Nat
  /-- Launches it started: one for LAUNCH, one per stage from the last stage down for PIPE. -/
  lids : List Nat
  /-- Dependencies of its launch (R369). -/
  deps' : List (Nat × Nat)
  chip : BitVec 16
  /-- The start stub that is to issue the FANOUT of its latest launch, for which `lids` holds a 0 until then (R360). -/
  stub : Option Nat
  /-- The stage started last (PIPE), or the units copied (COPYH). -/
  stage : Nat
  /-- The handover that carries a HANDOFFQ: die and number (R456). -/
  op : Option (Nat × Nat)
  /-- The channels of a PIPE that stand (R462). -/
  chans : List Channel
  deriving DecidableEq, Repr, Inhabited

/-- The management mailbox of a physical function (R473). -/
structure Mailbox where
  mbcmd : W32
  busy : Bool
  status : BitVec 8
  mblen : W32
  mbrlen : W32
  mbevt : W32
  data : List Byte
  deriving DecidableEq, Repr, Inhabited

/-- Where a management command came from (R471, R473). -/
inductive MgmtSource where
  | turn (tid : Nat) (off : Nat)
  | mailbox (port : Nat)
  deriving DecidableEq, Repr, Inhabited

/-- A management command under way (R471): its block, and whether it holds monitor privilege. -/
structure Mgmt where
  mid : Nat
  src : MgmtSource
  block : BitVec 512
  monitor : Bool
  /-- Its effect has begun: an EVICT or a RESUME under way. -/
  begun : Bool
  deriving DecidableEq, Repr, Inhabited

/-- A firmware update under way (R475). -/
structure Update where
  slot : Nat
  /-- 1 the supervisor is asked to quiesce, 2 it has, 3 the new image runs until the heartbeat (R475). -/
  phase : Nat
  shadow : List Byte
  port : Nat
  deriving DecidableEq, Repr, Inhabited

/-- An I/O die's firmware state (R474, R475). -/
structure Io where
  port : Nat
  slot : Nat
  update : Option Update
  deriving DecidableEq, Repr, Inhabited

/-- One entry of the measurement log (R481). -/
structure LogEntry where
  mr : Nat
  kind : Nat
  die : Nat
  version : W32
  digest : BitVec 256
  deriving DecidableEq, Repr, Inhabited

/-- The Kaolin die (R478–R488). -/
structure Kaolin where
  mr : RegFile 8 256
  log : List LogEntry
  ready : W64
  deadMap : W64
  /-- Keys drawn from the DRBG (R478, R485): the number of the next. -/
  drawn : Nat
  /-- The next die of the bring-up order: 0 north, 1 south, 2 + d compute die d, 18 when done (R479). -/
  nextDie : Nat
  tripped : Bool
  deriving DecidableEq, Repr, Inhabited

/-- A Dziaris port (R403–R405). -/
structure DzPort where
  port : Nat
  up : Bool
  expect : BitVec 12
  /-- Sequence of the next flit sent, and the flits kept for replay with the times that each has been replayed. -/
  sendSeq : BitVec 12
  replay : List (BitVec 12 × BitVec 2048 × Nat)
  discarding : Bool
  errors : Nat
  /-- The last good sequence that this port's last replay request carried. -/
  asked : Option (BitVec 12)
  /-- Data that waits for a die of an evicted partition (R397): header, offset word and bytes (R404). -/
  rx : List (BitVec 64 × BitVec 64 × BitVec 1792)
  deriving DecidableEq, Repr, Inhabited

/-- Data bytes of a collective on their way to a member on another package (R401): waiting at the send window, or sent over
a port and not acknowledged. -/
structure Flight where
  part : Nat
  /-- The issue that they belong to: physical die, context and number. -/
  die : Nat
  ctx : Nat
  num : Nat
  group : Nat
  chip : Nat
  mdie : Nat
  /-- Byte offset within the operation, byte count and bytes. -/
  off : Nat
  n : Nat
  data : BitVec 1792
  port : Option Nat
  deriving DecidableEq, Repr, Inhabited

/-- A write by a core while a collective stands (R393): its identity, the core, and the bytes. -/
structure Touch where
  id : Nat
  die : Nat
  core : Nat
  key : Nat
  n : Nat
  deriving DecidableEq, Repr, Inhabited

/-- A page between host and device (R424, R425). -/
structure PageMove where
  part : Nat
  va : Nat
  /-- Parked requests in order of arrival. -/
  parked : List Nat
  /-- The host has been asked to move it (host-assisted mode). -/
  asked : Bool
  /-- A remote mapping holds until its window ends: no fault moves the page. -/
  window : Bool
  /-- Wall time at which the first fault reached the directory; whether that was the host's, whether it found the page in
  host memory already, and whether the other side's came later (R425). -/
  since : Nat
  byHost : Bool
  idle : Bool
  lost : Bool
  /-- Where the host's fault moves the page. -/
  target : Nat
  deriving DecidableEq, Repr, Inhabited

/-- A saved core or thread set of an evicted partition: what the images hold (R428, R436). -/
structure Saved where
  part : Nat
  die : Nat
  cycle : Nat
  deriving DecidableEq, Repr, Inhabited

/-- What the die record of a die holds (R439) where the manual lays out no bytes, and what its images leave unsaid: the state
that they were made from, with the record itself, by which a resumption finds it (log 35, DESIGN CHOICE). -/
structure DieSave where
  part : Nat
  /-- The logical die, and the physical dies of the partition in logical order. -/
  index : Nat
  dies : List Nat
  /-- The die count, the pairs of neighbours and the stacks of the partition's shape (R25). -/
  links : List (Nat × Nat)
  straddles : List (Nat × Nat × Nat)
  record : List (Nat × Byte)
  die : Die
  cores : List Core
  threads : List Thread
  groups : List Group
  launches : List Launch
  deriving DecidableEq, Repr

/-- A trap record that reached a die's control cores (R172, R175), with a fault record or cycle list beside it. -/
structure TrapRecord where
  tid : Nat
  die : Nat
  rec512 : BitVec 512
  fault : Option FaultRec
  cycleList : BitVec 512
  deriving DecidableEq, Repr, Inhabited

/-- The state of the package. -/
structure State where
  me : Thread
  pre : Thread
  bun : Bundle
  /-- Memory: die memory, host memory, core buffers and firmware memory in one canonical list (Ops.lean gives the
  keys). -/
  mem : List Host.Cell
  /-- Memory at the start of the cycle being served (R151). -/
  mem0 : List Host.Cell
  /-- Granules with an uncorrectable error, as keys divided by 8 (R487). -/
  ecc : List Nat
  /-- Order (R142–R152): writes that some die cannot see yet, oldest first; release sequences; the FENCE.sc events so far. -/
  late : List Late
  msgs : List Msg
  /-- The key under which each 128-byte line of die memory was last written, by the identity of the key, and what such a line
  reads as under keys that it was read through since (R427): line, key, bytes. -/
  lineKeys : List (Nat × Nat)
  views : List (Nat × Nat × BitVec 1024)
  scLog : List MsgItem
  tick : Nat
  wall : Nat
  /-- Threads whose slot in this cycle has not been served. -/
  slots : List Nat
  threads : List Thread
  cores : List Core
  dies : List Die
  parts : List Partition
  launches : List Launch
  groups : List Group
  reqs : List Req
  /-- Ownership register of each stack: false port 0, true port 1 (R14). -/
  stackPort : BitVec 16
  /-- Parked requests of stacks in handover, in order of arrival (R411). -/
  parked : List Nat
  moves : List PageMove
  funcs : List Func
  cmds : List Cmd
  /-- Host accesses of a port that wait, in order (R153, R154), and the answers that the host has received: function, status (0
  successful, 1 Unsupported Request) and value (R444, R446). -/
  hostHeld : List (Nat × Event)
  hostReplies : List (Nat × Nat × Nat)
  mailbox : Vector Mailbox 2
  mgmt : List Mgmt
  io : Vector Io 2
  kaolin : Kaolin
  dz : List DzPort
  /-- Collective data on its way to other packages, in the order of sending (R401). -/
  flights : List Flight
  /-- Writes by cores since the oldest collective that stands was issued; none while none stands (R393). -/
  touched : Option (List Touch)
  /-- Records at the control cores (R172, R194). -/
  traps : List TrapRecord
  frecs : List FaultRec
  /-- Reports to the supervisor (R487, R405): kind and value. -/
  reports : List (Nat × Nat)
  saved : List Saved
  /-- What the die records written so far hold (R439). -/
  archive : List DieSave
  agenda : List Pending
  free : Nat
  nextId : Nat
  deriving DecidableEq, Repr

/-- Faults: no step of the Otset stops the machine, because every fault of the manual is a trap or a fault record,
both of them next states. Nothing raises one. -/
inductive Fault where
  deriving DecidableEq, Repr

/-- Refusals. -/
inductive Refusal where
  /-- An instruction whose meaning is not written yet. Raised by an arm of `exec` only; safe. -/
  | notModelled (mnemonic : String)
  deriving DecidableEq, Repr

/-- The control-core registers at reset (R464). -/
def Ctl.init : Ctl :=
  { pcall := 0, pstat := 0, psret := 0, mcmd := 0, gbase := Vector.replicate 4 0, glim := Vector.replicate 4 0,
    mstat := 0, budget := none, shX := Vector.replicate 32 0, shA := Vector.replicate 16 0,
    shE := Vector.replicate 8 0, shH := Vector.replicate 8 0, shC := 0 }

/-- A thread with every register at zero (R80), at user privilege, on turn 0 of core 0 of die 0. k0 reads all ones
by its accessor (R79; log 1, DESIGN CHOICE; log 106, DESIGN CHOICE; log 107, DESIGN CHOICE). -/
def Thread.init : Thread :=
  { tid := 0, lid := 0, part := 0, die := 0, core := 0, turn := 0, st := .exited, spilled := none, spilling := false, spillSeq := 0, spillZ := 0, yielded := false,
    priv := .user, stamped := false, prio := 0, x := Vector.replicate 32 0, a := Vector.replicate 16 0,
    v := Vector.replicate 16 0, k := Vector.replicate 8 0, q := Vector.replicate 8 0, e := Vector.replicate 8 0,
    h := Vector.replicate 8 0, c := 0, pc := 0, wid := 0, widf := 0, ext := Vector.replicate 6 0, rnd := 0,
    fflags := 0, seed := 0, dscale := Vector.replicate 8 0, cycHi := 0, lc := Vector.replicate 2 0,
    ls := Vector.replicate 2 0, le := Vector.replicate 2 0, tvec := 0, tcause := 0, tpc := 0, trec := 0,
    frRun := false, frNum := 0, frZ := 0, frOff := 0, frStart := 0, frLen := 1048576, target := none, barChk := [], longs := [], vdly := 0, vkept := 0, again := false, packet := none,
    stub := false, undefs := 0, stale := false, roomFor := none,
    rc := Timeline.init, rcOps := [], rcStores := 0, offReq := none, seen := [], before := [], trigIds := [], overIds := [], carry := [], got := [], reads := [], since := 0, recvFrom := 0, dlk := none,
    triggered := false, exiting := false, notice := 0, reportedOne := false, dest := none, ctl := Ctl.init }

/-- A bundle with nothing in it. -/
def Bundle.init : Bundle :=
  { next := 0, words := Vector.replicate 5 0, stamp := none, taken := none, lcWritten := 0, rndWritten := false,
    counts := 0, flags := 0, checked := false, stop := .none }

/-- A port, unbound, with the credit count of a neighbour port (R263). -/
def Port.init : Port :=
  { bound := none, credits := 4, inbox := [], out := none, inn := none, allow := 4, torn := false }

/-- The matrix engine of a core that a launch takes (R313, R315). -/
def Matrix.init : Matrix :=
  { owner := none, tl := Timeline.init, queue := [], rots := 0, notices := [] }

/-- The Prism engine as R335 resets it: delays 0, modes absent (01 in every cell), captures NEVER, list all ones. -/
def Prism.init : Prism :=
  { delay := Vector.replicate 4 0, mode := Vector.replicate 4 (BitVec.ofNat 8192 ((2 ^ 8192 - 1) / 3)),
    window := none, winIssued := false, dirty := 0, capt := Vector.replicate 4 (BitVec.allOnes 1024),
    list := BitVec.allOnes 512, tl := Timeline.init, queue := [] }

/-- A core whose buffers belong to no launch (R37, R261, R275). -/
def Core.init (d c : Nat) : Core :=
  { die := d, core := c, owner := none, scrubbing := false, reserved := [],
    copy := Vector.replicate 4 { tl := Timeline.init, queue := [] }, ports := Vector.replicate 8 Port.init,
    mat := Matrix.init, prism := Prism.init, arrivals := [], fwd := [], icache := [],
    collCount := [], locals := [] }

/-- A die in reset (R479), at nominal frequency (R45). -/
def Die.init (d : Nat) : Die :=
  { die := d, up := false, dead := false, routerOk := false, cyc := 0, base := 0, origin := 0, stopped := false, stopAt := 0, frozen := [], next := 0,
    freq := 20, warn := 0, stretch := 0, lastWarn := 0, lead := Vector.replicate 16 0, entries := [], ready := [], stealBack := 0, stealRank := 0, stealing := false,
    coll := Vector.replicate 16 { tl := Timeline.init, queue := [], arrived := [] }, task := Vector.replicate 9 Timeline.init,
    hand := Timeline.init, handQ := [], xl := Timeline.init, xlQ := [], pool := 0, tlb := [], fwslot := 0, corrected := Vector.replicate 3 0 }

/-- A function that no partition holds, with its registers at reset (R447) and the default slice of 1 ms (R468). -/
def Func.init (fn : Nat) : Func :=
  { fn := fn, part := none, home := false, pagm := false, mapm := false, trpm := false, en := false, bar2 := 0,
    wbase := 0, queues := [], tslice := 1000, pool := [], plugin := none, pluginFaulted := false, ring := [], posted := [],
    msix := [], errors := [] }

/-- A queue page at reset (R450). -/
def Queue.init (q : Nat) : Queue :=
  { q := q, pidx := 0, rbase := 0, rcfg := 0, cons := 0, mapped := false, pw := false, stop := false }

/-- The mailbox at reset (R473). -/
def Mailbox.init : Mailbox :=
  { mbcmd := 0, busy := false, status := 0, mblen := 0, mbrlen := 0, mbevt := 0, data := [] }

/-- A Dziaris port before training (R404, R482). -/
def DzPort.init (p : Nat) : DzPort :=
  { port := p, up := false, expect := 0, sendSeq := 0, replay := [], discarding := false, errors := 0,
    asked := none, rx := [] }

/-- The package right after reset (R479): only the Kaolin die has left reset, every stack is at port 0 (R14), no
partition exists and nothing runs. -/
def State.reset : State :=
  { me := Thread.init, pre := Thread.init, bun := Bundle.init, mem := [], mem0 := [], ecc := [], late := [], msgs := [], lineKeys := [], views := [], scLog := [], tick := 0, wall := 0,
    slots := [], threads := [], cores := [], dies := [], parts := [], launches := [], groups := [], reqs := [],
    stackPort := 0, parked := [], moves := [], funcs := [], cmds := [], hostHeld := [], hostReplies := [], mailbox := Vector.replicate 2 Mailbox.init,
    mgmt := [], io := #v[{ port := 0, slot := 0, update := none }, { port := 1, slot := 0, update := none }],
    kaolin := { mr := Vector.replicate 8 0, log := [], ready := 0, deadMap := 0, drawn := 0, nextDie := 0,
                tripped := false },
    dz := [], flights := [], touched := none, traps := [], frecs := [], reports := [], saved := [], archive := [], agenda := [], free := 0, nextId := 1 }

end Sys2Proof.Machine
end

