-- ==== Sys2Proof/Machine/Numbers.lean ====
section
/-! DEFINITION. Number formats, exact arithmetic and the rounding helpers of *Number formats and arithmetic*
(R103-R129). A value is exact (`FNum`) until one of the named helpers rounds it. -/

namespace Sys2Proof.Machine

/-- Flags in the layout of %fflags (R121). -/
abbrev Flags := BitVec 7

def Flags.nx : Flags := 0x01
def Flags.uf : Flags := 0x02
def Flags.of : Flags := 0x04
def Flags.dz : Flags := 0x08
def Flags.nv : Flags := 0x10
def Flags.sat : Flags := 0x20
def Flags.dsat : Flags := 0x40

/-- A flag when a condition holds. -/
def Flags.when (b : Bool) (f : Flags) : Flags := if b then f else 0

/-- The formats of R103 that carry values. -/
inductive Fmt where
  | f32 | bf16 | f16 | i32 | i16 | i8 | t8 | t6 | i64 | b64 | b32 | b16 | b8
  deriving DecidableEq, Repr, Inhabited

/-- The format of a type code, in its .b form when u is 1 (R76, R103, R111). -/
def Fmt.ofCode (y : BitVec 3) (u : Bool) : Fmt :=
  match y.toNat with
  | 0 => .f32 | 1 => .bf16 | 2 => .f16
  | 3 => if u then .b32 else .i32
  | 4 => if u then .b16 else .i16
  | 5 => if u then .b8 else .i8
  | 6 => .t8 | _ => .t6

/-- Bits an element takes in a lane or in memory (R103): T6 is stored in a byte. -/
def Fmt.width : Fmt → Nat
  | .f32 | .i32 | .b32 => 32
  | .bf16 | .f16 | .i16 | .b16 => 16
  | .i8 | .t8 | .t6 | .b8 => 8
  | .i64 | .b64 => 64

def Fmt.isInt : Fmt → Bool
  | .i32 | .i16 | .i8 | .i64 | .b64 | .b32 | .b16 | .b8 => true
  | _ => false

def Fmt.isSigned : Fmt → Bool
  | .i32 | .i16 | .i8 | .i64 => true
  | _ => false

def Fmt.isIeee : Fmt → Bool
  | .f32 | .bf16 | .f16 => true
  | _ => false

/-- Exponent and fraction bits of an IEEE format (R104). -/
def Fmt.expBits : Fmt → Nat
  | .f16 => 5
  | _ => 8
def Fmt.fracBits : Fmt → Nat
  | .f32 => 23
  | .bf16 => 7
  | _ => 10
/-- The bias (R104). -/
def Fmt.bias (f : Fmt) : Nat := 2 ^ (f.expBits - 1) - 1
/-- The canonical NaN (R104). -/
def Fmt.canonNaN (f : Fmt) : Nat := (2 ^ f.expBits - 1) * 2 ^ f.fracBits + 2 ^ (f.fracBits - 1)
/-- The pattern of +∞, and of the largest finite value below it. -/
def Fmt.infBits (f : Fmt) : Nat := (2 ^ f.expBits - 1) * 2 ^ f.fracBits
/-- The sign bit's place value. -/
def Fmt.signBit (f : Fmt) : Nat := 2 ^ (f.expBits + f.fracBits)

/-- FDecode (R106). -/
def fDecode (f : Fmt) (b : Nat) : FNum :=
  let mb := f.fracBits
  let neg := b.testBit (f.expBits + mb)
  let ex := (b / 2 ^ mb) % 2 ^ f.expBits
  let fr := b % 2 ^ mb
  if ex = 2 ^ f.expBits - 1 then (if fr = 0 then .inf neg else .nan (!fr.testBit (mb - 1)))
  else if ex = 0 then .fin neg fr (1 - (f.bias : Int) - mb)
  else .fin neg (2 ^ mb + fr) ((ex : Int) - f.bias - mb)

/-- The length of the run of bits equal to b from bit p−1 of m downward (R108). -/
def regimeRun (m : Nat) (b : Bool) : Nat → Nat
  | 0 => 0
  | p + 1 => if m.testBit p = b then regimeRun m b p + 1 else 0

/-- TMag (R108) as significand and exponent. -/
def tMag (m n : Nat) : Nat × Int :=
  let b := m.testBit (n - 1)
  let run := regimeRun m b n
  let k : Int := if b then (run : Int) - 1 else -(run : Int)
  let rest := n - run - 1
  if n ≤ run + 1 then (1, 2 * k)
  else
    let e : Int := if m.testBit (rest - 1) then 1 else 0
    let fb := rest - 1
    (2 ^ fb + m % 2 ^ fb, 2 * k + e - fb)

/-- T8Decode and T6Decode (R108): NaR is a quiet NaN. n is 7 for T8 and 5 for T6. -/
def tDecode (n c : Nat) : FNum :=
  let m := c % 2 ^ n
  if m = 0 then (if c.testBit n then .nan false else .fin false 0 0)
  else .fin (c.testBit n) (tMag m n).1 (tMag m n).2

/-- Magnitude bits of a T format (R109). -/
def Fmt.tBits : Fmt → Nat
  | .t8 => 7
  | _ => 5

/-- The two's complement or unsigned integer of an element of w bits (R111). -/
def intOf (f : Fmt) (b : Nat) : Int :=
  let v := b % 2 ^ f.width
  if f.isSigned && v.testBit (f.width - 1) then (v : Int) - 2 ^ f.width else v

/-- An exact integer as a value. -/
def FNum.ofInt (n : Int) : FNum := .fin (decide (n < 0)) n.natAbs 0

/-- Decode(fmt, b): the exact value of an element of any format. -/
def decodeNum (f : Fmt) (b : Nat) : FNum :=
  match f with
  | .f32 | .bf16 | .f16 => fDecode f b
  | .t8 => tDecode 7 b
  | .t6 => tDecode 5 b
  | _ => FNum.ofInt (intOf f b)

/-- NV of a signalling operand (R105). -/
def FNum.sigFlag : FNum → Flags
  | .nan true => Flags.nv
  | _ => 0

def FNum.isNaN : FNum → Bool
  | .nan _ => true
  | _ => false

def FNum.isZero : FNum → Bool
  | .fin _ 0 _ => true
  | _ => false

def FNum.sign : FNum → Bool
  | .nan _ => false
  | .inf n => n
  | .fin n _ _ => n

def FNum.negate : FNum → FNum
  | .nan q => .nan q
  | .inf n => .inf (!n)
  | .fin n m e => .fin (!n) m e

/-- The signed integer m × 2^(e − e0) of a finite value, for e0 ≤ e. -/
def scaled (neg : Bool) (m : Nat) (e e0 : Int) : Int :=
  let v : Int := m * 2 ^ (e - e0).toNat
  if neg then -v else v

/-- Exact sum (R117, R123): the flags are NV of a signalling operand or of ∞ − ∞, and an exact zero of opposite signs
takes its sign from the mode. -/
def FNum.add (mode : Nat) (a b : FNum) : FNum × Flags :=
  let fl := a.sigFlag ||| b.sigFlag
  match a, b with
  | .nan _, _ => (.nan false, fl)
  | _, .nan _ => (.nan false, fl)
  | .inf p, .inf q => if p = q then (.inf p, 0) else (.nan false, Flags.nv)
  | .inf p, _ => (.inf p, 0)
  | _, .inf q => (.inf q, 0)
  | .fin p m e, .fin q n g =>
    let e0 := if e ≤ g then e else g
    let v := scaled p m e e0 + scaled q n g e0
    if v = 0 then (.fin (if p = q then p else mode == 3) 0 0, 0)
    else (.fin (decide (v < 0)) v.natAbs e0, 0)

/-- Exact product (R123). -/
def FNum.mul (a b : FNum) : FNum × Flags :=
  let fl := a.sigFlag ||| b.sigFlag
  let sg := xor a.sign b.sign
  match a, b with
  | .nan _, _ => (.nan false, fl)
  | _, .nan _ => (.nan false, fl)
  | .inf _, y => if y.isZero then (.nan false, Flags.nv) else (.inf sg, 0)
  | x, .inf _ => if x.isZero then (.nan false, Flags.nv) else (.inf sg, 0)
  | .fin _ m e, .fin _ n g => (.fin sg (m * n) (e + g), 0)

/-- Exact x × y + z: NV of the product and of the sum. -/
def FNum.fma (mode : Nat) (x y z : FNum) : FNum × Flags :=
  let p := x.mul y
  let r := p.1.add mode z
  (r.1, p.2 ||| r.2)

/-- Exact scaling by a power of two. -/
def FNum.scale (k : Int) : FNum → FNum
  | .fin n m e => .fin n m (e + k)
  | x => x

/-- a < b, a = b over the finite values and the infinities; −0 = +0 (R125). NaN never compares. -/
def FNum.lt (a b : FNum) : Bool :=
  match a, b with
  | .nan _, _ => false
  | _, .nan _ => false
  | .inf p, .inf q => p && !q
  | .inf p, _ => p
  | _, .inf q => !q
  | .fin p m e, .fin q n g =>
    let e0 := if e ≤ g then e else g
    decide (scaled p m e e0 < scaled q n g e0)
def FNum.eq (a b : FNum) : Bool := !a.isNaN && !b.isNaN && !a.lt b && !b.lt a

/-! Rounding. A magnitude is m × 2^e, or strictly between it and (m + 1) × 2^e when `sticky`. -/

/-- floor(log2 m) + 1, 0 for 0. -/
def bitLen (m : Nat) : Nat := if m = 0 then 0 else m.log2 + 1

/-- Whether a magnitude whose remainder below the kept quantum is rem out of 2^sh rounds up to n + 1
(R117, R118). Mode 5 weighs the distance from the lower value, which is the larger magnitude when x is negative. -/
def roundsUp (mode : Nat) (neg : Bool) (n rem sh : Nat) (sticky : Bool) (sr : Nat) : Bool :=
  let inexact := rem ≠ 0 || sticky
  match mode with
  | 0 => decide (2 ^ sh < 2 * rem) || (decide (2 * rem = 2 ^ sh) && (sticky || n % 2 = 1) && inexact)
  | 1 => false
  | 2 => !neg && inexact
  | 3 => neg && inexact
  | 4 => decide (2 ^ sh ≤ 2 * rem) && inexact
  | _ =>
    if neg then !decide (sr * 2 ^ sh < (2 ^ sh - rem) * 2 ^ 32)
    else
      let q := rem * 2 ^ 32 / 2 ^ sh
      decide (sr < q) || (decide (q = sr) && (rem * 2 ^ 32 % 2 ^ sh ≠ 0 || sticky))

/-- The multiple of 2^q that a magnitude rounds to, as its count of quanta, and whether it is inexact. -/
def quantise (mode : Nat) (neg : Bool) (m : Nat) (e q : Int) (sticky : Bool) (sr : Nat) : Nat × Bool :=
  if q ≤ e then (m * 2 ^ (e - q).toNat, sticky)
  else
    let sh := (q - e).toNat
    let n := m / 2 ^ sh
    let rem := m % 2 ^ sh
    (if roundsUp mode neg n rem sh sticky sr then n + 1 else n, rem ≠ 0 || sticky)

/-- RoundTo an IEEE format of a nonzero magnitude (R117): the pattern and the flags. -/
def roundIeee (f : Fmt) (mode : Nat) (neg : Bool) (m : Nat) (e : Int) (sticky : Bool) (sr : Nat) : Nat × Flags :=
  let mb : Int := f.fracBits
  let bias : Int := f.bias
  let emin : Int := 1 - bias
  let ex : Int := (bitLen m : Int) - 1 + e
  let q : Int := (if emin ≤ ex then ex else emin) - mb
  let big := decide (bias < ex) ||
    (decide (ex = bias) && decide (2 ^ (f.fracBits + 1) - 1 ≤ (quantise 1 neg m e q sticky sr).1))
  let md := if mode = 5 && big then 0 else mode
  let r := quantise md neg m e q sticky sr
  let sgn := if neg then f.signBit else 0
  let limit := 2 ^ (f.fracBits + 1)
  if bias - mb < q || (q = bias - mb && limit ≤ r.1) then
    let toInf := match md with
      | 1 => false
      | 2 => !neg
      | 3 => neg
      | _ => true
    (sgn + (if toInf then f.infBits else f.infBits - 1), Flags.of ||| Flags.nx)
  else
    let bits := if q = emin - mb then r.1 else ((q + mb + bias).toNat - 1) * 2 ^ f.fracBits + r.1
    let u := quantise md neg m e (ex - mb) sticky sr
    let tiny := decide (ex < emin) &&
      !(decide (ex = emin - 1) && decide (limit ≤ u.1))
    (sgn + bits, Flags.when r.2 Flags.nx ||| Flags.when (r.2 && tiny) Flags.uf)

/-- A magnitude against a dyadic n × 2^g: below, equal, above as −1, 0, 1. -/
def cmpMag (m : Nat) (e : Int) (sticky : Bool) (n : Nat) (g : Int) : Int :=
  let e0 := if e ≤ g then e else g
  let a := scaled false m e e0
  let b := scaled false n g e0
  if a < b then -1 else if a = b then (if sticky then 1 else 0) else 1

/-- How many of the codes 1 to p of an n-bit T format have a magnitude at most m × 2^e. As magnitudes grow with
the code (R108), this is the greatest such code. -/
def tFloor (n m : Nat) (e : Int) (sticky : Bool) : Nat → Nat
  | 0 => 0
  | p + 1 => if 0 ≤ cmpMag m e sticky (tMag (p + 1) n).1 (tMag (p + 1) n).2 then p + 1 else tFloor n m e sticky p

/-- TEncode of a nonzero magnitude, +∞ as m = 0 with `isInf` (R109). -/
def roundT (n mode : Nat) (neg isInf : Bool) (m : Nat) (e : Int) (sticky : Bool) (sr : Nat) : Nat × Flags :=
  let sgn := if neg then 2 ^ n else 0
  let top := 2 * ((n : Int) - 1)
  if isInf || 0 < cmpMag m e sticky 1 top then (sgn + (2 ^ n - 1), Flags.sat ||| Flags.nx)
  else if cmpMag m e sticky 1 (-top) < 0 then (sgn + 1, Flags.sat ||| Flags.nx)
  else
    let lo := tFloor n m e sticky (2 ^ n - 1)
    let l := tMag lo n
    if cmpMag m e sticky l.1 l.2 = 0 then (sgn + lo, 0)
    else
      let h := tMag (lo + 1) n
      let e0 := if e ≤ l.2 then (if e ≤ h.2 then e else h.2) else (if l.2 ≤ h.2 then l.2 else h.2)
      let a := (scaled false m e e0).toNat
      let lv := (scaled false l.1 l.2 e0).toNat
      let hv := (scaled false h.1 h.2 e0).toNat
      let up := match mode with
        | 0 => decide (lv + hv < 2 * a) || (decide (2 * a = lv + hv) && (sticky || lo % 2 = 1))
        | 1 => false
        | 2 => !neg
        | 3 => neg
        | 4 => decide (lv + hv ≤ 2 * a)
        | _ =>
          let qn := (a - lv) * 2 ^ 32 / (hv - lv)
          decide (sr < qn) || (decide (qn = sr) && ((a - lv) * 2 ^ 32 % (hv - lv) ≠ 0 || sticky))
      (sgn + (if up then lo + 1 else lo), Flags.nx)

/-- Round a finite value to an integer under a mode (R126), and whether that is inexact. -/
def roundInt (mode : Nat) (neg : Bool) (m : Nat) (e : Int) (sr : Nat) : Int × Bool :=
  let r := quantise mode neg m e 0 false sr
  (if neg then -(r.1 : Int) else r.1, r.2)

/-- The least and greatest integer of an integer format (R112). -/
def Fmt.minInt (f : Fmt) : Int := if f.isSigned then -(2 ^ (f.width - 1)) else 0
def Fmt.maxInt (f : Fmt) : Int := if f.isSigned then 2 ^ (f.width - 1) - 1 else 2 ^ f.width - 1

/-- The bit pattern of an integer in w bits. -/
def intBits (w : Nat) (v : Int) : Nat := (v % (2 ^ w : Int)).toNat

/-- Saturate (R112), as the element's bit pattern. -/
def saturate (f : Fmt) (v : Int) : Nat × Flags :=
  if v < f.minInt then (intBits f.width f.minInt, Flags.sat)
  else if f.maxInt < v then (intBits f.width f.maxInt, Flags.sat)
  else (intBits f.width v, 0)

/-- A value to an integer format (R126): NaN gives 0 with NV, a value out of range the nearer bound with NV. -/
def toIntFmt (f : Fmt) (mode : Nat) (x : FNum) (sr : Nat) : Nat × Flags :=
  match x with
  | .nan _ => (0, Flags.nv)
  | .inf n => (intBits f.width (if n then f.minInt else f.maxInt), Flags.nv)
  | .fin n m e =>
    let r := roundInt mode n m e sr
    if r.1 < f.minInt then (intBits f.width f.minInt, Flags.nv)
    else if f.maxInt < r.1 then (intBits f.width f.maxInt, Flags.nv)
    else (intBits f.width r.1, Flags.when r.2 Flags.nx)

/-- RoundTo (R117) and TEncode (R109) of an exact value. A NaN gives the canonical NaN without a flag: the caller
raises NV where its operation does; TEncode raises its own. -/
def roundTo (f : Fmt) (mode : Nat) (x : FNum) (sr : Nat) : Nat × Flags :=
  match f with
  | .t8 | .t6 =>
    match x with
    | .nan _ => (2 ^ f.tBits, Flags.nv)
    | .inf n => roundT f.tBits mode n true 0 0 false sr
    | .fin n m e => if m = 0 then (0, 0) else roundT f.tBits mode n false m e false sr
  | .f32 | .bf16 | .f16 =>
    match x with
    | .nan _ => (f.canonNaN, 0)
    | .inf n => ((if n then f.signBit else 0) + f.infBits, 0)
    | .fin n m e => if m = 0 then ((if n then f.signBit else 0), 0) else roundIeee f mode n m e false sr
  | _ => toIntFmt f mode x sr

/-! Division, roots, powers and logarithms (R123, R235): the exact value where it is dyadic, else a magnitude with
`sticky` of more bits than any rounding reads. -/

/-- The greatest r + k × 2^b, bit by bit, whose square is at most n. -/
def isqrtGo (n : Nat) : Nat → Nat → Nat
  | 0, r => r
  | b + 1, r => isqrtGo n b (if (r + 2 ^ b) * (r + 2 ^ b) ≤ n then r + 2 ^ b else r)
/-- floor(√n). -/
def isqrt (n : Nat) : Nat := isqrtGo n (bitLen n / 2 + 1) 0

/-- Round a quotient of finite nonzero magnitudes. -/
def quotient (f : Fmt) (mode : Nat) (neg : Bool) (m : Nat) (e : Int) (n : Nat) (g : Int) (sr : Nat) : Nat × Flags :=
  let v := m * 2 ^ 128
  roundIeee f mode neg (v / n) (e - g - 128) (v % n ≠ 0) sr

/-- VFDIV's quotient (R123). -/
def divNum (f : Fmt) (mode : Nat) (a b : FNum) (sr : Nat) : Nat × Flags :=
  let fl := a.sigFlag ||| b.sigFlag
  let sg := xor a.sign b.sign
  let sb := if sg then f.signBit else 0
  match a, b with
  | .nan _, _ => (f.canonNaN, fl)
  | _, .nan _ => (f.canonNaN, fl)
  | .inf _, .inf _ => (f.canonNaN, Flags.nv)
  | .inf _, _ => (sb + f.infBits, 0)
  | _, .inf _ => (sb, 0)
  | .fin _ m e, .fin _ n g =>
    if n = 0 then (if m = 0 then (f.canonNaN, Flags.nv) else (sb + f.infBits, Flags.dz))
    else if m = 0 then (sb, 0)
    else quotient f mode sg m e n g sr

/-- The square root (R123). -/
def sqrtNum (f : Fmt) (mode : Nat) (a : FNum) (sr : Nat) : Nat × Flags :=
  match a with
  | .nan _ => (f.canonNaN, a.sigFlag)
  | .inf n => if n then (f.canonNaN, Flags.nv) else (f.infBits, 0)
  | .fin n m e =>
    if m = 0 then ((if n then f.signBit else 0), 0)
    else if n then (f.canonNaN, Flags.nv)
    else
      let m' := if e % 2 = 0 then m else 2 * m
      let e' := if e % 2 = 0 then e else e - 1
      let v := m' * 2 ^ 160
      let r := isqrt v
      roundIeee f mode false r (e' / 2 - 80) (r * r ≠ v) sr

/-- The reciprocal square root (R123, R235): +∞ for +0 and −∞ for −0 with DZ. -/
def rsqrtNum (f : Fmt) (mode : Nat) (a : FNum) (sr : Nat) : Nat × Flags :=
  match a with
  | .nan _ => (f.canonNaN, a.sigFlag)
  | .inf n => if n then (f.canonNaN, Flags.nv) else (0, 0)
  | .fin n m e =>
    if m = 0 then ((if n then f.signBit else 0) + f.infBits, Flags.dz)
    else if n then (f.canonNaN, Flags.nv)
    else
      let m' := if e % 2 = 0 then m else 2 * m
      let e' := if e % 2 = 0 then e else e - 1
      let r := isqrt (2 ^ 300 / m')
      roundIeee f mode false r (-(e' / 2) - 150) (r * r * m' ≠ 2 ^ 300) sr

/-- Fraction bits of the fixed point that encloses powers and logarithms. Log 15, DESIGN CHOICE. -/
def fixBits : Nat := 320

/-- 2 × Σ z^(2i+1)/(2i+1) in fixed point, z and its square given: the logarithm of (1 + z)/(1 − z). -/
def atanhSum (z2 : Nat) : Nat → Nat → Nat → Nat → Nat
  | 0, _, _, acc => acc
  | fuel + 1, t, i, acc => atanhSum z2 fuel (t * z2 / 2 ^ fixBits) (i + 2) (acc + 2 * t / i)
/-- ln((1 + n/d)/(1 − n/d)) in fixed point. -/
def atanhFix (n d : Nat) : Nat :=
  let z := n * 2 ^ fixBits / d
  atanhSum (z * z / 2 ^ fixBits) 120 z 1 0
/-- ln 2 in fixed point. -/
def ln2Fix : Nat := atanhFix 1 3

/-- Σ y^i/i! in fixed point. -/
def expSum (y : Nat) : Nat → Nat → Nat → Nat → Nat
  | 0, _, _, acc => acc
  | fuel + 1, t, i, acc => expSum y fuel (t * y / 2 ^ fixBits / i) (i + 1) (acc + t)

/-- 2 to the power of a value (R235): correctly rounded. -/
def exp2Num (f : Fmt) (mode : Nat) (a : FNum) (sr : Nat) : Nat × Flags :=
  match a with
  | .nan _ => (f.canonNaN, a.sigFlag)
  | .inf n => if n then (0, 0) else (f.infBits, 0)
  | .fin n m e =>
    if m = 0 then roundIeee f mode false 1 0 false sr
    else if 10 ≤ (bitLen m : Int) - 1 + e then
      roundIeee f mode false (2 ^ 80) (if n then -1000 else 1000) true sr
    else
      -- x in fixed point; its bits below 2^−320 only make the result inexact
      let x : Int := scaled n (if -(fixBits : Int) ≤ e then m else m / 2 ^ (-(fixBits : Int) - e).toNat)
        (if -(fixBits : Int) ≤ e then e else -(fixBits : Int)) (-(fixBits : Int))
      let ip : Int := x / 2 ^ fixBits
      let fp : Nat := (x % 2 ^ fixBits).toNat
      if fp = 0 then roundIeee f mode false 1 ip false sr
      else
        let v := expSum (fp * ln2Fix / 2 ^ fixBits) 80 (2 ^ fixBits) 1 0
        roundIeee f mode false (v / 2 ^ 20) (ip - fixBits + 20) true sr

/-- The base-2 logarithm (R123, R235): correctly rounded. -/
def log2Num (f : Fmt) (mode : Nat) (a : FNum) (sr : Nat) : Nat × Flags :=
  match a with
  | .nan _ => (f.canonNaN, a.sigFlag)
  | .inf n => if n then (f.canonNaN, Flags.nv) else (f.infBits, 0)
  | .fin n m e =>
    if m = 0 then (f.signBit + f.infBits, Flags.dz)
    else if n then (f.canonNaN, Flags.nv)
    else
      let ex : Int := (bitLen m : Int) - 1 + e
      let one := 2 ^ (bitLen m - 1)
      if m = one then
        (if ex = 0 then (0, 0) else roundIeee f mode (decide (ex < 0)) ex.natAbs 0 false sr)
      else
        let l := atanhFix (m - one) (m + one) * 2 ^ fixBits / ln2Fix
        let v : Int := ex * 2 ^ fixBits + l
        roundIeee f mode (decide (v < 0)) (v.natAbs / 2 ^ 20) (-(fixBits : Int) + 20) true sr

/-! Minimum, maximum and comparison (R124, R125). -/

/-- minimumNumber (`big` false) and maximumNumber of two IEEE patterns: a lone NaN yields the other operand bit for
bit, −0 is less than +0. -/
def minMaxNum (f : Fmt) (big : Bool) (a b : Nat) : Nat × Flags :=
  let x := fDecode f a
  let y := fDecode f b
  let fl := x.sigFlag ||| y.sigFlag
  if x.isNaN && y.isNaN then (f.canonNaN, fl)
  else if x.isNaN then (b, fl)
  else if y.isNaN then (a, fl)
  else
    let less := x.lt y || (x.eq y && x.sign && !y.sign)
    (if less != big then a else b, 0)

/-- Floating compares of R125: kinds 0 eq, 1 ne, 2 lt, 3 le. -/
def cmpNum (f : Fmt) (kind a b : Nat) : Bool × Flags :=
  let x := fDecode f a
  let y := fDecode f b
  let nan := x.isNaN || y.isNaN
  let fl := if 2 ≤ kind then Flags.when nan Flags.nv else x.sigFlag ||| y.sigFlag
  let r := match kind with
    | 0 => x.eq y
    | 1 => !x.eq y
    | 2 => x.lt y
    | _ => x.lt y || x.eq y
  (r, fl)

/-- Conversion of an element between formats (R126). NV of a signalling source; NaR raises nothing on the way to an
IEEE format or to the other T format. -/
def convert (src dst : Fmt) (mode : Nat) (b : Nat) (sr : Nat) : Nat × Flags :=
  if src.isInt && dst.isInt then
    let v := intOf src b
    if src.width < dst.width then (intBits dst.width v, 0) else saturate dst v
  else
    let x := decodeNum src b
    if dst.isInt then
      let r := toIntFmt dst mode x sr
      (r.1, r.2 ||| x.sigFlag)
    else if dst.isIeee then
      let r := roundTo dst mode x sr
      (r.1, r.2 ||| x.sigFlag)
    else if x.isNaN && !src.isIeee then (2 ^ dst.tBits, 0)
    else roundTo dst mode x sr

/-! Stochastic bits (R118). -/

/-- Mix, modulo 2^64. -/
def mix64 (z : W64) : W64 :=
  let z := z ^^^ (z >>> 31)
  let z := z * 0xA3B195C72E4D6F19#64
  let z := z ^^^ (z >>> 29)
  let z := z * 0xD6E8FEB86659FD93#64
  z ^^^ (z >>> 32)

/-- SRBits(l, j) of a thread's %wid and %seed and a counter value. -/
def srBits (wid : W64) (seed : W32) (cnt : Nat) (l j : Nat) : Nat :=
  let h := mix64 (wid ^^^ (seed.setWidth 64 <<< 32))
  let k := (BitVec.ofNat 64 cnt <<< 16) ||| (BitVec.ofNat 64 l <<< 8) ||| BitVec.ofNat 64 j
  ((mix64 (h ^^^ k)).extractLsb' 0 32).toNat

/-- What a rounding takes from the issuing thread (R120): mode, identity, seed and counter value. -/
structure RndCtx where
  mode : Nat
  wid : W64
  seed : W32
  cnt : Nat
  deriving DecidableEq, Repr, Inhabited

/-- The SRBits of a context; modes other than 5 read none. -/
def RndCtx.sr (r : RndCtx) (l j : Nat) : Nat := if r.mode = 5 then srBits r.wid r.seed r.cnt l j else 0

/-! Deterministic fixed point (R114). -/

def poison : Int := -(2 ^ 63)
def detMax : Int := 2 ^ 63 - 1

/-- DetQuant. -/
def detQuant (x : FNum) (fb : Int) : Int × Flags :=
  match x with
  | .nan _ => (poison, Flags.nv)
  | .inf n => (if n then -detMax else detMax, Flags.dsat)
  | .fin n m e =>
    let r := roundInt 0 n m (e + fb) 0
    let nx := Flags.when r.2 Flags.nx
    if detMax < r.1 then (detMax, nx ||| Flags.dsat)
    else if r.1 < -detMax then (-detMax, nx ||| Flags.dsat)
    else (r.1, nx)

/-- DetAdd. -/
def detAdd (p q : Int) : Int × Flags :=
  if p = poison || q = poison then (poison, 0)
  else if detMax < p + q then (detMax, Flags.dsat)
  else if p + q < -detMax then (-detMax, Flags.dsat)
  else (p + q, 0)

/-- DetValue. -/
def detValue (n : Int) (fb : Int) (f : Fmt) (mode sr : Nat) : Nat × Flags :=
  if n = poison then ((if f.isIeee then f.canonNaN else 2 ^ f.tBits), 0)
  else roundTo f mode ((FNum.ofInt n).scale (-fb)) sr

/-! Summation orders (R127, R128), over a list of 64 × P exact values with the accumulation format's patterns. -/

/-- One step of a tree or scan: t[i] and t[k] to RoundTo(F, t[i] + t[k]). -/
def addRound (f : Fmt) (r : RndCtx) (a b : FNum) (i step : Nat) : FNum × Flags :=
  let v := a.add r.mode b
  let w := roundTo f r.mode v.1 (r.sr (i % 64) (4 * step + i / 64))
  (fDecode f w.1, v.2 ||| w.2)

/-- The tree of R127 with s pairs at the first step; `fuel` steps. -/
def reduceTree (f : Fmt) (r : RndCtx) : Nat → Nat → List FNum → Flags → FNum × Flags
  | 0, _, t, fl => (t.headD (.fin true 0 0), fl)
  | fuel + 1, step, t, fl =>
    let s := t.length / 2
    if s = 0 then (t.headD (.fin true 0 0), fl)
    else
      let pairs := (t.take s).zip (t.drop s)
      let rs := pairs.zipIdx.map (fun p => addRound f r p.1.1 p.1.2 p.2 step)
      reduceTree f r fuel (step + 1) (rs.map (·.1)) (rs.foldl (fun a p => a ||| p.2) fl)

/-- The scan of R128 with distance s. -/
def scanSteps (f : Fmt) (r : RndCtx) : Nat → Nat → Nat → List FNum → Flags → List FNum × Flags
  | 0, _, _, t, fl => (t, fl)
  | fuel + 1, step, s, t, fl =>
    if t.length ≤ s then (t, fl)
    else
      let rs := ((t.take (t.length - s)).zip (t.drop s)).zipIdx.map
        (fun p => addRound f r p.1.1 p.1.2 (p.2 + s) step)
      scanSteps f r fuel (step + 1) (2 * s) (t.take s ++ rs.map (·.1)) (rs.foldl (fun a p => a ||| p.2) fl)

/-! Block scales and group sums (R110, R129). -/

/-- BlockValue. -/
def blockValue (f : Fmt) (elem e : Nat) : FNum :=
  if e = 255 then .nan false
  else
    match decodeNum f elem with
    | .nan q => .nan (if f.isIeee then q else false)
    | v => v.scale ((e : Int) - 127)

/-- The exact sum of a group's products with the flags of R129: a product of 0 and ∞ and a sum that holds both
infinities raise NV, whatever the order of the products. -/
def groupSum (mode : Nat) (ps : List (FNum × FNum)) : FNum × Flags :=
  let ms := ps.map (fun p => p.1.mul p.2)
  let both := ms.any (fun m => m.1 == .inf false) && ms.any (fun m => m.1 == .inf true)
  let fl := ms.foldl (fun a m => a ||| m.2) (Flags.when both Flags.nv)
  if both || ms.any (·.1.isNaN) then (.nan false, fl)
  else
    match ms with
    | [] => (.fin false 0 0, fl)
    | m :: rest => (rest.foldl (fun a q => (a.add mode q.1).1) m.1, fl)

end Sys2Proof.Machine
end

