-- ==== Sys2Proof/Machine/Ops.lean ====
section
/-! DEFINITION. The named operations over registers, memory and the other parts of the state that every meaning is
written with, and taking a trap and returning from one (R172-R176, R196, R467). -/

namespace Sys2Proof.Machine

/-- What a meaning answers. -/
abbrev Out := Host.Outcome State Fault Refusal

/-- Replace the first entry that p picks, or append. -/
def upsert {α : Type} (p : α → Bool) (x : α) : List α → List α
  | [] => [x]
  | y :: ys => if p y then x :: ys else y :: upsert p x ys

/-- The first element that p picks, replaced by its image. -/
def updFirst {α : Type} (p : α → Bool) (f : α → α) : List α → List α
  | [] => []
  | y :: ys => if p y then f y :: ys else y :: updFirst p f ys

/-- Register i of a file. -/
def rd {n w : Nat} (f : RegFile n w) (i : Nat) : BitVec w := f[i]?.getD 0
/-- A file with register i written. -/
def wr {n w : Nat} (f : RegFile n w) (i : Nat) (v : BitVec w) : RegFile n w := f.setIfInBounds i v

/-- Element i of width w of a vector register or of any packed image (R3). -/
def elem {n : Nat} (w : Nat) (v : BitVec n) (i : Nat) : BitVec w := v.extractLsb' (w * i) w
/-- The image with element i of width w replaced. -/
def setElem {n : Nat} (w : Nat) (v : BitVec n) (i : Nat) (x : BitVec w) : BitVec n :=
  let m := (BitVec.allOnes w).setWidth n <<< (w * i)
  (v &&& ~~~m) ||| (x.setWidth n <<< (w * i))
/-- The image whose elements are f 0 to f (k − 1), from the low end (R3). -/
def packElems (n w : Nat) (f : Nat → BitVec w) : Nat → BitVec n
  | 0 => 0
  | k + 1 => packElems n w f k ||| ((f k).setWidth n <<< (w * k))
/-- A field of a record at a byte offset (R3). -/
def place {w : Nat} (n off : Nat) (v : BitVec w) : BitVec n := v.setWidth n <<< (8 * off)
/-- A Boolean as one bit of a record. -/
def bit (b : Bool) (i : Nat) : Nat := if b then 2 ^ i else 0

/-! ### Memory: one canonical list of bytes (log 10, DESIGN CHOICE gives the keys) -/

/-- The key of a byte of a stack, of the host memory behind a port, of a core buffer (0 WB, 1 AB, 2 CB) and of
firmware memory. -/
def stackKey (st off : Nat) : Nat := st * 2 ^ 36 + off
def hostKey (port addr : Nat) : Nat := 2 ^ 64 * (port + 1) + addr
def bufKey (die core buf off : Nat) : Nat := 2 ^ 72 + ((die * 512 + core) * 4 + buf) * 2 ^ 20 + off
def fwKey (die off : Nat) : Nat := 2 ^ 80 + die * 2 ^ 24 + off

/-- The byte at a key; an unlisted key reads as `Config.blank`. -/
def memGet : List Host.Cell → Nat → Byte
  | [], _ => Config.blank
  | (a, b) :: r, k => if k < a then Config.blank else if k = a then b else memGet r k

/-- Write a byte, keeping the canonical form: a blank byte is not listed. -/
def memSet (m : List Host.Cell) (k : Nat) (v : Byte) : List Host.Cell :=
  match m with
  | [] => if v = Config.blank then [] else [(k, v)]
  | (a, b) :: r =>
    if k < a then (if v = Config.blank then (a, b) :: r else (k, v) :: (a, b) :: r)
    else if k = a then (if v = Config.blank then r else (k, v) :: r)
    else (a, b) :: memSet r k v

/-- The canonical form: keys rise strictly and no listed byte is blank. -/
abbrev Memory.wf (m : List Host.Cell) : Prop :=
  m.Pairwise (fun a b => a.1 < b.1) ∧ ∀ c ∈ m, c.2 ≠ Config.blank

/-- The n bytes from k as a little-endian number (R3). -/
def memRead (m : List Host.Cell) (k : Nat) : Nat → Nat
  | 0 => 0
  | n + 1 => (memGet m k).toNat + 256 * memRead m (k + 1) n

/-- Write n bytes from k, little-endian (R3). -/
def memWrite (m : List Host.Cell) (k : Nat) : Nat → Nat → List Host.Cell
  | 0, _ => m
  | n + 1, v => memWrite (memSet m k (BitVec.ofNat 8 v)) (k + 1) n (v / 256)

/-- Blank the n bytes from k. -/
def memClear (m : List Host.Cell) (k n : Nat) : List Host.Cell :=
  m.filter (fun c => decide (c.1 < k) || decide (k + n ≤ c.1))

/-- Cells in rising order made canonical: blank ones, and ones that do not rise, are dropped. -/
def canonCells : List Host.Cell → List Host.Cell
  | [] => []
  | c :: r =>
    match canonCells r with
    | [] => if c.2 = Config.blank then [] else [c]
    | d :: t => if c.2 ≠ Config.blank && c.1 < d.1 then c :: d :: t else d :: t

/-- Replace the n bytes from k: all blank but the listed offsets. -/
def memSplice (m : List Host.Cell) (k n : Nat) (bytes : List (Nat × Byte)) : List Host.Cell :=
  let new := (bytes.filter (fun b => decide (b.1 < n))).map (fun b => (k + b.1, b.2))
  m.filter (fun c => decide (c.1 < k)) ++ canonCells (new.mergeSort (fun a b => decide (a.1 ≤ b.1))) ++
    m.filter (fun c => decide (k + n ≤ c.1))

/-- Read n bytes as a bit vector. -/
def State.load (s : State) (k n w : Nat) : BitVec w := BitVec.ofNat w (memRead s.mem k n)
/-- The same from memory at the start of the cycle (R151). -/
def State.load0 (s : State) (k n w : Nat) : BitVec w := BitVec.ofNat w (memRead s.mem0 k n)
/-- Store n bytes; granules that the store covers whole lose their uncorrectable error (R487). -/
def State.store {w : Nat} (s : State) (k n : Nat) (v : BitVec w) : State :=
  { s with mem := memWrite s.mem k n v.toNat
           ecc := s.ecc.filter (fun g => !(decide (k ≤ 8 * g) && decide (8 * g + 8 ≤ k + n))) }
/-- Zero a range, as a scrub does (R37, R416). -/
def State.clear (s : State) (k n : Nat) : State :=
  { s with mem := memClear s.mem k n
           ecc := s.ecc.filter (fun g => !(decide (k ≤ 8 * g) && decide (8 * g + 8 ≤ k + n))) }
/-- Replace a range by bytes at offsets, all others zero (R436). -/
def State.splice (s : State) (k n : Nat) (bytes : List (Nat × Byte)) : State :=
  { s with mem := memSplice s.mem k n bytes
           ecc := s.ecc.filter (fun g => !(decide (k ≤ 8 * g) && decide (8 * g + 8 ≤ k + n))) }
/-- A read of [k, k + n) meets an uncorrectable granule (R487). -/
def State.eccRead (s : State) (k n : Nat) : Bool :=
  n ≠ 0 && s.ecc.any (fun g => decide (8 * g < k + n) && decide (k < 8 * g + 8))
/-- A write of [k, k + n) meets an uncorrectable granule that it does not cover (R487). -/
def State.eccWrite (s : State) (k n : Nat) : Bool :=
  n ≠ 0 && s.ecc.any (fun g => decide (8 * g < k + n) && decide (k < 8 * g + 8) &&
    !(decide (k ≤ 8 * g) && decide (8 * g + 8 ≤ k + n)))

/-! ### Access to the parts of the state -/

def State.getCore (s : State) (d c : Nat) : Core :=
  (s.cores.find? (fun x => x.die == d && x.core == c)).getD (Core.init d c)
def State.setCore (s : State) (c : Core) : State :=
  { s with cores := upsert (fun x => x.die == c.die && x.core == c.core) c s.cores }
def State.getDie (s : State) (d : Nat) : Die := (s.dies.find? (fun x => x.die == d)).getD (Die.init d)
def State.setDie (s : State) (d : Die) : State := { s with dies := upsert (fun x => x.die == d.die) d s.dies }
def State.getPart? (s : State) (p : Nat) : Option Partition := s.parts.find? (fun x => x.num == p)
def State.setPart (s : State) (p : Partition) : State :=
  { s with parts := upsert (fun x => x.num == p.num) p s.parts }
def State.getLaunch? (s : State) (l : Nat) : Option Launch := s.launches.find? (fun x => x.lid == l)
def State.setLaunch (s : State) (l : Launch) : State :=
  { s with launches := upsert (fun x => x.lid == l.lid) l s.launches }
def State.getReq? (s : State) (r : Nat) : Option Req := s.reqs.find? (fun x => x.rid == r)
def State.setReq (s : State) (r : Req) : State := { s with reqs := upsert (fun x => x.rid == r.rid) r s.reqs }
def State.dropReq (s : State) (r : Nat) : State := { s with reqs := s.reqs.filter (fun x => x.rid != r) }
def State.getGroup? (s : State) (g : Nat) : Option Group := s.groups.find? (fun x => x.gid == g)
def State.setGroup (s : State) (g : Group) : State :=
  { s with groups := upsert (fun x => x.gid == g.gid) g s.groups }
def State.getFunc (s : State) (f : Nat) : Func := (s.funcs.find? (fun x => x.fn == f)).getD (Func.init f)
def State.setFunc (s : State) (f : Func) : State := { s with funcs := upsert (fun x => x.fn == f.fn) f s.funcs }
def State.getCmd? (s : State) (c : Nat) : Option Cmd := s.cmds.find? (fun x => x.cid == c)
def State.setCmd (s : State) (c : Cmd) : State := { s with cmds := upsert (fun x => x.cid == c.cid) c s.cmds }
def State.getPort (s : State) (p : Nat) : DzPort := (s.dz.find? (fun x => x.port == p)).getD (DzPort.init p)
def State.setPort (s : State) (p : DzPort) : State := { s with dz := upsert (fun x => x.port == p.port) p s.dz }

/-- A thread by identity: the one in the issue stage, or the one in the list. -/
def State.getThread? (s : State) (tid : Nat) : Option Thread :=
  if tid = 0 then none
  else if s.me.tid = tid then some s.me
  else s.threads.find? (fun t => t.tid == tid)
/-- Write a thread back where `getThread?` finds it. -/
def State.setThread (s : State) (t : Thread) : State :=
  if s.me.tid = t.tid then { s with me := t }
  else { s with threads := upsert (fun x => x.tid == t.tid) t s.threads }
/-- Change a thread if it exists. -/
def State.onThread (s : State) (tid : Nat) (f : Thread → Thread) : State :=
  match s.getThread? tid with
  | some t => s.setThread (f t)
  | none => s
/-- Every thread, the one in the issue stage included. -/
def State.allThreads (s : State) : List Thread :=
  s.threads.map (fun t => if t.tid = s.me.tid then s.me else t)

def State.onCore (s : State) (d c : Nat) (f : Core → Core) : State := s.setCore (f (s.getCore d c))
def State.onDie (s : State) (d : Nat) (f : Die → Die) : State := s.setDie (f (s.getDie d))

/-- The cycle being served on a die (R17) as its partition counts them: while the partition stands still, the last
cycle it executed (R51). -/
def Die.now (d : Die) : Nat := if d.stopped then d.stopAt else d.cyc
def State.cyc (s : State) (d : Nat) : Nat := (s.getDie d).now
/-- The value of %cycle on a die (R50). -/
def State.cycleReg (s : State) (d : Nat) : Nat := s.cyc d - (s.getDie d).base + (s.getDie d).origin
/-- The %cycle value of a cycle of a die, and the cycle of a %cycle value. -/
def Die.toReg (k : Die) (c : Nat) : Nat := c - k.base + k.origin
def Die.ofReg (k : Die) (z : Nat) : Nat := z + k.base - k.origin

/-- The physical die of a logical one (R24). -/
def State.physDie? (s : State) (p l : Nat) : Option Nat := (s.getPart? p).bind (fun q => q.dies[l]?)
/-- The logical number of a physical die in a partition. -/
def State.logDie (s : State) (p d : Nat) : Nat :=
  match s.getPart? p with
  | some q => q.dies.idxOf d
  | none => 0
/-- The die count of a partition. -/
def State.dieCount (s : State) (p : Nat) : Nat :=
  match s.getPart? p with
  | some q => q.dies.length
  | none => 0

/-- A thread of a control core (R22). -/
def Thread.onControl (t : Thread) : Bool := decide (256 ≤ t.core)
/-- The privileges that count as system for the access codes of R6 (R165). -/
def Priv.isSys : Priv → Bool
  | .user | .plugin => false
  | .system | .supervisor | .monitor => true

/-- The LOC field of a record (R175). -/
def State.loc (s : State) (t : Thread) : W32 :=
  if t.onControl then BitVec.ofNat 32 (2 ^ 31 + t.die * 2 ^ 16 + (t.core - 256) * 2 ^ 8)
  else BitVec.ofNat 32 (s.logDie t.part t.die % 16 + t.core * 2 ^ 8)

/-- Grid position of a compute die (R1) and link count of the route between two dies (R13). -/
def gridPos (d : Nat) : Nat × Nat :=
  ([(0, 0), (0, 1), (0, 2), (0, 3), (1, 3), (2, 3), (3, 3), (3, 2), (2, 2), (1, 2), (1, 1), (2, 1), (3, 1), (3, 0),
    (2, 0), (1, 0)] : List (Nat × Nat))[d]?.getD (0, 0)
def absDiff (a b : Nat) : Nat := if a ≤ b then b - a else a - b
def linkCount (a b : Nat) : Nat :=
  absDiff (gridPos a).1 (gridPos b).1 + absDiff (gridPos a).2 (gridPos b).2

/-! ### Free values (R8, log 3 and 4) -/

/-- A free natural number at most m, and the state that has consumed it. -/
def State.freeUpTo (s : State) (m : Nat) : Nat × State :=
  (Config.freeTime s.free % (m + 1), { s with free := s.free + 1 })
/-- A free duration. -/
def State.freeDelay (s : State) : Nat × State := (Config.freeTime s.free, { s with free := s.free + 1 })

/-- A free choice between two outcomes, of a kind and at an address; the same throughout a step. -/
def State.choice (s : State) (kind k : Nat) : Bool := Config.freeChoice ((s.tick * 8 + kind) * 2 ^ 66 + k)

/-! ### Clock regions (R16, R48) -/

/-- The clock region of a core (R16). -/
def regionOf (core : Nat) : Nat := core / 64 * 4 + core % 16 / 4

/-- Two regions that cores with a common link of the torus belong to (R16): neighbours in the 4 × 4 grid of regions, which
wraps as the torus does. -/
def regionsMeet (q r : Nat) : Bool :=
  let row := (q / 4 + 4 - r / 4) % 4
  let col := (q % 4 + 4 - r % 4) % 4
  (row == 0 && (col == 1 || col == 3)) || (col == 0 && (row == 1 || row == 3))

/-! ### The agenda -/

/-- Ranks within a cycle: copy contexts first, then arrivals by source (R151), then the engines. -/
def rankArrival (logDie core turn : Nat) : Nat := 16 + (logDie * 512 + core) * 32 + turn
def rankEngine : Nat := 2 ^ 20
def rankLate : Nat := 2 ^ 21

/-- Entries that concern a control core, which runs on while the partition of its die stands still. -/
def Event.ofControl (s : State) : Event → Bool
  | .pluginOverrun _ => true
  | .copyStart _ c _ => decide (256 ≤ c)
  | .copyUnit _ c _ => decide (256 ≤ c)
  | .copyComplete _ c _ => decide (256 ≤ c)
  | .peerRequest r => (match s.getReq? r with | some q => decide (256 ≤ q.iss.core) | none => true)
  | .memoryRequest r => (match s.getReq? r with | some q => decide (256 ≤ q.iss.core) | none => true)
  | .offCoreReply r => (match s.getReq? r with | some q => decide (256 ≤ q.iss.core) | none => true)
  | .remoteReply r => (match s.getReq? r with | some q => decide (256 ≤ q.iss.core) | none => true)
  | .regionStretch _ _ => true
  | .stretchEnd _ => true
  | .edgeHold _ _ => true
  | .skewForcedStretch _ _ => true
  | .powerStep _ _ => true
  | _ => false

/-- A channel port whose other end is on another die. -/
def State.farChannel (s : State) (d c p : Nat) (feeds : Bool) : Bool :=
  match (s.getCore d c).ports[p]? with
  | some q => (match (if feeds then q.inn else q.out) with
    | some r => decide (4 ≤ p) && r.die != d
    | none => false)
  | none => false

/-- Entries that a quiesce delivers instead of saving them (R434, R435, R490): requests and replies, envelopes and
credits between dies, group messages and moves. -/
def Event.drains (s : State) : Event → Bool
  | .envelopeArrival d c p _ => s.farChannel d c p true
  | .creditArrival d c p => s.farChannel d c p false
  | .peerRequest _ => true
  | .memoryRequest _ => true
  | .offCoreReply _ => true
  | .remoteReply _ => true
  | .barrierComplete _ => true
  | .frameStart _ _ => true
  | .exitArrival _ => true
  | .spawnRecordArrival _ => true
  | .migrationDepart _ => true
  | .migrationArrival _ _ _ => true
  | .spillComplete _ => true
  | .pageWalkComplete _ _ _ => true
  | _ => false

/-- Add an entry to the agenda. On a die whose partition stands still, what a quiesce delivers falls due at once, and
every other entry of the partition is kept for its resumption. -/
def State.sched (s : State) (due : Due) (ev : Event) : State :=
  match due with
  | .wall _ => { s with agenda := s.agenda ++ [⟨due, ev⟩] }
  | .cycle d c rank =>
    let k := s.getDie d
    if !k.stopped || Event.ofControl s ev then { s with agenda := s.agenda ++ [⟨due, ev⟩] }
    else if Event.drains s ev then { s with agenda := s.agenda ++ [⟨.wall s.wall, ev⟩] }
    else s.setDie { k with frozen := k.frozen ++ [⟨.cycle d (c - (k.cyc - k.stopAt)) rank, ev⟩] }
/-- Due n cycles after the cycle being served on die d. -/
def State.schedIn (s : State) (d n rank : Nat) (ev : Event) : State := s.sched (.cycle d ((s.getDie d).cyc + n) rank) ev
/-- Due n units of wall time from now. -/
def State.schedWall (s : State) (n : Nat) (ev : Event) : State := s.sched (.wall (s.wall + n)) ev
/-- Take entries off the agenda, wherever they are kept. -/
def State.unsched (s : State) (p : Event → Bool) : State :=
  { s with agenda := s.agenda.filter (fun e => !p e.ev)
           parts := s.parts.map (fun q => { q with holding := q.holding.filter (fun e => !p e.ev) })
           dies := s.dies.map (fun d => { d with frozen := d.frozen.filter (fun e => !p e.ev) }) }
/-- An entry is on the agenda, or kept for a resumption or for a budget. -/
def State.pending (s : State) (p : Event → Bool) : Bool :=
  s.agenda.any (fun e => p e.ev) || s.dies.any (fun d => d.frozen.any (fun e => p e.ev)) ||
  s.parts.any (fun q => q.holding.any (fun e => p e.ev))

/-! ### Budgets (R469) -/

/-- A charge of n bytes to activity k of a partition (R469): whether the current period still holds it, and the state
that has charged it. A period that has used nothing takes any one request (log 43, DESIGN CHOICE). -/
def State.charge (s : State) (part k n : Nat) : Bool × State :=
  match s.getPart? part with
  | none => (true, s)
  | some p =>
    let lim := (p.budget[k]?.getD 0) * 1024
    let used := p.used[k]?.getD 0
    if lim = 0 then (true, s)
    else if used ≠ 0 && lim < used + n then (false, s)
    else (true, s.setPart { p with used := p.used.setIfInBounds k (used + n) })

/-- A request that a budget holds is tried again at the next period boundary: on a die at its rank in a cycle there, or at
that moment (R469). -/
def State.untilPeriod (s : State) (part : Nat) (due : Due) (ev : Event) : State :=
  match s.getPart? part with
  | none => s
  | some p => s.setPart { p with holding := p.holding ++ [⟨due, ev⟩] }

/-- A period is over: what the budgets held goes on, in the order of arrival. -/
def State.resumeHeld (s : State) (part : Nat) : State :=
  match s.getPart? part with
  | none => s
  | some p =>
    p.holding.foldl (fun a e => match e.due with
      | .wall _ => a.schedWall 0 e.ev
      | .cycle d _ rank => a.schedIn d 1 rank e.ev) (s.setPart { p with used := Vector.replicate 6 0, holding := [] })

/-! ### Registers of the issuing thread: reads at the read stage, writes to the next bundle (R83) -/

def LongFile.code : LongFile → Nat
  | .x => 0
  | .v => 2

def State.rx (s : State) (r : Nat) : W32 := if r = 0 then 0 else rd s.pre.x r
def State.ra (s : State) (r : Nat) : W64 := rd s.pre.a r
def State.rv (s : State) (r : Nat) : VReg := rd s.pre.v r
def State.rk (s : State) (r : Nat) : W64 := if r = 0 then BitVec.allOnes 64 else rd s.pre.k r
def State.rq (s : State) (r : Nat) : QReg := rd s.pre.q r
def State.re (s : State) (r : Nat) : W64 := rd s.pre.e r
def State.rh (s : State) (r : Nat) : W64 := rd s.pre.h r

/-- A port's inbox holds an envelope that arrived before the cycle being served (R79, R58). -/
def State.hasMail (s : State) (d c p : Nat) : Bool :=
  match (s.getCore d c).ports[p]? with
  | some q => (match q.inbox.head? with
    | some e => decide (e.2 < s.cyc d)
    | none => false)
  | none => false

/-- Condition n at the read stage (R79). -/
def State.rc (s : State) (n : Nat) : Bool :=
  if n < 8 then s.pre.c.getLsbD n
  else
    match (s.getCore s.pre.die s.pre.core).ports[n - 8]? with
    | some q => decide (q.bound = some s.pre.tid) && s.hasMail s.pre.die s.pre.core (n - 8)
    | none => false

/-- A write of register r of file f (0 x, 1 a, 2 v, 3 k) cancels a long result that has not landed (R86, R174: not a
latched one) and the delivery of a remote operation (R223). -/
def State.cancelTo (s : State) (f r : Nat) : State :=
  { s with
    me := { s.me with
      longs := s.me.longs.map (fun g => if g.file.code == f && g.reg == r && !g.latched then
        { g with cancelled := true } else g)
      reads := s.me.reads.map (fun q => if q.file == f && q.reg == r then { q with dead := true } else q) }
    reqs := s.reqs.map (fun q => if q.iss.tid == s.me.tid && q.file == f && q.reg == r && !q.sync then
        { q with noDeliver := true } else q) }

/-- A write to x0 is discarded (R79). -/
def State.wx (s : State) (r : Nat) (v : W32) : State :=
  if r = 0 then s
  else
    let s1 := s.cancelTo 0 r
    { s1 with me := { s1.me with x := wr s1.me.x r v } }
def State.wa (s : State) (r : Nat) (v : W64) : State :=
  let s1 := s.cancelTo 1 r
  { s1 with me := { s1.me with a := wr s1.me.a r v } }
def State.wv (s : State) (r : Nat) (v : VReg) : State :=
  let s1 := s.cancelTo 2 r
  { s1 with me := { s1.me with v := wr s1.me.v r v } }
/-- A write to k0 is discarded (R79). -/
def State.wk (s : State) (r : Nat) (v : W64) : State :=
  if r = 0 then s
  else
    let s1 := s.cancelTo 3 r
    { s1 with me := { s1.me with k := wr s1.me.k r v } }
def State.wq (s : State) (r : Nat) (v : QReg) : State := { s with me := { s.me with q := wr s.me.q r v } }
def State.we (s : State) (r : Nat) (v : W64) : State := { s with me := { s.me with e := wr s.me.e r v } }
def State.wh (s : State) (r : Nat) (v : W64) : State := { s with me := { s.me with h := wr s.me.h r v } }
/-- Condition r (0 to 7). -/
def State.wc (s : State) (r : Nat) (v : Bool) : State :=
  let m : BitVec 8 := 1 <<< r
  { s with me := { s.me with c := if v then s.me.c ||| m else s.me.c &&& ~~~m } }
/-- Flags raised by an ordinary syllable, ORed at the write stage (R122). -/
def State.orFlags (s : State) (f : Flags) : State :=
  { s with me := { s.me with fflags := s.me.fflags ||| f.setWidth 32 }, bun := { s.bun with flags := s.bun.flags ||| f } }
/-- Flags of an operation that completes later (R122): discarded once the thread has exited. -/
def State.flagsTo (s : State) (tid : Nat) (f : Flags) : State :=
  s.onThread tid (fun t => { t with fflags := t.fflags ||| f.setWidth 32, stale := (t.stale || t.spilled.isSome) })

/-- Undefined value k of a thread from its count on. It depends on the thread's work identifier and count alone, so that
what another thread or partition does cannot move it (R8, R61; log 20, DESIGN CHOICE). -/
def Thread.undef (t : Thread) (k : Nat) : VReg :=
  Config.freeBits 2048 (2 ^ 200 + t.wid.toNat * 2 ^ 100 + t.undefs + k)

/-- A long syllable's issue (R85, R86): its destination is undefined until the result lands, n rotations on (log 5, DESIGN
CHOICE). -/
def State.issueLong (s : State) (file : LongFile) (r n : Nat) (v : VReg) (f : Flags) : State :=
  let u := s.me.undef 0
  let s1 := { s with me := { s.me with undefs := s.me.undefs + 1 } }
  let s2 := match file with
    | .x => s1.wx r (u.setWidth 32)
    | .v => s1.wv r u
  let g : Long := { file := file, reg := r, value := v, left := n, flags := f, latched := false, snap := false,
                    cancelled := decide (file = .x) && decide (r = 0) }
  { s2 with me := { s2.me with longs := s2.me.longs ++ [g] } }

/-- A thread with a long result written to its register. -/
def Thread.putLong (t : Thread) (g : Long) : Thread :=
  let t1 := { t with fflags := t.fflags ||| g.flags.setWidth 32 }
  if g.cancelled then t1
  else
    match g.file with
    | .x => if g.reg = 0 then t1 else { t1 with x := wr t1.x g.reg (g.value.setWidth 32) }
    | .v => { t1 with v := wr t1.v g.reg g.value }

/-- The rounding context of a syllable (R119, R120): a syllable that rounds takes one counter value in mode 5. -/
def State.rndCtx (s : State) : RndCtx :=
  { mode := (s.pre.rnd.extractLsb' 0 3).toNat, wid := s.pre.wid, seed := s.pre.seed,
    cnt := ((s.pre.rnd.extractLsb' 8 24).toNat + s.bun.counts) % 2 ^ 24 }
def State.takeCount (s : State) : State :=
  if (s.pre.rnd.extractLsb' 0 3).toNat = 5 then { s with bun := { s.bun with counts := s.bun.counts + 1 } } else s

/-! ### Timelines (R276, R279, R283, R289) and fault records (R287) -/

/-- The number after n: numbers whose low 48 bits are all zero are never assigned (R276). -/
def seqNext (n : Nat) : Nat := if (n + 1) % 2 ^ 48 = 0 then n + 2 else n + 1

/-- Advance C over every completed or skipped number; at most `fuel` of them. -/
def Timeline.advance (done : List Nat) (i : Nat) : Nat → Nat → Nat
  | 0, c => c
  | fuel + 1, c =>
    if done.contains (c + 1) || (decide ((c + 1) % 2 ^ 48 = 0) && decide (c + 1 < i)) then
      Timeline.advance done i fuel (c + 1)
    else c

/-- Operation n completes (R283). -/
def Timeline.complete (t : Timeline) (n : Nat) : Timeline :=
  let done := n :: t.done
  let c := Timeline.advance done t.i (2 * done.length + 1) t.c
  { t with c := c, done := done.filter (fun k => decide (c < k)) }

/-- Insert a held entry in number order. -/
def holdFault (r : FaultRec) : List FaultRec → List FaultRec
  | [] => [r]
  | h :: t => if r.num < h.num then r :: h :: t else h :: holdFault r t

/-- A fault or cancellation of operation r.num enters the record, or waits for it (R289). -/
def Timeline.fault (t : Timeline) (r : FaultRec) : Timeline :=
  match t.frec with
  | none => { t with frec := some r }.complete r.num
  | some _ => { t with held := holdFault r t.held }

/-- The record is freed; the first held entry enters it (R289). -/
def Timeline.freeRec (t : Timeline) : Timeline :=
  match t.held with
  | [] => { t with frec := none }
  | h :: rest => { t with frec := none, held := rest }.fault h

/-- Issue the next operation: its number. -/
def Timeline.next (t : Timeline) : Nat := seqNext t.i
/-- A number stepped over counts as completed, so C may pass it at once (R276, R283). -/
def Timeline.issue (t : Timeline) : Timeline :=
  { t with i := seqNext t.i, c := Timeline.advance t.done (seqNext t.i) (2 * t.done.length + 1) t.c }

/-- The operation that SEQ s names in a context (R279). -/
def Timeline.opOf (t : Timeline) (seq : Nat) : Option Nat :=
  let back := (t.i + (2 ^ 48 - seq % 2 ^ 48)) % 2 ^ 48
  if seq % 2 ^ 48 = 0 || t.i ≤ back then none else some (t.i - back)

/-- A handle (R278). -/
def mkHandle (cls ctx turn num : Nat) : W64 :=
  BitVec.ofNat 64 (cls * 2 ^ 60 + ctx * 2 ^ 56 + turn * 2 ^ 48 + num % 2 ^ 48)

/-- The 96-byte image of a fault record (R287). -/
def FaultRec.image (r : FaultRec) : BitVec 768 :=
  place 768 0 r.cause ||| place 768 1 r.cls ||| place 768 2 r.turn |||
  place 768 3 (BitVec.ofNat 8 (1 + bit r.reported 1 + bit r.more 2)) ||| place 768 4 r.syl ||| place 768 8 r.pc |||
  place 768 0x10 r.wid ||| place 768 0x18 r.handle ||| place 768 0x20 r.op0 ||| place 768 0x28 r.op1 |||
  place 768 0x30 r.op2 ||| place 768 0x38 r.op3 ||| place 768 0x40 r.progress ||| place 768 0x48 r.faddr |||
  place 768 0x50 r.cycle ||| place 768 0x58 r.loc ||| place 768 0x5C r.detail

/-- The image that TLRD.f and the context image see: zero when the record is free (R289). -/
def Timeline.recImage (t : Timeline) : BitVec 768 :=
  match t.frec with
  | none => 0
  | some r => { r with more := !t.held.isEmpty }.image

/-- Operation n of a timeline has completed. -/
def Timeline.isDone (t : Timeline) (n : Nat) : Bool := decide (n ≤ t.c) || t.done.contains n
/-- Remote operations that have not completed (R202, R219). -/
def Thread.outstanding (t : Thread) : List Nat := t.rcOps.filter (fun n => !t.rc.isDone n)

/-- Those still under way: one whose fault waits behind another record (R289) waits for software, not for the machine (log
96, DESIGN CHOICE). -/
def Thread.inFlight (t : Thread) : List Nat := t.outstanding.filter (fun n => !t.rc.held.any (fun r => r.num == n))

/-- The slot number of a thread whose context lies in the save area of an evicted partition (R428): no slot of a pool. -/
def saveSlot : Nat := 4096

/-- The partition that a thread's addresses belong to: for a control core that of its die (R22). -/
def State.partOf (s : State) (t : Thread) : Nat :=
  if t.onControl then
    match s.parts.find? (fun p => p.dies.contains t.die) with
    | some p => p.num
    | none => 0xFFFFFFFF
  else t.part
/-- A write, by its identity, that has not been applied, or that some die cannot see yet. -/
def State.liveId (s : State) (i : Nat) : Bool :=
  s.reqs.any (fun r => r.rid == i && !r.applied) || s.late.any (fun e => e.id == i)
def State.liveIds (s : State) (l : List Nat) : List Nat := (l.filter s.liveId).eraseDups
/-- What releases hand on, as far as it still matters. -/
def State.liveItems (s : State) (l : List MsgItem) : List MsgItem :=
  (l.map (fun i => { i with ids := s.liveIds i.ids })).filter (fun i => !i.ids.isEmpty)
/-- Writes that happen before what the thread of the issue stage issues now (R147, R152): those that it has acquired or
released, and those before the accesses to its core's buffers. -/
def State.ahead (s : State) : List Nat :=
  s.liveIds (s.me.before ++ s.me.carry.flatMap (·.ids) ++ (s.getCore s.me.die s.me.core).locals)
/-- Writes that happen before a release of that thread (R147). -/
def State.covers (s : State) : List Nat :=
  s.liveIds (s.me.seen ++ (s.getCore s.me.die s.me.core).locals)
/-- An operation must still wait for a write that happens before its issue. -/
def State.heldBack (s : State) (i : Issue) : Bool := s.reqs.any (fun r => i.after.contains r.rid && !r.applied)

/-- What an operation issued now captures (R287). `cls` picks the syllable's word (log 99, DEDUCED). -/
def State.issueInfo (s : State) (num cls : Nat) (o0 o1 o2 o3 : W64) : Issue :=
  { num := num, tid := s.pre.tid, turn := s.pre.turn, lid := s.pre.lid, die := s.pre.die, core := s.pre.core,
    syl := rd s.bun.words cls, pc := s.pre.pc, wid := s.pre.wid, rnd := s.pre.rnd,
    cnt := BitVec.ofNat 32 s.rndCtx.cnt, op0 := o0, op1 := o1, op2 := o2, op3 := o3, part := s.partOf s.pre,
    seed := s.pre.seed, after := s.ahead, oid := s.nextId }

/-- The rounding context that an engine command captured (R120). -/
def Issue.rndCtx (i : Issue) : RndCtx :=
  { mode := (i.rnd.extractLsb' 0 3).toNat, wid := i.wid, seed := i.seed, cnt := i.cnt.toNat }

/-- The fault record of an operation (R287, R288): the cycle is %cycle of the issuing thread's die. -/
def State.mkFault (s : State) (i : Issue) (cls ctx : Nat) (cause : BitVec 8) (progress faddr : W64) (detail : W32) :
    FaultRec :=
  let t := (s.getThread? i.tid).getD { Thread.init with die := i.die, core := i.core }
  { cause := cause, cls := BitVec.ofNat 8 cls, turn := BitVec.ofNat 8 i.turn, reported := false, more := false, syl := i.syl,
    pc := i.pc, wid := i.wid, handle := mkHandle cls ctx i.turn i.num, op0 := i.op0, op1 := i.op1, op2 := i.op2,
    op3 := i.op3, progress := progress, faddr := faddr, cycle := BitVec.ofNat 64 (s.cycleReg t.die),
    loc := s.loc { t with die := i.die, core := i.core }, detail := detail, flags := 0,
    num := i.num, tid := i.tid, cmd := 0 }

/-- The part of a command record that every kind has (R438): `count` is the cycles elapsed, or the units done. -/
def recordHead (w : Nat) (i : Issue) (started : Bool) (count : Nat) : BitVec w :=
  place w 0 i.syl ||| place w 4 (BitVec.ofNat 8 i.turn) ||| place w 5 (BitVec.ofNat 8 (bit started 0)) |||
  place w 8 (BitVec.ofNat 64 i.num) ||| place w 0x10 (BitVec.ofNat 64 count) ||| place w 0x18 i.rnd |||
  place w 0x1C i.cnt
/-- Cycles elapsed since the start of a command. -/
def elapsedOf (now : Nat) (start : Option Nat) : Nat := match start with | some c => now - c | none => 0

/-- Asynchronous cause codes (R288). -/
def acTranslation : BitVec 8 := 1
def acProtection : BitVec 8 := 2
def acEcc : BitVec 8 := 3
def acPeerAbsent : BitVec 8 := 4
def acHostAbort : BitVec 8 := 5
def acCancelled : BitVec 8 := 6

/-! ### Traps (R171-R176) -/

/-- Trap cause codes (R171). -/
def tcIllegal : BitVec 8 := 0x01
def tcForm : BitVec 8 := 0x02
def tcTarget : BitVec 8 := 0x03
def tcPrivilege : BitVec 8 := 0x04
def tcBufferRange : BitVec 8 := 0x05
def tcAlign : BitVec 8 := 0x06
def tcStream : BitVec 8 := 0x07
def tcOwner : BitVec 8 := 0x08
def tcQueueFull : BitVec 8 := 0x09
def tcOverrun : BitVec 8 := 0x0A
def tcHandleFault : BitVec 8 := 0x0B
def tcPeerAbsent : BitVec 8 := 0x0C
def tcOutside : BitVec 8 := 0x0D
def tcFetch : BitVec 8 := 0x0E
def tcAccess : BitVec 8 := 0x0F
def tcDeadlock : BitVec 8 := 0x10
def tcTrap : BitVec 8 := 0x11
def tcBreak : BitVec 8 := 0x12
def tcEcc : BitVec 8 := 0x13
def tcMigrate : BitVec 8 := 0x14
def tcWindow : BitVec 8 := 0x15
def tcSpawn : BitVec 8 := 0x16

/-- %frame of a thread at %cycle z (R55): frame and position follow from the frame start. -/
def Thread.frameAt (t : Thread) (z : Nat) : Nat × Nat :=
  let n := (z - t.frZ) / 8 + t.frOff
  ((t.frNum + n / t.frLen) % 2048, n % t.frLen)
def Thread.frameReg (t : Thread) (z : Nat) : W32 :=
  if t.frRun then BitVec.ofNat 32 (2 ^ 31 + (t.frameAt z).1 * 2 ^ 20 + (t.frameAt z).2) else 0

/-- Snapshot entries of a thread (R174). -/
def snapEntries : Nat := 4

/-- Occupied snapshot entries (R174). -/
def Thread.snapCount (t : Thread) : Nat := (t.longs.filter (fun g => g.latched && !g.cancelled)).length

/-- Latch long results into the free entries. A cancelled one is not latched, and lands its flags in its own time; with
`after` so does one that lands before the bundle that resumes. A result that finds no entry, because the thread trapped
in its handler with entries occupied, is lost: its destination stays undefined (log 21, DESIGN CHOICE). -/
def latchLongs (after : Bool) : Nat → List Long → List Long
  | _, [] => []
  | free, g :: r =>
    if g.latched || g.cancelled || (after && decide (g.left ≤ 1)) then g :: latchLongs after free r
    else
      match free with
      | 0 => { g with cancelled := true } :: latchLongs after 0 r
      | k + 1 => { g with latched := true, left := if after then g.left - 1 else g.left } :: latchLongs after k r

/-- Latch every long result that has not landed and is not cancelled (R174): r counts from the bundle that resumes,
which for TRAP and BRK is the one after. -/
def Thread.latch (t : Thread) (after : Bool) : Thread :=
  { t with longs := latchLongs after (snapEntries - t.snapCount) t.longs }

/-- The mask of the occupied snapshot entries, which fill from the low end (R175, log 22, DESIGN CHOICE). -/
def Thread.snapMask (t : Thread) : Nat := 2 ^ Nat.min snapEntries t.snapCount - 1

/-- The trap runs the thread's handler (R172). -/
def Thread.runsHandler (t : Thread) (cause : BitVec 8) : Bool :=
  !t.tcause.getLsbD 31 &&
  ((cause == tcTrap && t.tvec.getLsbD 0) || (cause == tcBreak && t.tvec.getLsbD 1) ||
   (cause == tcHandleFault && t.tvec.getLsbD 2))

/-- The trap record of R175. `t` is the thread as the trap leaves it (log 64, DESIGN CHOICE). -/
def State.trapImage (s : State) (t : Thread) (i : TrapInfo) (run : Bool) : BitVec 512 :=
  let z := s.cycleReg t.die
  place 512 0 i.cause ||| place 512 1 (BitVec.ofNat 8 i.slot) ||| place 512 2 (BitVec.ofNat 8 t.turn) |||
  place 512 3 (BitVec.ofNat 8 (bit run 0 + bit t.priv.isSys 1)) ||| place 512 4 i.detail ||| place 512 8 t.pc |||
  place 512 0x10 t.tpc ||| place 512 0x18 t.wid ||| place 512 0x20 (BitVec.ofNat 64 z) |||
  place 512 0x28 (t.frameReg z) ||| place 512 0x2C (s.loc t) ||| place 512 0x30 i.addr |||
  place 512 0x38 (if i.slot = 7 then 0 else i.syl) ||| place 512 0x3C (BitVec.ofNat 32 t.snapMask)

/-- The key of a byte of the AB space of a thread: its core's AB, or the firmware memory of its die on a control core
(R463; log 65, DESIGN CHOICE). -/
def Thread.abKey (t : Thread) (off : Nat) : Nat :=
  if t.onControl then fwKey t.die off else bufKey t.die t.core 1 off
def Thread.abSize (t : Thread) : Nat :=
  if t.onControl then (if 16 ≤ t.die then Config.fwSizeIo else Config.fwSizeDie) else Config.abSize

/-- Write a record of n bytes at a %trec offset when EN is 1 and it fits (R170, R290). -/
def State.writeRec {w : Nat} (s : State) (t : Thread) (disp n : Nat) (v : BitVec w) : State :=
  let off := (t.trec.extractLsb' 6 14).toNat * 64 + disp
  if t.trec.getLsbD 0 && decide (off + n ≤ t.abSize) then s.store (t.abKey off) n v else s

/-- The handler address (R168). -/
def Thread.handlerPc (t : Thread) : W64 :=
  (t.pc.extractLsb' 32 32 ++ t.tvec.extractLsb' 5 27) ++ 0#5

/-- The end of a plug-in call (R467): the shadow comes back, privilege returns to supervisor, the next bundle is at
%psret, and %pstat takes the outcome. x1-x4 are undefined after a trap or an overrun, and the tenant in whose plug-in the call
began is marked faulted. -/
def State.endPlugin (s : State) (t : Thread) (outcome : Nat) (cause : BitVec 8) : Thread × State :=
  let u := Config.freeBits 2048 s.free
  let x1 := fun (k : Nat) => if outcome = 0 then rd t.x k else elem 32 u k
  let xs := wr (wr (wr (wr t.ctl.shX 1 (x1 1)) 2 (x1 2)) 3 (x1 3)) 4 (x1 4)
  let t1 := { t with
    x := xs, a := t.ctl.shA, e := t.ctl.shE, h := t.ctl.shH, c := t.ctl.shC, priv := .supervisor, st := .running
    pc := t.ctl.psret, longs := []
    ctl := { t.ctl with budget := none, pstat := BitVec.ofNat 32 (outcome + cause.toNat * 256) } }
  let called := fun (f : Func) => match f.plugin with
    | some (off, len) => decide (t.die = if f.fn < 257 then 16 else 17) && decide (off ≤ t.ctl.pcall.toNat) &&
        decide (t.ctl.pcall.toNat < off + len)
    | none => false
  (t1, { s.unsched (fun e => e == .pluginOverrun t.tid) with
    free := s.free + 1
    funcs := if outcome = 0 then s.funcs
             else s.funcs.map (fun f => if called f then { f with pluginFaulted := true } else f) })

/-- The control cores of an I/O die see a supervisor turn's trap: `trap 3` after a request to quiesce lets the update go
on (R475), any other trap before the commit rolls it back, and one with no update under way restarts the committed slot
(R476). -/
def State.supervisorTrap (s : State) (t : Thread) (i : TrapInfo) : State :=
  if t.priv ≠ .supervisor || t.die < 16 then s
  else
    match s.io[t.die - 16]? with
    | none => s
    | some o =>
      match o.update with
      | none => s.schedWall 0 (.updateTimeout (t.die - 16))
      | some u =>
        if u.phase = 1 && i.cause == tcTrap && i.detail == 3 then
          { s with io := s.io.setIfInBounds (t.die - 16) { o with update := some { u with phase := 2 } } }.schedWall 0
            (.fwact u.port)
        else if u.phase = 2 && i.cause == tcTrap && i.detail == 3 then s
        else s.schedWall 0 (.updateTimeout (t.die - 16))

/-- An uncorrectable error that a consumer of a partition has met is reported to the supervisor, and by it to the partition's
home function (R487): kind 2 for a trapped thread, kind 3 for an operation's handle, kind 4 for a page of the front end's. -/
def State.reportEcc (s : State) (hit : Bool) (part kind v : Nat) : State :=
  if hit then
    let s1 := { s with reports := s.reports ++ [(kind, v)] }
    match (s.getPart? part).bind (·.home) with
    | some h => s1.setFunc { s1.getFunc h with errors := (s1.getFunc h).errors ++ [(kind, v)] }
    | none => s1
  else s

/-- In host-assisted mode a trap record is posted to the home function of the partition (R470). -/
def State.postTrap (s : State) (t : Thread) (img : BitVec 512) : State :=
  match (if t.onControl then none else (s.getPart? t.part).bind (·.home)) with
  | none => s
  | some h =>
    let f := s.getFunc h
    if f.trpm then s.setFunc { f with posted := f.posted ++ [img] } else s

/-- A trap of thread t (R173), which is also returned to its place: `tpc` is the resumption address, `after` holds for
TRAP and BRK, and `fr` is the fault record a WAIT reports with it (R290). -/
def State.trapThread (s0 : State) (t : Thread) (i : TrapInfo) (tpc : W64) (after : Bool) (fr : Option FaultRec)
    (cycles : BitVec 512) : State :=
  let s := s0.reportEcc (i.cause == tcEcc) (s0.partOf t) 2 t.tid
  if t.priv = .plugin then
    let r := s.endPlugin t (if i.cause == tcTrap && i.detail == 0 then 0 else 2)
      (if i.cause == tcTrap && i.detail == 0 then 0 else i.cause)
    r.2.setThread r.1
  else
    let run := t.runsHandler i.cause
    let t1 := { t.latch after with
      offReq := none, notice := 0, reportedOne := false, target := none, packet := none
      tpc := tpc
      tcause := (t.tcause &&& 0xFFFFFF00#32) ||| i.cause.setWidth 32 }
    let img := s.trapImage t1 i run
    if run then
      let off := (t.trec.extractLsb' 6 14).toNat * 64
      let fits := t.trec.getLsbD 0 && decide (off + 64 ≤ t.abSize)
      let s1 := s.writeRec t 0 64 img
      let s2 := match fr with
        | some r => s1.writeRec t 64 96 r.image
        | none => s1
      let tc := (t1.tcause ||| 0x80000000#32) &&& ~~~0x40000000#32
      s2.setThread { t1 with
        st := .running, pc := t.handlerPc, vdly := 0, vkept := t.vdly
        tcause := if fits then tc else tc ||| 0x40000000#32 }
    else
      let s1 := s.setThread { t1 with st := .trapped }
      let r : TrapRecord := { tid := t.tid, die := t.die, rec512 := img, fault := fr, cycleList := cycles }
      ({ s1 with traps := s1.traps ++ [r] }.postTrap t img).supervisorTrap t i

/-- TAKING A TRAP of the bundle in the issue stage (R173): the bundle takes no effect, so it acts on the thread as the
read stage found it. -/
def State.takeTrap (s : State) (why : Stop) (i : TrapInfo) (fr : Option FaultRec) : State :=
  let s1 := { s with me := s.pre }.trapThread s.pre i s.pre.pc false fr 0
  { s1 with bun := { s1.bun with stop := why } }

/-- The trap of TRAP, BRK (R195), after the bundle's other syllables have taken effect. -/
def State.takeTrapAfter (s : State) (i : TrapInfo) : State :=
  let s1 := s.trapThread s.me i s.bun.next true none 0
  { s1 with bun := { s1.bun with stop := .trap } }

/-- A trap that a syllable of class c raises (R75). -/
def State.trapSyl (s : State) (why : Stop) (c : Nat) (cause : BitVec 8) (detail : W32) (addr : W64) : State :=
  s.takeTrap why { cause := cause, slot := c, detail := detail, addr := addr, syl := rd s.bun.words c } none
/-- A trap of the bundle as a whole. -/
def State.trapBundle (s : State) (why : Stop) (cause : BitVec 8) (detail : W32) (addr : W64) : State :=
  s.takeTrap why { cause := cause, slot := 7, detail := detail, addr := addr, syl := 0 } none

/-- The snapshot entries of a resumed thread (R174): each lands for the bundle r rotations after the resumed one, its
destination is undefined until then, and a result of the handler for the same register is cancelled. -/
def Thread.unlatch (t : Thread) (u : Nat → VReg) : Thread :=
  let names := fun (g : Long) => t.longs.any
    (fun h => h.latched && !h.cancelled && h.file == g.file && h.reg == g.reg)
  let t1 := t.longs.foldl (fun (a : Thread) (g : Long) =>
    if g.latched && !g.cancelled then
      (match g.file with
       | .x => { a with x := if g.reg = 0 then a.x else wr a.x g.reg ((u g.reg).setWidth 32) }
       | .v => { a with v := wr a.v g.reg (u (32 + g.reg)) })
    else a) t
  { t1 with longs := t.longs.map (fun g =>
      if g.latched then { g with latched := false, snap := true, left := g.left + 1 }
      else if names g then { g with cancelled := true } else g) }

/-- RETURN FROM A TRAP (R173, R196): H becomes 0 and the snapshot entries land as R174 gives. -/
def State.returnThread (s : State) (t : Thread) (pc : W64) : State :=
  let t1 := t.unlatch t.undef
  s.setThread
    { t1 with
      pc := pc, st := .running, target := none, packet := none, undefs := t1.undefs + 64
      tcause := t1.tcause &&& 0x7FFFFFFF#32, vdly := t1.vdly + t1.vkept, vkept := 0 }

/-- The thread of the issue stage is blocked on its bundle from this cycle, or stays so: nothing of it takes effect
(R34). -/
def State.block (s : State) : State :=
  let fresh : Bool := s.pre.st != .blocked
  let t := { s.pre with
    st := .blocked
    since := if fresh then s.cyc s.pre.die else s.pre.since
    recvFrom := if fresh then s.cyc s.pre.die else s.pre.recvFrom }
  { s with me := t, bun := { s.bun with stop := .held } }

/-- A bundle whose condition is false is held (R34): nothing takes effect, and a thread in stamped mode at its target
takes FRAME_OVERRUN instead (R35, R58). -/
def State.holdSyl (s : State) (c : Nat) : State :=
  match s.bun.stamp, s.pre.stamped with
  | some (nx, st), true =>
    s.trapSyl .held c tcOverrun (BitVec.ofNat 32 (2 ^ 22 + 2 ^ 21 + bit nx 20 + st)) 0
  | _, _ => s.block

end Sys2Proof.Machine
end

