-- ==== Sys2Proof/Machine/Order.lean ====
section
/-! DEFINITION. What a die sees of the writes of others (R139, R142–R150): writes to die memory and host memory that some
dies cannot see yet, and what releases hand on with the bytes of memory (log 38, DESIGN CHOICE). Buffers show every write at once
(R151). -/

namespace Sys2Proof.Machine

/-- The granule of a byte. -/
def granOf (key : Nat) : Nat := key / 8

/-- Clear a die's bit in a set of dies. -/
def without (m : BitVec 16) (d : Nat) : BitVec 16 := m &&& ~~~(1#16 <<< d)

/-- What die d sees of a granule: the oldest write that it cannot see may still be on its way, and the granule then reads as
it stood before that write; a write that has come is seen from then on (R142). -/
def State.lateAt (s : State) (d g : Nat) : List Late → List Late × Option W64
  | [] => ([], none)
  | e :: r =>
    if e.gran = g && e.dies.getLsbD d then
      if s.choice 6 (e.id * 32 + d) then (e :: r, some e.old)
      else
        let q := s.lateAt d g r
        ({ e with dies := without e.dies d } :: q.1, q.2)
    else
      let q := s.lateAt d g r
      (e :: q.1, q.2)

/-- The write that die d cannot see yet, if its reads of a granule see what stood before it. -/
def State.lateHit (s : State) (d g : Nat) : Option Late :=
  s.late.find? (fun e => e.gran == g && e.dies.getLsbD d && s.choice 6 (e.id * 32 + d))

/-- The writes `ids`, and every write to the same granules before them, have reached die d. -/
def clearLate (d : Nat) (ids : List Nat) : List Late → List Late × List Nat
  | [] => ([], [])
  | e :: r =>
    let q := clearLate d ids r
    if ids.contains e.id || q.2.contains e.gran then ({ e with dies := without e.dies d } :: q.1, e.gran :: q.2)
    else (e :: q.1, q.2)

/-- Entries that no die waits for any more are gone. -/
def liveLate (l : List Late) : List Late := l.filter (fun e => e.dies != 0)

/-- Every write has reached die d: a thread that moves there, or starts there, sees all that was applied (R147). -/
def State.settle (s : State) (d : Nat) : State :=
  if s.late.isEmpty then s else { s with late := liveLate (s.late.map (fun e => { e with dies := without e.dies d })) }

/-- Bytes of a granule. -/
def granBytes (v : W64) (key n : Nat) : Nat := v.toNat / 2 ^ (8 * (key % 8)) % 2 ^ (8 * n)

/-- A read of n bytes within a granule by a thread of die d: the value, the writes that it saw and some other die cannot
see yet, and the state. Buffers read as they stood at the start of the cycle (R151). -/
def State.readSeen (s : State) (d key n : Nat) : Nat × List Nat × State :=
  if 2 ^ 72 ≤ key then (memRead s.mem0 key n, [], s)
  else if s.late.isEmpty then (memRead s.mem key n, [], s)
  else
    let g := granOf key
    let r := s.lateAt d g s.late
    let ids := (r.1.filter (fun e => e.gran == g && !e.dies.getLsbD d)).map (·.id)
    (match r.2 with
     | some old => granBytes old key n
     | none => memRead s.mem key n, ids, { s with late := liveLate r.1 })

/-- Die d has seen the latest value of a granule: it sees nothing older from then on (R142). The writes that it saw and some
other die cannot see yet. -/
def State.showGran (s : State) (d key : Nat) : List Nat × State :=
  if 2 ^ 72 ≤ key || s.late.isEmpty then ([], s)
  else
    let g := granOf key
    let l := liveLate (s.late.map (fun e => if e.gran = g then { e with dies := without e.dies d } else e))
    ((l.filter (fun e => e.gran == g)).map (·.id), { s with late := l })

/-- A read by an engine of die d: what it has seen, every die sees from then on. -/
def State.readEngine (s : State) (d key n : Nat) : Nat × State :=
  if 2 ^ 72 ≤ key then (memRead s.mem0 key n, s)
  else if s.late.isEmpty then (memRead s.mem key n, s)
  else
    let g := granOf key
    match (s.lateAt d g s.late).2 with
    | some old => (granBytes old key n, s)
    | none => (memRead s.mem key n, { s with late := s.late.filter (fun e => e.gran != g) })

/-- Before a write of identity `id` (0: the front end, which every die sees) by die d of a partition, within a granule: the
other dies may come to see it later, but for those in `shown`. A die that writes sees all that came before (log 11, DESIGN
CHOICE). -/
def State.hide (s : State) (id part d : Nat) (shown : BitVec 16) (key : Nat) : State :=
  if 2 ^ 72 ≤ key then s
  else
    let g := granOf key
    if id = 0 then (if s.late.isEmpty then s else { s with late := s.late.filter (fun e => e.gran != g) })
    else
      let now := shown ||| (1#16 <<< d)
      let others : BitVec 16 := match s.getPart? part with
        | some p => p.dies.foldl (fun m x => m ||| (1#16 <<< x)) 0
        | none => 0
      let dies := others &&& ~~~now &&& (Config.freeBits 2048 s.free).setWidth 16
      let old := liveLate (s.late.map (fun e => if e.gran = g then { e with dies := e.dies &&& ~~~now } else e))
      { s with
        free := s.free + 1
        late := if dies = 0 then old
                else old ++ [{ id := id, gran := g, old := BitVec.ofNat 64 (memRead s.mem (8 * g) 8)
                               msgs := s.msgs.filter (fun m => decide (m.key < 8 * g + 8) && decide (8 * g < m.key + m.n)), dies := dies }] }

/-- A write of n bytes by a core, noted while a collective stands that may read them (R393); its identity, 0 for a store to the
core's own buffers. -/
def State.touch (s : State) (id die core key n : Nat) : State :=
  match s.touched with
  | none => s
  | some l => { s with touched := some (l ++ [{ id := id, die := die, core := core, key := key, n := n }]) }

/-! ### Release sequences (R146) -/

/-- What a list of release sequences hands on to a read of n bytes from a key. -/
def msgsAt (l : List Msg) (key n : Nat) : List MsgItem :=
  (l.filter (fun m => decide (m.key < key + n) && decide (key < m.key + m.n))).flatMap (·.items)
/-- What the releases hand on to a read of n bytes from a key. -/
def State.brought (s : State) (key n : Nat) : List MsgItem := msgsAt s.msgs key n
/-- The same for a read within a granule by die d, which may see an older value of it. -/
def State.broughtTo (s : State) (d key n : Nat) : List MsgItem :=
  match s.lateHit d (granOf key) with
  | some e => if 2 ^ 72 ≤ key then s.brought key n else msgsAt e.msgs key n
  | none => s.brought key n

/-- n bytes move from one key to another, with what is known of their order: a page that changes its frame (R424). What was
known of the frame before is gone. -/
def State.moveOrder (s : State) (old new n : Nat) : State :=
  let inOld := fun (k : Nat) => decide (old ≤ k) && decide (k < old + n)
  let inNew := fun (k : Nat) => decide (new ≤ k) && decide (k < new + n)
  let move := fun (m : Msg) => if inOld m.key then { m with key := new + (m.key - old) } else m
  { s with
    late := (s.late.filter (fun e => !inNew (8 * e.gran))).map (fun e => if inOld (8 * e.gran) then
      { e with gran := (new + (8 * e.gran - old)) / 8, msgs := e.msgs.map move } else e)
    msgs := (s.msgs.filter (fun m => !(inNew m.key && decide (m.key + m.n ≤ new + n)))).map move
    touched := s.touched.map (fun l => l.map (fun t => if inOld t.key then { t with key := new + (t.key - old) } else t)) }

/-- A write of n bytes from a key, with what it hands on: a plain write ends the release sequences of the bytes that it
covers, an atomic continues them. -/
def State.attach (s : State) (rmw : Bool) (key n : Nat) (items : List MsgItem) : State :=
  if s.msgs.isEmpty && items.isEmpty then s
  else
    let kept := if rmw then s.msgs else s.msgs.filter (fun m => !(decide (key ≤ m.key) && decide (m.key + m.n ≤ key + n)))
    let l := s.liveItems items
    { s with msgs := if l.isEmpty then kept else kept ++ [{ key := key, n := n, items := l }] }

end Sys2Proof.Machine
end

