-- ==== Sys2Proof/Machine/Memory.lean ====
section
/-! DEFINITION. Device addresses, buffer checks, translation, striping and the reads and writes that engines make
(R130-R139, R406-R408, R417-R422, R427, R463, R487). -/

namespace Sys2Proof.Machine

/-! ### Buffers (R132-R136) -/

/-- A byte range of a buffer. -/
structure BufRef where
  die : Nat
  core : Nat
  buf : Nat
  off : Nat
  deriving DecidableEq, Repr, Inhabited

def BufRef.key (b : BufRef) : Nat := bufKey b.die b.core b.buf b.off

/-- Size of a buffer (R136). -/
def bufSize : Nat → Nat
  | 0 => Config.wbSize
  | 1 => Config.abSize
  | 2 => Config.cbSize
  | _ => 0

/-- FORM of a device address (R130). -/
def addrForm (a : W64) : Nat := (a.extractLsb' 62 2).toNat
def addrDie (a : W64) : Nat := (a.extractLsb' 55 4).toNat
def addrCore (a : W64) : Nat := (a.extractLsb' 47 8).toNat
def addrBuf (a : W64) : Nat := (a.extractLsb' 45 2).toNat
def addrOff (a : W64) : Nat := (a.extractLsb' 0 20).toNat

/-- Who makes an access: partition, physical die, core, launch, whether check 5 of R134 is skipped, and the identity of its
writes (0: every die sees them at once). -/
structure Agent where
  part : Nat
  die : Nat
  core : Nat
  lid : Nat
  skip : Bool
  wid : Nat
  deriving DecidableEq, Repr, Inhabited

/-- The agent that a thread is: control cores hold system privilege (R134). -/
def State.agentOf (s : State) (t : Thread) : Agent := ⟨s.partOf t, t.die, t.core, t.lid, t.onControl, 0⟩
/-- The core number of an agent that is no core: the task engine, or the front end. Form 11 names nothing of its own
(R133). -/
def noCore : Nat := 512
def Issue.agent (i : Issue) : Agent := ⟨i.part, i.die, i.core, i.lid, decide (256 ≤ i.core), i.oid⟩

/-- Checks 1 to 4 of R134 on a buffer address, in order: the trap cause that fails, or the place (log 66, DESIGN CHOICE). -/
def State.bufCheck (s : State) (g : Agent) (a : W64) (size align : Nat) : Except (BitVec 8) BufRef :=
  let own := addrForm a = 3
  let resv := if own then a.extractLsb' 47 15 ≠ 0 || a.extractLsb' 20 25 ≠ 0
              else a.extractLsb' 59 3 ≠ 0 || a.extractLsb' 20 25 ≠ 0
  if resv || addrBuf a = 3 then .error tcBufferRange
  else if a.toNat % align ≠ 0 then .error tcAlign
  else if !own && s.dieCount g.part ≤ addrDie a then .error tcOutside
  else if bufSize (addrBuf a) < addrOff a + size then .error tcBufferRange
  else .ok { die := if own then g.die else (s.physDie? g.part (addrDie a)).getD 0
             core := if own then g.core else addrCore a, buf := addrBuf a, off := addrOff a }

/-- Check 5 of R134: the buffers of a core belong to a launch, and no scrub has begun (R37). -/
def State.coreHeld (s : State) (d c lid : Nat) : Bool :=
  let k := s.getCore d c
  decide (k.owner = some lid) && !k.scrubbing

/-- The causes of traps as asynchronous causes (R134, R288). -/
def asyncCause (c : BitVec 8) : BitVec 8 := if c = tcPeerAbsent then acPeerAbsent else acProtection

/-! ### Homes (R138, R406-R408, R417, R418) -/

/-- The owner die of a physical stack (R14). -/
def State.ownerDie (s : State) (st : Nat) : Nat := if s.stackPort.getLsbD st then (st + 1) % 16 else st

def Partition.sen (p : Partition) : Bool := p.memcfg.getLsbD 0
/-- Striped base in bytes (R408). -/
def Partition.stb (p : Partition) : Nat := (p.memcfg.extractLsb' 32 6).toNat * 2 ^ 30

/-- The usable logical stacks in ascending order (R418). -/
def State.usable (s : State) (p : Partition) : List Nat :=
  (List.range p.stackList.length).filter (fun l =>
    match p.stackList[l]? with
    | some st => !(s.getDie (s.ownerDie st)).dead
    | none => false)

/-- The logical stack and offset of a placed address, if the partition has it (R417). -/
def placedAt (p : Partition) (phys : Nat) : Option (Nat × Nat) :=
  let st := phys / 2 ^ 36
  let off := phys % 2 ^ 36
  if p.stackList.length ≤ st || (p.sen && p.stb ≤ off) then none else some (st, off)

/-- The logical stack and offset of a striped address (R418). -/
def State.stripedAt (s : State) (p : Partition) (a : Nat) : Option (Nat × Nat) :=
  let l := s.usable p
  let n := l.length
  if !p.sen || n = 0 then none
  else
    let c := a / 4096
    let t := c % 1024
    let i := t % n
    let nT := 1024 / n + (if i < 1024 % n then 1 else 0)
    let off := p.stb + ((c / 1024) * nT + t / n) * 4096 + a % 4096
    if 2 ^ 36 ≤ off then none else some (l[i]?.getD 0, off)

/-- Logical stack and offset of a device physical address (R417). -/
def State.physAt (s : State) (p : Partition) (placed : Bool) (phys : Nat) : Option (Nat × Nat) :=
  if placed then placedAt p phys else s.stripedAt p phys

/-- The key of a logical stack's byte. -/
def logKey (p : Partition) (l off : Nat) : Nat := stackKey (p.stackList[l]?.getD 0) off

/-- The home slice of a line (R489), from the 40-bit placed location. -/
def homeSlice (l off : Nat) : Nat :=
  let q := l * 2 ^ 36 + off
  (List.range 7).foldl (fun a m => a ^^^ (q / 2 ^ (7 + 5 * m) % 32)) 0

/-! ### Translation (R419-R422) -/

/-- What a walk answers: a leaf with its level, or TRANSLATION or PROTECTION. -/
inductive Walk where
  | leaf (pte : W64) (level : Nat)
  | fail (cause : BitVec 8)
  deriving DecidableEq, Repr, Inhabited

def pteV (e : W64) : Bool := e.getLsbD 0
def pteR (e : W64) : Bool := e.getLsbD 1
def pteW (e : W64) : Bool := e.getLsbD 2
def pteX (e : W64) : Bool := e.getLsbD 3
def pteP (e : W64) : Bool := e.getLsbD 4
def pteH (e : W64) : Bool := e.getLsbD 5
def pteM (e : W64) : Bool := e.getLsbD 6
def pteLeaf (e : W64) : Bool := e.getLsbD 7
def pteKey (e : W64) : Nat := (e.extractLsb' 8 4).toNat
/-- FRAME with its low 12 bits zero. -/
def pteFrame (e : W64) : Nat := (e.extractLsb' 12 40).toNat * 4096

/-- An entry that fails its walk (R422) at a level. -/
def pteBad (e : W64) (level : Nat) : Bool :=
  !pteV e || e.extractLsb' 52 12 ≠ 0 ||
  (!pteH e && e.extractLsb' 40 12 ≠ 0) ||
  (if pteLeaf e then
     3 ≤ level || (level = 1 && e.extractLsb' 12 9 ≠ 0) || (level = 2 && e.extractLsb' 12 18 ≠ 0) ||
     (level ≠ 0 && pteM e)
   else level = 0 || pteH e)

/-! ### Keys of die memory (R427, R485) -/

/-- The identity of the key in a slot of a partition; 0 for a key that was not delivered by name. -/
def Partition.keyOf (p : Partition) (slot : Nat) : Nat :=
  match p.keyVals.find? (fun k => k.1 == slot) with
  | some k => k.2.1
  | none => 0

/-- The key that a line of die memory was last written under; none for a line that nothing has written since power-on, which
reads alike under every key (log 48, DESIGN CHOICE). -/
def State.lineKey (s : State) (line : Nat) : Option Nat := (s.lineKeys.find? (fun k => k.1 == line)).map (·.2)

/-- The bytes of a line as a key decrypts them. -/
def State.lineUnder (s : State) (line id : Nat) : BitVec 1024 :=
  let now : BitVec 1024 := s.load (128 * line) 128 1024
  match s.lineKey line with
  | none => now
  | some t =>
    if t = id then now
    else
      match s.views.find? (fun v => v.1 == line && v.2.1 == id) with
      | some v => v.2.2
      | none => Config.garble t id line now

/-- An access of a line through a key. One that another key wrote shows what this key makes of it, and what it holds under the
other is kept until something is written; a write makes the line this key's. -/
def State.unlock (s : State) (key id : Nat) (write : Bool) : State :=
  let line := key / 128
  if 2 ^ 40 ≤ key || (s.lineKeys.isEmpty && id = 0) then s
  else
    let others := s.views.filter (fun v => v.1 != line)
    let mine := fun (l : List (Nat × Nat)) => (if id = 0 then [] else [(line, id)]) ++ l.filter (fun k => k.1 != line)
    match s.lineKey line with
    | none => if write then { s with lineKeys := mine s.lineKeys } else s
    | some t =>
      if t = id then (if write then { s with views := others } else s)
      else
        let was : BitVec 1024 := s.load (128 * line) 128 1024
        { s with
          mem := memWrite s.mem (128 * line) 128 (s.lineUnder line id).toNat
          lineKeys := mine s.lineKeys
          views := if write then others else (line, t, was) :: s.views.filter (fun v => !(v.1 == line && v.2.1 == id)) }

/-- The lines of [key, key + n) through a key. -/
def State.unlockAll (s : State) (key n id : Nat) (write : Bool) : State :=
  (List.range (n / 128)).foldl (fun a i => a.unlock (key + 128 * i) id write) s

/-- The 8 bytes of a table entry through a key. -/
def State.entryUnder (s : State) (key id : Nat) : W64 :=
  if s.lineKeys.isEmpty then s.load key 8 64 else (s.lineUnder (key / 128) id).extractLsb' (8 * (key % 128)) 64

/-- The walk from a table at level l (R420), whose lines lie under a key slot: slot 0 for the root, and for another table the
slot of the entry that names it (log 48, DESIGN CHOICE). The number of levels left is the fuel. -/
def State.walk (s : State) (p : Partition) (va slot : Nat) : Nat → Bool → Nat → Walk
  | 0, _, _ => .fail acTranslation
  | l + 1, placed, table =>
    match s.physAt p placed (table + 8 * (va / 2 ^ (12 + 9 * l) % 512)) with
    | none => .fail acProtection
    | some (st, off) =>
      if s.eccRead (logKey p st off) 8 then .fail acEcc
      else
        let e := s.entryUnder (logKey p st off) (p.keyOf slot)
        if pteBad e l then .fail acTranslation
        else if pteLeaf e then .leaf e l
        else if !p.keys.getLsbD (pteKey e) then .fail acProtection
        else s.walk p va (pteKey e) l (pteP e) (pteFrame e)

/-- A walk of the tables as they stand, from the root (R420); bits [62:57] must be zero (R131). -/
def State.freshWalk (s : State) (p : Partition) (va : W64) : Walk :=
  if va.extractLsb' 57 6 ≠ 0 then .fail acTranslation else s.walk p va.toNat 0 5 true p.root

/-- The slice of the requesting die that translates a virtual page (R419). -/
def sliceOf (page : Nat) : Nat := (List.range 9).foldl (fun a m => a ^^^ (page / 32 ^ m % 32)) 0

/-- The entries of a die's slices with one of them limited to n: the oldest go. -/
def trimSlice (slice : Nat) : Nat → List TlbEntry → List TlbEntry
  | _, [] => []
  | n, e :: r =>
    if sliceOf e.page ≠ slice then e :: trimSlice slice n r
    else
      match n with
      | 0 => trimSlice slice 0 r
      | k + 1 => e :: trimSlice slice k r

/-- A slice caches a translation: it holds 4,096 (R419; log 102, DESIGN CHOICE). -/
def Die.cacheLeaf (d : Die) (e : TlbEntry) : Die :=
  { d with tlb := trimSlice (sliceOf e.page) 4096 (e :: d.tlb.filter (fun x => !(x.part == e.part && x.page == e.page))) }

/-- The translation that a slice of a die answers (R419, R423): what it has cached may be older than the tables, and
which of the two a request sees is then free (log 13, DESIGN CHOICE). -/
def State.leafOf (s : State) (d : Nat) (p : Partition) (va : W64) : Walk × State :=
  let page := va.toNat / 4096
  let fresh := s.freshWalk p va
  match (s.getDie d).tlb.find? (fun e => e.part == p.num && e.page == page) with
  | some e =>
    if fresh = .leaf e.leaf e.level then (fresh, s)
    else if s.choice 0 page then (.leaf e.leaf e.level, s)
    else (fresh, s)
  | none =>
    match fresh with
    | .leaf pte lv => (fresh, s.onDie d (fun x => x.cacheLeaf { part := p.num, page := page, leaf := pte, level := lv }))
    | .fail _ => (fresh, s)

/-- What an access needs of a leaf (R422). -/
inductive Need where
  | read | write | atomic | fetch
  deriving DecidableEq, Repr, Inhabited

def Need.allowed (n : Need) (e : W64) : Bool :=
  match n with
  | .read => pteR e
  | .write => pteW e
  | .atomic => pteR e && pteW e
  | .fetch => pteX e

/-- Where an access goes: a byte key, a page on the move that the access must wait for (R424), or a fault. `host` is
set for host memory. -/
inductive Place where
  | ok (key : Nat) (host : Bool)
  | wait
  | bad (cause : BitVec 8)
  deriving DecidableEq, Repr, Inhabited

/-- The physical address of a leaf (R422). -/
def leafPhys (pte : W64) (level : Nat) (va : W64) : Nat :=
  pteFrame pte + va.toNat % 2 ^ (12 + 9 * level)

/-- The port of a function (R444): functions 0 to 256 are port 0's physical function and its virtual ones, 257 to 513
port 1's. -/
def fnPort (fn : Nat) : Nat := if fn < 257 then 0 else 1

/-- The page directory's entry for a page. A host fault that found the page in host memory counts in its own directory cycle
only (R425). -/
def State.moveOf? (s : State) (part va : Nat) : Option PageMove :=
  s.moves.find? (fun m => m.part == part && m.va == va && (!m.idle || m.window || m.since == s.wall))
def State.setMove (s : State) (m : PageMove) : State :=
  { s with moves := s.moves.map (fun x => if x.part = m.part && x.va = m.va then m else x) }
def State.dropMove (s : State) (part va : Nat) : State :=
  { s with moves := s.moves.filter (fun m => !(m.part == part && m.va == va)) }
/-- An entry for a page that has none. -/
def State.addMove (s : State) (m : PageMove) : State := { s.dropMove m.part m.va with moves := (s.dropMove m.part m.va).moves ++ [m] }

/-- Requests released in the order of their arrival (R411, R424). -/
def State.releaseParked (s : State) (rids : List Nat) : State :=
  rids.foldl (fun a r => a.schedWall 0 (.memoryRequest r)) s

/-- A remote mapping holds for the partition's window (R425), and the accesses that waited go on. -/
def State.openWindow (s : State) (p : Partition) (m : PageMove) : State :=
  let s1 := (s.setMove { m with window := true, parked := [] }).releaseParked m.parked
  s1.schedWall (p.hyst * 1000 * Config.ns) (.hysteresisExpiry p.num (BitVec.ofNat 64 m.va))

/-- An entry as a device fault makes it. -/
def newMove (part va : Nat) (asked : Bool) (since : Nat) : PageMove :=
  { part := part, va := va, parked := [], asked := asked, window := false, since := since, byHost := false, idle := false
    lost := false, target := 0 }

/-- The page directory's answer for a device access to a migratable host page (R424, R425): whether it waits, and the
state with the move or the migration event asked for. In the directory cycle of a host fault the host has won, and a page that
the host has taken back stays there for a window. -/
def State.askPage (s : State) (p : Partition) (va : W64) : Bool × State :=
  let page := va.toNat / 4096 * 4096
  match p.home with
  | none => (false, s)
  | some h =>
    let f := s.getFunc h
    match s.moveOf? p.num page with
    | some m =>
      if m.window then (false, s)
      else if m.idle then (false, s.openWindow p m)
      else if m.byHost then (true, s.setMove { m with lost := true })
      else (true, s)
    | none =>
      if !f.pagm && f.pool.isEmpty then (false, s)
      else
        let s1 := s.addMove (newMove p.num page f.pagm s.wall)
        if f.pagm then (true, s1)
        else
          let r := s1.freeDelay
          (true, r.2.schedWall (r.1 + 1) (.pageMigrateIn p.num (BitVec.ofNat 64 page)))

/-- A page of the device that the host is taking: a device access to it waits, and is the loser (R424, R425). -/
def State.leavingPage (s : State) (p : Partition) (va : W64) : Option State :=
  match s.moveOf? p.num (va.toNat / 4096 * 4096) with
  | some m => if m.byHost && !m.idle && !m.window then some (s.setMove { m with lost := true }) else none
  | none => none

/-- The I/O die of a port does not run: nothing passes the port (R480, R488). -/
def State.portDead (s : State) (port : Nat) : Bool := (s.getDie (16 + port)).dead || s.kaolin.tripped

/-- The host refuses an access at a key (R73, R155, R222), or nothing passes the port any more: which accesses the host refuses is
the host's (log 13, DESIGN CHOICE). -/
def State.hostRefuses (s : State) (key : Nat) : Bool := s.portDead (key / 2 ^ 64 - 1) || s.choice 4 key

/-- The home of a virtual address for one access within a page (R417, R422, R424, R427). -/
def State.virtHome (s : State) (d : Nat) (p : Partition) (va : W64) (need : Need) : Place × State :=
  let r := s.leafOf d p va
  match r.1 with
  | .fail c => (.bad c, r.2)
  | .leaf pte lv =>
    if !need.allowed pte then (.bad acProtection, r.2)
    else if pteH pte then
      match p.home with
      | none => (.bad acHostAbort, r.2)
      | some h =>
        let q := if pteM pte then r.2.askPage p va else (false, r.2)
        let key := hostKey (fnPort h) (leafPhys pte lv va)
        if q.1 then (.wait, q.2)
        -- an atomic is first checked for its operation (R155)
        else if need ≠ .atomic && q.2.hostRefuses key then (.bad acHostAbort, q.2) else (.ok key true, q.2)
    else if !p.keys.getLsbD (pteKey pte) then (.bad acProtection, r.2)
    else
      match (if pteM pte then r.2.leavingPage p va else none) with
      | some q => (.wait, q)
      | none =>
        match r.2.physAt p (pteP pte) (leafPhys pte lv va) with
        | none => (.bad acProtection, r.2)
        | some (st, off) =>
          let key := logKey p st off
          (.ok key false, r.2.unlock key (p.keyOf (pteKey pte)) (need = .write || need = .atomic))

/-- The physical stack of a key of die memory. -/
def keyStack (key : Nat) : Option Nat := if key < 2 ^ 40 then some (key / 2 ^ 36) else none

/-- The physical stack of an operand. -/
def State.stackOf (s : State) (part : Nat) (operand : W64) : Option Nat :=
  (s.getPart? part).bind (fun p => p.stackList[(operand.extractLsb' 0 4).toNat]?)

/-- A physical stack is in steps 1 to 6 of a handover (R411). -/
def State.stackDraining (s : State) (st : Nat) : Bool :=
  s.dies.any (fun d => d.handQ.any (fun o => o.draining && s.stackOf o.part o.operand == some st))

/-- The die that is home to a key: the owner of its stack, or the core's; none for host memory. -/
def State.homeDie (s : State) (key : Nat) : Option Nat :=
  match keyStack key with
  | some st => some (s.ownerDie st)
  | none => if key < 2 ^ 72 then none else if key < 2 ^ 80 then some ((key - 2 ^ 72) / 2 ^ 31) else some ((key - 2 ^ 80) / 2 ^ 24)

/-- The activity that accesses by an agent of a die are charged to (R469): 4 where one lies in host memory, 0 where one
crosses dies. -/
def State.activityOf (s : State) (die : Nat) (keys : List Nat) : Option Nat :=
  if keys.any (fun k => (s.homeDie k).isNone) then some 4
  else if keys.any (fun k => s.homeDie k != some die) then some 0
  else none

/-- The home keeps what reaches it from now on until a handover is over (R411). -/
def State.drains (s : State) (key : Nat) : Bool :=
  match keyStack key with
  | some st => s.stackDraining st
  | none => false

/-- The place of a virtual address: an access to a stack in handover waits (R411). -/
def State.virtPlace (s : State) (d : Nat) (p : Partition) (va : W64) (need : Need) : Place × State :=
  match s.virtHome d p va need with
  | (.ok key host, s1) => if s1.drains key then (.wait, s1) else (.ok key host, s1)
  | r => r

/-! ### Asynchronous accesses by engines: word by word over virtual memory, whole over buffers -/

/-- The place of an access of `size` bytes, within a page if virtual (R134, R222): own-core addresses need a core. -/
def State.placeOf (s : State) (g : Agent) (a : W64) (size : Nat) (need : Need) : Place × State :=
  if addrForm a < 2 then
    match s.getPart? g.part with
    | none => (.bad acTranslation, s)
    | some p => s.virtPlace g.die p a need
  else if addrForm a = 3 && 256 ≤ g.core then
    -- a control core's own AB is its die's firmware memory (R463); a die-level engine has no own core (R133)
    let size' := if 16 ≤ g.die then Config.fwSizeIo else Config.fwSizeDie
    if g.skip && decide (g.core < noCore) && addrBuf a = 1 && a.extractLsb' 47 15 = 0 && a.extractLsb' 20 25 = 0 && addrOff a + size ≤ size' then
      (.ok (fwKey g.die (addrOff a)) false, s)
    else (.bad acProtection, s)
  else
    match s.bufCheck g a size 1 with
    | .error c => (.bad (asyncCause c), s)
    | .ok b =>
      if need = .atomic && b.buf = 0 then (.bad acProtection, s)
      else if g.skip || s.coreHeld b.die b.core g.lid then (.ok b.key false, s) else (.bad acPeerAbsent, s)

/-- The outcome of an engine's read or write: done, waiting for a page, or failed at an address. -/
inductive Access (α : Type) where
  | done (v : α)
  | wait
  | fail (cause : BitVec 8) (addr : W64)
  deriving Repr, Inhabited

/-- Bytes that an engine reads at a key: buffers as they stood at the start of the cycle (R151), memory as its die sees
it. What is no core sees all that has been applied. -/
def State.readKey (s : State) (g : Agent) (key n : Nat) : Nat × State :=
  if g.core < noCore then s.readEngine g.die key n
  else (memRead (if 2 ^ 72 ≤ key then s.mem0 else s.mem) key n, s)

/-- The unit in which a virtual range is accessed: words where the range is made of words, else its alignment. -/
def accessUnit (a : W64) (n : Nat) : Nat :=
  if a.toNat % 4 = 0 && n % 4 = 0 then 4 else if a.toNat % 2 = 0 && n % 2 = 0 then 2 else 1

/-- Read k units of u bytes from consecutive addresses. -/
def State.readUnits (s : State) (g : Agent) (u : Nat) (a : W64) : Nat → Access Nat × State
  | 0 => (.done 0, s)
  | k + 1 =>
    match s.placeOf g a u .read with
    | (.bad c, s1) => (.fail c a, s1)
    | (.wait, s1) => (.wait, s1)
    | (.ok key _, s1) =>
      if s1.eccRead key u then (.fail acEcc a, s1)
      else
        let w := s1.readKey g key u
        match w.2.readUnits g u (a + BitVec.ofNat 64 u) k with
        | (.done v, s2) => (.done (w.1 + 2 ^ (8 * u) * v), s2)
        | r => r

/-- How far into [key, key + n) the first address lies that meets an uncorrectable granule; `part` asks for one that the
range does not cover (R287, R487). -/
def State.eccOffset (s : State) (part : Bool) (key n : Nat) : Nat :=
  ((s.ecc.filter (fun g => decide (8 * g < key + n) && decide (key < 8 * g + 8) &&
    !(part && decide (key ≤ 8 * g) && decide (8 * g + 8 ≤ key + n)))).map (fun g => 8 * g - key)).foldl Nat.min n

/-- An engine's read of n bytes (R284): a buffer range is checked whole. -/
def State.readMem (s : State) (g : Agent) (a : W64) (n : Nat) : Access Nat × State :=
  if addrForm a < 2 then s.readUnits g (accessUnit a n) a (n / accessUnit a n)
  else
    match s.placeOf g a n .read with
    | (.bad c, s1) => (.fail c a, s1)
    | (.wait, s1) => (.wait, s1)
    | (.ok key _, s1) =>
      if s1.eccRead key n then (.fail acEcc (a + BitVec.ofNat 64 (s1.eccOffset false key n)), s1)
      else (.done (memRead s1.mem0 key n), s1)

/-- The part of n bytes at an address that lies in their k-th granule: its offset and its length (R150). -/
def granPiece (a : W64) (n k : Nat) : Nat × Nat :=
  let lo := 8 * k - a.toNat % 8
  (lo, Nat.min n (8 * (k + 1) - a.toNat % 8) - lo)
/-- Granules that n bytes at an address touch. -/
def granCount (a : W64) (n : Nat) : Nat := if n = 0 then 0 else (a.toNat % 8 + n + 7) / 8
/-- All those parts. -/
def granPieces (a : W64) (n : Nat) : List (Nat × Nat) := (List.range (granCount a n)).map (granPiece a n)

/-- Where the parts of a range would be written: the key, the offset and the length of each. -/
def State.writePlaces (s : State) (g : Agent) (a : W64) : List (Nat × Nat) → Access (List (Nat × Nat × Nat)) × State
  | [] => (.done [], s)
  | p :: r =>
    match s.placeOf g (a + BitVec.ofNat 64 p.1) p.2 .write with
    | (.bad c, s1) => (.fail c (a + BitVec.ofNat 64 p.1), s1)
    | (.wait, s1) => (.wait, s1)
    | (.ok key _, s1) =>
      match s1.writePlaces g a r with
      | (.done l, s2) => (.done ((key, p) :: l), s2)
      | q => q

/-- An engine's write of n bytes within a granule, or to a buffer. -/
def State.storeEngine (s : State) (g : Agent) (k n v : Nat) : State :=
  (((s.touch g.wid g.die g.core k n).hide g.wid g.part g.die 0 k).attach false k n []).store k n (BitVec.ofNat (8 * n) v)

/-- A granule lies whole within the units of a write. -/
def covered (l : List Nat) (u g : Nat) : Bool := (List.range (8 / u)).all (fun i => l.contains (8 * g + i * u))

/-- The first unit of a write that meets an uncorrectable granule which the write does not cover whole (R487). -/
def State.narrowHit (s : State) (u : Nat) (l : List Nat) : Option Nat :=
  l.find? (fun k => s.eccWrite k u && !covered l u (k / 8))

/-- Units of u bytes written in one cycle, each with its key: an uncorrectable granule that they do not cover whole keeps its
bits, and one that they cover loses its error (R150, R487). -/
def State.storeCycle (s : State) (i : Issue) (u : Nat) (l : List (Nat × Nat)) : State :=
  let ks := l.map (·.1)
  let t := (l.filter (fun p => !(s.eccWrite p.1 u && !covered ks u (p.1 / 8)))).foldl
    (fun a p => (a.touch i.oid i.die i.core p.1 u).store p.1 u (BitVec.ofNat (8 * u) p.2)) s
  { t with ecc := t.ecc.filter (fun g => !covered ks u g) }

/-- Where an engine's write of n bytes would go, if it can be made (R284, R285): a buffer range is checked whole, memory granule
by granule; one that covers part of an uncorrectable granule fails (R487). -/
def State.mayWrite (s : State) (g : Agent) (a : W64) (n : Nat) : Access (List (Nat × Nat × Nat)) × State :=
  if addrForm a < 2 then
    match s.writePlaces g a (granPieces a n) with
    | (.done l, s1) =>
      match l.find? (fun p => s1.eccWrite p.1 p.2.2) with
      | some p => (.fail acEcc (a + BitVec.ofNat 64 p.2.1), s1)
      | none => (.done l, s1)
    | r => r
  else
    match s.placeOf g a n .write with
    | (.bad c, s1) => (.fail c a, s1)
    | (.wait, s1) => (.wait, s1)
    | (.ok key _, s1) =>
      if s1.eccWrite key n then (.fail acEcc (a + BitVec.ofNat 64 (s1.eccOffset true key n)), s1)
      else (.done [(key, 0, n)], s1)

/-- An engine's write of n bytes: none of it is applied when any of it fails (R285). -/
def State.writeMem (s : State) (g : Agent) (a : W64) (n v : Nat) : Access Unit × State :=
  match s.mayWrite g a n with
  | (.done l, s1) => (.done (), l.foldl (fun t p => t.storeEngine g p.1 p.2.2 (v / 2 ^ (8 * p.2.1))) s1)
  | (.wait, s1) => (.wait, s1)
  | (.fail c b, s1) => (.fail c b, s1)

/-! ### Fetch (R71, R73, R74, R463, R466) -/

/-- One guard of a plug-in allows an access of [off, off + n) (R466): it has every bit of %gbase that the access needs, 2 R, 1 W,
0 X. -/
def Ctl.guards (c : Ctl) (which : List Nat) (off n : Nat) : Bool :=
  (List.range 4).any (fun g =>
    let b := rd c.gbase g
    let base := (b.extractLsb' 12 12).toNat * 4096
    let lim := ((rd c.glim g).extractLsb' 12 13).toNat * 4096
    which.all (fun i => b.getLsbD i) && decide (base < lim) && decide (base ≤ off) && decide (off + n ≤ lim))

/-- A packet of eight words from 32 bytes. -/
def packetOf (v : Nat) : BitVec 256 := BitVec.ofNat 256 v

/-- A cached packet and the packet in memory: each 8-byte granule that differs is old or new, freely (R74, log 13, DESIGN CHOICE). -/
def State.mergePacket (s : State) (a : Nat) (old new : BitVec 256) : BitVec 256 :=
  packElems 256 64 (fun i => if elem 64 old i = elem 64 new i then elem 64 new i
    else if s.choice 1 (a + 8 * i) then elem 64 old i else elem 64 new i) 4

/-- The bundles of a start stub (R360), which the front end supplies: `fanout h0, [a0], x1`, `wait.q h0, c0` and `exit 0`,
with PAD behind them. WAIT.q acquires a fault of the FANOUT, so that no record of it stays (log 32, DESIGN CHOICE). -/
def stubPacket : BitVec 256 :=
  packElems 256 32 (fun i => ([0xC5200010#32, 0xC3000001#32, 0x88E00000#32] : List W32)[i]?.getD 0x7FFFFFFF#32) 8

/-- In the place of a trap cause: the fetch waits for a stack in handover (R411). -/
def fetchWaits : BitVec 8 := 0

/-- The fetch packet at an address, a multiple of 32, or the trap cause of R73 (log 71, DESIGN CHOICE). -/
def State.fetchPacket (s : State) (t : Thread) (a : W64) : Except (BitVec 8) (BitVec 256) × State :=
  if t.stub then (.ok stubPacket, s)
  else if t.onControl then
    if t.abSize < a.toNat + 32 then (.error tcFetch, s)
    else if t.priv = .plugin && !t.ctl.guards [0] a.toNat 32 then (.error tcAccess, s)
    else if s.eccRead (fwKey t.die a.toNat) 32 then (.error tcEcc, s)
    else (.ok (packetOf (memRead s.mem (fwKey t.die a.toNat) 32)), s)
  else if a.getLsbD 63 then (.error tcAccess, s)
  else
    match s.getPart? t.part with
    | none => (.error tcFetch, s)
    | some p =>
      match s.virtPlace t.die p a .fetch with
      | (.wait, s1) => (.error fetchWaits, s1)
      | (.bad c, s1) =>
        (.error (if c = acTranslation then tcFetch else if c = acEcc then tcEcc else tcAccess), s1)
      | (.ok key _, s1) =>
        if s1.eccRead key 32 then (.error tcEcc, s1)
        else
          let new := packetOf (memRead s1.mem key 32)
          let c := s1.getCore t.die t.core
          match c.icache.find? (fun e => e.1 == t.part && e.2.1 == a.toNat) with
          | some e =>
            if e.2.2 = new then (.ok new, s1)
            else (.ok (s1.mergePacket a.toNat e.2.2 new), s1)
          | none => (.ok new, s1.setCore { c with icache := (t.part, a.toNat, new) :: c.icache })

/-- The word at a syllable address, from its packet. -/
def packetWord (p : BitVec 256) (a : W64) : W32 := elem 32 p ((a.toNat / 4) % 8)

end Sys2Proof.Machine
end

