-- ==== Sys2Proof/Machine/Operands.lean ====
section
/-! DEFINITION. The operand forms of the formats of R76: immediates, addresses, extra operands and control-flow
targets. -/

namespace Sys2Proof.Machine

/-- simm11 of format SI (R178). -/
def simm11 (i : BitVec 11) : W32 := i.signExtend 32

/-- The immediate of LI: alone sign-extended, or X[15:0]:imm16 (R68, R183). -/
def liImm (i : BitVec 16) (xx : Option (BitVec 26)) : W32 :=
  match xx with
  | none => i.signExtend 32
  | some x => x.extractLsb' 0 16 ++ i

/-- The offset in syllables of JMP and CALL: soff18 alone, or X[25:0]:soff18 (R68, R187). -/
def jmpOff (i : BitVec 18) (xx : Option (BitVec 26)) : W64 :=
  match xx with
  | none => i.signExtend 64
  | some x => (x ++ i : BitVec 44).signExtend 64

/-- The immediate of ALI: simm13 alone, or X[25:0]:simm13 (R68, R213). -/
def aliImm (i : BitVec 13) (xx : Option (BitVec 26)) : W64 :=
  match xx with
  | none => i.signExtend 64
  | some x => (x ++ i : BitVec 39).signExtend 64

/-- The extra-operand X syllable (R69); absent, everything is zero. -/
structure ExtraOp where
  ord : BitVec 2
  mx : Nat
  xs2 : Nat
  ds : Nat
  det : Bool
  deriving DecidableEq, Repr, Inhabited

def extraOp (xx : Option (BitVec 26)) : ExtraOp :=
  match xx with
  | none => ⟨0, 0, 0, 0, false⟩
  | some x => ⟨x.extractLsb' 24 2, (x.extractLsb' 16 5).toNat, (x.extractLsb' 11 5).toNat,
               (x.extractLsb' 8 3).toNat, x.getLsbD 7⟩

/-! ### Addresses of format AM (R204) -/

/-- off8 scaled by the access size. -/
def scaled8 (o : BitVec 8) (scale : Nat) : W64 := o.signExtend 64 * BitVec.ofNat 64 scale

/-- The address of an AM syllable: mode 0 offset, 1 index, 2 post-increment. -/
def State.amAddr (s : State) (m : BitVec 2) (a : Nat) (o : BitVec 8) (scale : Nat) : W64 :=
  match m.toNat with
  | 0 => s.ra a + scaled8 o scale
  | 1 => s.ra a + (s.rx (o.extractLsb' 0 5).toNat).signExtend 64
  | _ => s.ra a

/-- The base register's update in mode 2. -/
def State.amPost (s : State) (m : BitVec 2) (a : Nat) (o : BitVec 8) (scale : Nat) : State :=
  if m = 2 then s.wa a (s.ra a + scaled8 o scale) else s

/-! ### Control-flow targets (R65, R71, R72) -/

/-- PAD (R64). -/
def padWord : W32 := 0x7FFFFFFF

/-- The packet that holds an address. -/
def packetAddr (a : W64) : W64 := a &&& ~~~31#64

/-- Words of a bundle beyond its first, from word i of a packet; fuel 8 − i (R65). -/
def restLen (p : BitVec 256) (i : Nat) : Nat → Nat
  | 0 => 0
  | fuel + 1 =>
    if 8 ≤ i then 0
    else
      let w := elem 32 p i
      if w.getLsbD 31 || w = padWord then 0 else restLen p (i + 1) fuel + 1

/-- The length in words of the bundle at an address of a packet (R65). -/
def bundleLen (p : BitVec 256) (a : W64) : Nat :=
  let i := a.toNat / 4 % 8
  1 + restLen p (i + 1) 8

/-- Where sequential flow continues after the bundle at an address (R71). -/
def bundleNext (p : BitVec 256) (a : W64) : W64 :=
  let j := a.toNat / 4 % 8 + bundleLen p a
  if 8 ≤ j || elem 32 p j = padWord then packetAddr a + 32 else a + BitVec.ofNat 64 (4 * bundleLen p a)

/-- A control transfer of the bundle's S syllable to a target (R72): TARGET_NOT_START when the target is no word's address
(R196) or its word does not start a bundle. A packet that cannot be fetched traps at the target instead (R73); one that has
to wait
for a stack in handover holds the jump (R411; log 94, DESIGN CHOICE). -/
def State.jumpTo (s : State) (a : W64) : State :=
  match s.fetchPacket s.pre (packetAddr a) with
  | (.ok p, s1) =>
    if a.extractLsb' 0 2 = 0 && (packetWord p a).getLsbD 31 then { s1 with bun := { s1.bun with taken := some a } }
    else s1.trapSyl .trap 0 tcTarget 0 a
  | (.error c, s1) => if c = fetchWaits then s1.block else { s1 with bun := { s1.bun with taken := some a } }

/-- A register target in the 4 GiB region of the jumping bundle (R188). -/
def State.regionTarget (s : State) (x : W32) : W64 := s.pre.pc.extractLsb' 32 32 ++ x

/-- A jump to a register target: ALIGN when its low bits are not zero (R72, R188). -/
def State.jumpReg (s : State) (x : W32) : State :=
  let a := s.regionTarget x
  if x.extractLsb' 0 2 ≠ 0 then s.trapSyl .trap 0 tcAlign 0 a else s.jumpTo a

/-- ILLEGAL_SYLLABLE for a class that the issuing core lacks (R22, R93). -/
def State.illegal (s : State) (c : Nat) : State := s.trapSyl .illegal c tcIllegal 0 0
/-- PRIVILEGE (R165). -/
def State.noPriv (s : State) (c : Nat) : State := s.trapSyl .privilege c tcPrivilege 0 0

/-- V and M syllables need a compute core (R22). -/
def State.onCompute (s : State) (c : Nat) (f : State → State) : Out :=
  .next (if s.pre.onControl then s.illegal c else f s)
/-- An N syllable, or one of RLD, RST, RAMO and PEER, at plug-in privilege traps PRIVILEGE (R466). -/
def State.notPlugin (s : State) (c : Nat) (f : State → State) : Out :=
  .next (if s.pre.priv = .plugin then s.noPriv c else f s)

end Sys2Proof.Machine
end

