-- ==== Sys2Proof/Machine/Flags.lean ====
section
/-! DEFINITION. Conditions and flags: the comparisons of CMP (R184), the operations of CLOG (R185) and the atomic
operations with the flags they raise (R156). -/

namespace Sys2Proof.Machine

/-- The outcome of CMP (R184). -/
def cmpOutcome (k : BitVec 3) (a b : W32) : Bool :=
  match k.toNat with
  | 0 => a == b
  | 1 => a != b
  | 2 => BitVec.slt a b
  | 3 => BitVec.sle a b
  | 4 => BitVec.ult a b
  | 5 => BitVec.ule a b
  | 6 => a &&& b != 0
  | _ => a &&& b == 0

/-- The operation of CLOG (R185): 0 and, 1 or, 2 xor, 3 mov. -/
def clogOutcome (o : BitVec 3) (a b : Bool) : Bool :=
  match o.toNat with
  | 0 => a && b
  | 1 => a || b
  | 2 => xor a b
  | _ => a

/-- The new value of an atomic on a word of w bits (R156), with the flags it raises; `none` when a cas fails. The
operations are numbered as in R216: 8 swap, 9 cas, 10 fadd, 11 fmin, 12 fmax. `det` selects deterministic fadd with
FB from a %dscale register. -/
def atomicOp (w op : Nat) (det : Bool) (fb : BitVec 8) (old x cmp : Nat) (r : RndCtx) : Option Nat × Flags :=
  let o : BitVec w := BitVec.ofNat w old
  let v : BitVec w := BitVec.ofNat w x
  if det then
    let q := detQuant (fDecode .f32 x) fb.toInt
    let a := detAdd o.toInt q.1
    (some (intBits 64 a.1), q.2 ||| a.2)
  else
    match op with
    | 0 => (some (o + v).toNat, 0)
    | 1 => (some (o &&& v).toNat, 0)
    | 2 => (some (o ||| v).toNat, 0)
    | 3 => (some (o ^^^ v).toNat, 0)
    | 4 => (some (if BitVec.slt v o then v else o).toNat, 0)
    | 5 => (some (if BitVec.slt o v then v else o).toNat, 0)
    | 6 => (some (if BitVec.ult v o then v else o).toNat, 0)
    | 7 => (some (if BitVec.ult o v then v else o).toNat, 0)
    | 8 => (some v.toNat, 0)
    | 9 => (if old = cmp then some v.toNat else none, 0)
    | 10 =>
      let a := (fDecode .f32 old).add r.mode (fDecode .f32 x)
      let b := roundTo .f32 r.mode a.1 (r.sr 0 0)
      (some b.1, a.2 ||| b.2)
    | 11 =>
      let m := minMaxNum .f32 false old x
      (some m.1, m.2)
    | _ =>
      let m := minMaxNum .f32 true old x
      (some m.1, m.2)

end Sys2Proof.Machine
end

