-- ==== Sys2Proof/Machine/Group.lean ====
section
/-! DEFINITION. Work identifiers, groups and their members (R27-R31, R192, R368), timeline contexts wherever they are
(R278-R291), and a thread's leaving (R193, R194, R37). -/

namespace Sys2Proof.Machine

/-! ### Work identifiers (R27-R31, R357) -/

/-- Width of field i of a FIELDS word. -/
def fieldWidth (f : W64) (i : Nat) : Nat :=
  if f.getLsbD 63 then (if (f.extractLsb' 60 3).toNat = i then 64 else 0) else (f.extractLsb' (6 * i) 6).toNat
/-- Placement code of field i. -/
def fieldPlace (f : W64) (i : Nat) : Nat := (f.extractLsb' (36 + 3 * i) 3).toNat
/-- Sum of the widths below field l: where level l cuts the identifier. -/
def levelShift (f : W64) (l : Nat) : Nat := ((List.range l).map (fieldWidth f)).foldl (· + ·) 0
/-- The identifier with the fields below level l set to zero: the name of its group (R31). -/
def groupKey (f wid : W64) (l : Nat) : W64 := (wid >>> levelShift f l) <<< levelShift f l

/-- A thread is of the group of launch `lid` at a level. -/
def Thread.inGroup (t : Thread) (lid level : Nat) (key : W64) : Bool :=
  t.lid == lid && groupKey t.widf t.wid level == key

/-- Every task record of the package that waits or is on its way (R192, R364). -/
def State.records (s : State) : List TaskRec :=
  s.dies.flatMap (·.ready) ++
  s.cores.flatMap (fun c => c.arrivals.filterMap (fun a => match a with | .record r => some r | .thread _ _ => none))

/-- The FIELDS word of a launch, from its header. -/
def State.fieldsOf (s : State) (lid : Nat) : W64 :=
  match s.getLaunch? lid with
  | some l => l.fields
  | none => 0

def State.recInGroup (s : State) (r : TaskRec) (lid level : Nat) (key : W64) : Bool :=
  r.lid == lid && groupKey (s.fieldsOf lid) r.wid level == key

/-- The members of a group that have not exited. -/
def State.liveMembers (s : State) (lid level : Nat) (key : W64) : List Thread :=
  s.allThreads.filter (fun t => t.inGroup lid level key && t.st ≠ .exited)

/-- A barrier or frame instance has every member arrived, no record of its group waiting (R192, R56). -/
def State.allArrived (s : State) (g : Group) : Bool :=
  (s.liveMembers g.lid g.level g.key).all (fun t => g.arrived.contains t.tid) &&
  !s.records.any (fun r => s.recInGroup r g.lid g.level g.key)

/-- The largest link count between the dies of a set (R192). -/
def maxLinks (ds : List Nat) : Nat := ds.foldl (fun m a => ds.foldl (fun n b => Nat.max n (linkCount a b)) m) 0
/-- The bound, in cycles, within which a group operation reaches its members (R192; log 6, DESIGN CHOICE). -/
def groupBound (ds : List Nat) : Nat :=
  if ds.eraseDups.length ≤ 1 then 16 else 16 + 40 * maxLinks ds.eraseDups

/-- Two levels name the same set for a thread of these fields (R31). -/
def sameLevel (f : W64) (a b : Nat) : Bool := levelShift f a == levelShift f b

/-- Register a thread in an instance of its group that it is not yet part of and that is open, or open one. Levels that name
one set share their instances (log 87, DEDUCED). -/
def State.arrive (s : State) (t : Thread) (kind : GroupKind) (level : Nat) : Nat × State :=
  let key := groupKey t.widf t.wid level
  let ids := s.liveIds (t.seen ++ (s.getCore t.die t.core).locals)
  match s.groups.find? (fun g => g.kind == kind && g.lid == t.lid && sameLevel t.widf g.level level && g.key == key &&
      !g.complete && g.starts.isEmpty && !g.arrived.contains t.tid) with
  | some g => (g.gid, s.setGroup { g with arrived := g.arrived ++ [t.tid], lastDie := t.die, ids := g.ids ++ ids })
  | none =>
    let g : Group := { gid := s.nextId, lid := t.lid, level := level, key := key, kind := kind, arrived := [t.tid],
                       complete := false, starts := [], lastDie := t.die, ids := ids }
    (g.gid, { s with nextId := s.nextId + 1 }.setGroup g)

/-- The instance that a thread has arrived at and not left. -/
def State.arrivedAt? (s : State) (t : Thread) (kind : GroupKind) (level : Nat) : Option Group :=
  s.groups.find? (fun g => g.kind == kind && g.lid == t.lid && sameLevel t.widf g.level level &&
    g.key == groupKey t.widf t.wid level && g.arrived.contains t.tid)

/-- A thread leaves an instance; the last one to leave removes it. -/
def State.departGroup (s : State) (gid tid : Nat) : State :=
  match s.getGroup? gid with
  | none => s
  | some g =>
    let rest := g.arrived.filter (· != tid)
    if rest.isEmpty then { s with groups := s.groups.filter (fun x => x.gid != gid) }
    else s.setGroup { g with arrived := rest }

/-! ### Timeline contexts (R278, R280) -/

/-- Where a context lives. -/
inductive TlRef where
  | copy (d c x : Nat)
  | remote (tid : Nat)
  | matrix (d c : Nat)
  | prism (d c : Nat)
  | coll (d x : Nat)
  | task (d x : Nat)
  | hand (d : Nat)
  | xl (d : Nat)
  deriving DecidableEq, Repr, Inhabited

/-- Class and context number of a context (R278). -/
def TlRef.cls : TlRef → Nat
  | .copy .. => 0 | .remote _ => 1 | .matrix .. => 2 | .prism .. => 3 | .coll .. => 4 | .task .. => 5
  | .hand _ => 6 | .xl _ => 7
def TlRef.ctx : TlRef → Nat
  | .copy _ _ x => x
  | .coll _ x => x
  | .task _ x => x
  | _ => 0

def CopyCtx.init : CopyCtx := { tl := Timeline.init, queue := [] }
/-- A signal passes from one core of a die to another (R48): where their clock regions meet, it takes an entry of the boundary buffer
between them, with the sender's cycle number as its tag. Longer ways have no entries here (log 44, DESIGN CHOICE). -/
def State.cross (s : State) (d a b : Nat) : State :=
  let q := regionOf a
  let r := regionOf b
  if regionsMeet q r then s.onDie d (fun k => { k with entries := (q, r, k.cyc) :: k.entries }) else s

def CollCtx.init : CollCtx := { tl := Timeline.init, queue := [], arrived := [] }

/-- The state of a context. -/
def State.getTl (s : State) : TlRef → Timeline
  | .copy d c x => ((s.getCore d c).copy[x]?.getD CopyCtx.init).tl
  | .remote tid => ((s.getThread? tid).map (·.rc)).getD Timeline.init
  | .matrix d c => (s.getCore d c).mat.tl
  | .prism d c => (s.getCore d c).prism.tl
  | .coll d x => ((s.getDie d).coll[x]?.getD CollCtx.init).tl
  | .task d x => (s.getDie d).task[x]?.getD Timeline.init
  | .hand d => (s.getDie d).hand
  | .xl d => (s.getDie d).xl

def State.setTl (s : State) (r : TlRef) (t : Timeline) : State :=
  match r with
  | .copy d c x => s.onCore d c (fun k =>
      { k with copy := k.copy.setIfInBounds x { (k.copy[x]?.getD CopyCtx.init) with tl := t } })
  | .remote tid => s.onThread tid (fun k => { k with rc := t })
  | .matrix d c => s.onCore d c (fun k => { k with mat := { k.mat with tl := t } })
  | .prism d c => s.onCore d c (fun k => { k with prism := { k.prism with tl := t } })
  | .coll d x => s.onDie d (fun k =>
      { k with coll := k.coll.setIfInBounds x { (k.coll[x]?.getD CollCtx.init) with tl := t } })
  | .task d x => s.onDie d (fun k => { k with task := k.task.setIfInBounds x t })
  | .hand d => s.onDie d (fun k => { k with hand := t })
  | .xl d => s.onDie d (fun k => { k with xl := t })

/-- A thread has exited, or is gone. -/
def State.exited (s : State) (tid : Nat) : Bool :=
  match s.getThread? tid with
  | some t => t.st = .exited
  | none => true

/-- The flags of an operation reach its thread as its fault enters the record, which is its completion (R122, R289). -/
def State.landFlags (s : State) (r : TlRef) : State :=
  let t := s.getTl r
  match t.frec with
  | some f => if f.flags = 0 then s else (s.setTl r { t with frec := some { f with flags := 0 } }).flagsTo f.tid f.flags
  | none => s

/-- A record whose thread has exited goes to the control cores and leaves its context (R194, R289). Where the thread was ended
by another, that is at the next fault or release of a record in the context (log 115, DESIGN CHOICE). -/
def State.sendOrphans (s : State) (r : TlRef) : Nat → State
  | 0 => s
  | fuel + 1 =>
    let t := s.getTl r
    match t.frec with
    | some f =>
      if s.exited f.tid && f.tid ≠ 0 then
        (({ s with frecs := s.frecs ++ [f] }.setTl r t.freeRec).landFlags r).sendOrphans r fuel
      else s
    | none => s

/-- Operation n of a context completes (R283). -/
def State.completeOp (s : State) (r : TlRef) (n : Nat) : State := s.setTl r ((s.getTl r).complete n)
/-- Operation f.num of a context completes with a fault (R289). -/
def State.faultOp (s : State) (r : TlRef) (f : FaultRec) : State :=
  let s1 := ((s.setTl r ((s.getTl r).fault f)).landFlags r).reportEcc (f.cause == acEcc)
    (match s.getThread? f.tid with | some t => s.partOf t | none => 16) 3 f.handle.toNat
  s1.sendOrphans r ((s1.getTl r).held.length + 1)
/-- The record of a context is freed (R289). -/
def State.freeFault (s : State) (r : TlRef) : State :=
  let s1 := (s.setTl r (s.getTl r).freeRec).landFlags r
  s1.sendOrphans r ((s1.getTl r).held.length + 1)

/-- Every context that exists, a thread's own remote context first. -/
def State.contexts (s : State) (tid : Nat) : List TlRef :=
  [.remote tid] ++
  s.cores.flatMap (fun k => (List.range 4).map (fun x => TlRef.copy k.die k.core x) ++
    [TlRef.matrix k.die k.core, TlRef.prism k.die k.core]) ++
  s.dies.flatMap (fun d => (List.range 16).map (fun x => TlRef.coll d.die x) ++
    (List.range 9).map (fun x => TlRef.task d.die x) ++ [TlRef.hand d.die, TlRef.xl d.die])

/-- The lowest handle of a faulted operation of a thread that no WAIT has acquired (R194). -/
def State.unreported? (s : State) (tid : Nat) : Option W64 :=
  let hs := (s.contexts tid).flatMap (fun r =>
    let t := s.getTl r
    ((t.frec.toList ++ t.held).filter (fun f => f.tid == tid && !f.reported)).map (·.handle))
  hs.foldl (fun m h => match m with
    | none => some h
    | some k => if BitVec.ult h k then some h else some k) none

/-- Asynchronous operations of a thread that have not completed (R194), its SPAWNs and FANOUTs among them. -/
def State.asyncPending (s : State) (tid : Nat) : Bool :=
  s.records.any (fun r => r.iss.tid == tid) ||
  s.launches.any (fun l => l.fanIss.tid == tid && !(s.getTl (.task l.fanDie 8)).isDone l.fanNum) ||
  (match s.getThread? tid with | some t => !t.outstanding.isEmpty | none => false) ||
  s.cores.any (fun k => k.copy.toList.any (fun c => c.queue.any (fun o => o.iss.tid == tid)) ||
    k.mat.queue.any (fun o => o.iss.tid == tid) || k.prism.queue.any (fun o => o.iss.tid == tid)) ||
  s.dies.any (fun d => d.coll.toList.any (fun c => c.queue.any (fun o => o.iss.tid == tid)) ||
    d.handQ.any (fun o => o.iss.tid == tid) || d.xlQ.any (fun o => o.iss.tid == tid))

/-! ### Leaving (R193, R37, R261, R313) -/

/-- A thread is still present on a core for R37: resident, moving off it, or spilled from it, or exited with an
asynchronous operation under way (R194). -/
def State.present (s : State) (t : Thread) (d c lid : Nat) : Bool :=
  t.lid == lid && t.die == d && t.core == c && (t.st ≠ .exited || s.asyncPending t.tid)

/-- A core's buffers are still needed by the launch that holds them (R37, R374). -/
def State.coreInUse (s : State) (k : Core) (lid : Nat) : Bool :=
  s.allThreads.any (fun t => s.present t k.die k.core lid) || !k.fwd.isEmpty ||
  (s.getDie k.die).ready.any (fun r => r.lid == lid) ||
  k.arrivals.any (fun a => match a with
    | .record r => r.lid == lid
    | .thread tid _ => (match s.getThread? tid with | some t => t.lid == lid | none => false))

/-- A thread ends: its turn becomes free, its pending long results and snapshot entries, its bindings, its engines
and its pool slot are given up (R193, R260, R313, R434). -/
def State.leave (s : State) (tid : Nat) : State :=
  match s.getThread? tid with
  | none => s
  | some t =>
    let s1 := s.setThread { t with st := .exited, seen := s.liveIds (t.seen ++ (s.getCore t.die t.core).locals), longs := [], exiting := false, spilled := none, spilling := false, barChk := [],
                                   vdly := 0, vkept := 0, target := none }
    let s2 := match t.spilled with
      | some k => s1.onDie t.die (fun d => { d with pool := d.pool &&& ~~~(1#4096 <<< k) })
      | none => s1
    let s3 := s2.onCore t.die t.core (fun k => { k with
      ports := k.ports.map (fun p => if p.bound = some tid then { p with bound := none } else p)
      mat := if k.mat.owner = some tid then { k.mat with owner := none } else k.mat
      arrivals := k.arrivals.filter (fun a => a != Arrival.thread tid true && a != Arrival.thread tid false) })
    let s4 := match t.dest with
      | some (d, c) => s3.onCore d c (fun k => { k with arrivals := k.arrivals.filter (fun a => a != Arrival.thread tid true && a != Arrival.thread tid false) })
      | none => s3
    let inst := fun (g : Group) => g.kind == .barrier || g.kind == .frame
    -- the exit of a member that has not arrived is its arrival (R56, R192)
    let last := fun (g : Group) => t.inGroup g.lid g.level g.key && !g.arrived.contains tid
    let gs := s4.groups.map (fun g => if inst g then
      { g with arrived := g.arrived.filter (· != tid), lastDie := if last g then t.die else g.lastDie } else g)
    -- a barrier whose only arrivals have left still hands on what they covered (R191)
    let kept := fun (g : Group) => g.kind == .barrier && g.ids.any s4.liveId && s4.threads.any (fun u =>
      u.st != .exited && u.inGroup g.lid g.level g.key)
    { s4 with groups := gs.filter (fun g => !(g.arrived.isEmpty && inst g) || kept g) }

/-- The entries of an arrival list that are no records that p picks. -/
def keepArrival (p : TaskRec → Bool) : Arrival → Bool
  | .record r => !p r
  | .thread _ _ => true

/-- Queued records are removed. -/
def State.takeRecords (s : State) (p : TaskRec → Bool) : State :=
  { s with
    dies := s.dies.map (fun d => { d with ready := d.ready.filter (fun r => !p r) })
    cores := s.cores.map (fun k => { k with arrivals := k.arrivals.filter (keepArrival p) }) }

/-- Queued records of a group are removed and their SPAWNs complete (R193, R368). -/
def State.dropRecords (s : State) (p : TaskRec → Bool) : State :=
  (s.records.filter p).foldl (fun a r => a.completeOp (.task r.ctxDie r.ctx) r.num) (s.takeRecords p)

/-- A group of a launch has been exited (R193): its records go, and the exit is on its way to every other member. The
caller ends the issuer. -/
def State.exitGroup (s : State) (lid level : Nat) (key : W64) (from' : Nat) : State :=
  let ms := (s.liveMembers lid level key).filter (fun t => t.tid != from')
  let dies := (s.liveMembers lid level key).map (·.die)
  let g : Group := { gid := s.nextId, lid := lid, level := level, key := key, kind := .exited, arrived := [],
                     complete := true, starts := [], lastDie := 0, ids := [] }
  let s1 := { s with nextId := s.nextId + 1, groups := s.groups ++ [g] }.dropRecords
    (fun r => s.recInGroup r lid level key)
  ms.foldl (fun a t =>
    let r := a.freeUpTo (groupBound dies - 1)
    r.2.schedIn t.die (r.1 + 1) rankEngine (.exitArrival t.tid)) s1

/-- A record's group has been exited (R368). -/
def State.groupGone (s : State) (r : TaskRec) : Bool :=
  s.groups.any (fun g => g.kind == .exited && s.recInGroup r g.lid g.level g.key)

end Sys2Proof.Machine
end

