-- ==== Sys2Proof/Machine/Sync.lean ====
section
/-! DEFINITION. Releases and acquires (R144–R149, R152): what a thread's accesses to its core's buffers carry, what a release
covers, and how the writes that an acquire needs come to be seen (log 38, DESIGN CHOICE). -/

namespace Sys2Proof.Machine

/-- The die that a request goes to first. -/
def State.reqDie (s : State) (q : Req) : Nat :=
  match q.addrs with
  | a :: _ => if addrForm a = 2 then (s.physDie? q.part (addrDie a)).getD q.iss.die else q.iss.die
  | [] => q.iss.die

/-- The place of a request among the arrivals of a cycle (R151). -/
def State.reqRank (s : State) (q : Req) : Nat := rankArrival (s.logDie q.part q.iss.die) q.iss.core q.iss.turn

/-- The event by which a request reaches its home. -/
def Req.arrival (q : Req) : Event :=
  match q.addrs with
  | a :: _ => if addrForm a < 2 then .memoryRequest q.rid else .peerRequest q.rid
  | [] => .peerRequest q.rid

/-- The requests that must be applied for `ids` to be: those themselves, the ones that they follow, and the earlier ones of
the same threads. -/
def State.needed (s : State) (ids : List Nat) : List Nat :=
  s.reqs.foldr (fun q acc =>
    if acc.contains q.rid ||
        s.reqs.any (fun r => acc.contains r.rid && r.iss.tid == q.iss.tid && decide (q.rid < r.rid)) then
      q.rid :: (acc ++ q.after)
    else acc) ids

/-- Bring forward the requests that `ids` need: they reach their homes in the next cycle there, each at its place in R151; a
budget does not hold them (log 55, DESIGN CHOICE). -/
def State.expedite (s : State) (ids : List Nat) : State :=
  let all := s.needed ids
  let late := s.reqs.filter (fun q => !q.applied && all.contains q.rid)
  let mine := fun (e : Pending) => late.any (fun q => e.ev == q.arrival)
  let moved := late.filter (fun q => s.agenda.any (fun e => e.ev == q.arrival) ||
    s.parts.any (fun p => p.holding.any (fun e => e.ev == q.arrival)))
  let s1 := { s with
    reqs := s.reqs.map (fun (q : Req) => if !q.applied && all.contains q.rid then { q with rush := true } else q)
    agenda := s.agenda.filter (fun e => !mine e)
    parts := s.parts.map (fun (p : Partition) => { p with holding := p.holding.filter (fun e => !mine e) }) }
  moved.foldl (fun a q => a.schedIn (a.reqDie q) 1 (a.reqRank q) q.arrival) s1

/-- The writes `ids` are seen on die d from now on: those that have been applied at once, the others with their
application (R146, R147, R218). -/
def State.see (s : State) (d : Nat) (ids : List Nat) : State :=
  let l := s.liveIds ids
  if l.isEmpty then s
  else
    let s1 := { s with
      late := liveLate (clearLate d l s.late).1
      reqs := s.reqs.map (fun (q : Req) => if l.contains q.rid then { q with shown := q.shown ||| (1#16 <<< d) } else q) }
    if s1.reqs.any (fun q => !q.applied && l.contains q.rid) then s1.expedite l else s1

/-! ### The accesses of a thread to its core's buffers (R143) -/

/-- The set of the dies of a partition. -/
def allDies : BitVec 16 := BitVec.allOnes 16

/-- Every access to the core's buffers follows those of earlier cycles (R143): what comes before this one comes before the
later ones of the core too, and before the thread's next release. -/
def State.noteLocal (s : State) : State :=
  let k := s.getCore s.me.die s.me.core
  let mine := s.liveIds (s.me.before ++ s.me.carry.flatMap (·.ids))
  let core := s.liveIds k.locals
  let s1 := if core.isEmpty then s else { s with me := { s.me with seen := s.liveIds (s.me.seen ++ core) } }
  if mine.isEmpty then s1 else s1.setCore { k with locals := s.liveIds (k.locals ++ mine) }

/-- A read of n bytes of the core's buffers: what it brings waits for an acquire (R146). -/
def State.noteRead (s : State) (key n : Nat) : State :=
  let core := s.liveIds (s.getCore s.me.die s.me.core).locals
  let items := s.liveItems (s.brought key n ++ [{ part := s.partOf s.me, mask := allDies, ids := core }])
  (if items.isEmpty then s else { s with me := { s.me with got := s.liveItems (s.me.got ++ items) } }).noteLocal

/-- A write of n bytes of the core's buffers, with what it hands on beyond the thread's FENCEs. A write after a FENCE.rel
may not be seen before the writes that the fence covers (R145): a plain one brings them forward; an atomic one leaves that
to the acquiring side (R218). -/
def State.noteWrite (s : State) (rmw : Bool) (key n : Nat) (items : List MsgItem) : State :=
  let fenced := s.liveIds (s.me.carry.flatMap (·.ids))
  let s1 := ((s.touch 0 s.me.die s.me.core key n).attach rmw key n (s.me.carry ++ items)).noteLocal
  if rmw || fenced.isEmpty then s1 else s1.expedite fenced

/-! ### Releases and acquires (R145) -/

/-- The die of the thread in the issue stage, as its partition numbers it. -/
def State.myDie (s : State) : Nat := s.logDie (s.partOf s.me) s.me.die

/-- What a release of the thread in the issue stage to a set of logical dies hands on (R145, R147). -/
def State.handing (s : State) (mask : BitVec 16) : MsgItem :=
  { part := s.partOf s.me, mask := mask ||| (1#16 <<< s.myDie), ids := s.covers }

/-- A release orders what it covers before the thread's later accesses (R144). -/
def State.ordered (s : State) : State :=
  let l := s.covers
  if l.isEmpty then s else { s with me := { s.me with before := s.liveIds (s.me.before ++ l) } }

/-- FENCE.rel: the thread's later writes are its signal writes (R146). -/
def State.release (s : State) (mask : BitVec 16) : State :=
  let i := s.handing mask
  if i.ids.isEmpty then s else { s.ordered with me := { s.ordered.me with carry := s.liveItems (s.me.carry ++ [i]) } }

/-- A release names the die of the thread in the issue stage. -/
def State.names (s : State) (i : MsgItem) : Bool := i.part == s.partOf s.me && i.mask.getLsbD s.myDie

/-- An acquire by the thread in the issue stage (R145): the writes `ids` happen before its later accesses, and its die sees
them. An asynchronous read that it has not waited for follows the acquire (R144). -/
def State.acquire (s : State) (ids : List Nat) : State :=
  let l := s.liveIds ids
  let s1 := if s.me.reads.isEmpty then s
            else { s with me := { s.me with reads := s.me.reads.map (fun r => { r with stale := true }) } }
  if l.isEmpty then s1
  else
    { s1 with me := { s1.me with
      seen := s.liveIds (s1.me.seen ++ l), before := s.liveIds (s1.me.before ++ l) } }.see s.me.die l

/-- FENCE.acq: it covers every read of the thread (R145). -/
def State.acquireAll (s : State) : State :=
  let mine := s.me.got.filter s.names
  let s1 := s.acquire (mine.flatMap (·.ids))
  if mine.isEmpty then s1 else { s1 with me := { s1.me with got := s.me.got.filter (fun i => !s.names i) } }

/-- FENCE.sc (R149): it is an acquire and a release, and every earlier FENCE.sc of the partition that names this die happens
before it. -/
def State.fenceSc (s : State) (mask : BitVec 16) : State :=
  let s1 := s.acquireAll.acquire ((s.scLog.filter s.names).flatMap (·.ids))
  let i := s1.handing mask
  { s1.release mask with scLog := s1.liveItems (s1.scLog ++ [i]) }

/-- What a thread's WAIT for operation n of a context acquires (R152): the completions up to n that name its die. -/
def State.acquireOps (s : State) (ref : TlRef) (n : Nat) : State :=
  s.acquire (((s.getTl ref).rel.filter (fun x => decide (x.1 ≤ n) && s.names x.2)).flatMap (·.2.ids))

/-- What the completion or the atomic of an operation hands on: its own writes and what happened before its issue. -/
def State.handed (s : State) (i : Issue) (mask : BitVec 16) : MsgItem :=
  { part := i.part, mask := mask ||| (1#16 <<< s.logDie i.part i.die), ids := s.liveIds (i.oid :: i.after) }

/-- Operation n of a context, with its issue, releases to a set of logical dies (R145, R152): its own writes and what
happened before it. -/
def State.relDone (s : State) (ref : TlRef) (i : Issue) (mask : BitVec 16) : State :=
  let item := s.handed i mask
  if item.ids.isEmpty then s
  else
    let t := s.getTl ref
    (s.setTl ref { t with rel := (t.rel ++ [(i.num, item)]).filter (fun x => x.2.ids.any s.liveId) }).onThread i.tid
      (fun u => { u with overIds := s.liveIds (u.overIds ++ item.ids) })

/-- The writes `ids` happen before every later access of a thread, wherever it is, and its die sees them (R145: BAR, and
the start of a spawned or moved thread). -/
def State.join (s : State) (tid : Nat) (ids : List Nat) : State :=
  match s.getThread? tid with
  | none => s
  | some t =>
    let l := s.liveIds ids
    if l.isEmpty then s
    else
      (s.setThread { t with
        seen := s.liveIds (t.seen ++ l), before := s.liveIds (t.before ++ l)
        reads := t.reads.map (fun r => { r with stale := true }) }).see t.die l

end Sys2Proof.Machine
end

