-- ==== Sys2Proof/Machine/Request.lean ====
section
/-! DEFINITION. Off-core accesses and remote operations as requests (R144, R150, R151, R208, R218–R222): what one holds, the
places of its events, and what an event does at its home. -/

namespace Sys2Proof.Machine

/-! ### What a request follows (R144–R146) -/

/-- What a new request must follow: what the thread has acquired, and, for a write, what a release covers whose mask names
the home's die; memory serves every die. -/
def State.follows (s : State) (write : Bool) (addrs : List W64) (rel : List MsgItem) : List Nat :=
  let open' := fun (own : Bool) (i : Nat) => s.reqs.any (fun r => r.rid == i && !r.applied && (own || r.iss.tid != s.me.tid))
  let named := fun (i : MsgItem) => addrs.any (fun a => addrForm a != 2 || i.mask.getLsbD (addrDie a))
  let fences := ((s.me.carry ++ rel).filter named).flatMap (·.ids)
  (s.me.before.filter (open' false) ++ (if write then fences.filter (open' true) else [])).eraseDups

/-- A request of the issuing thread, with its release if it is one. -/
def State.newReq (s : State) (i : Issue) (kind : ReqKind) (sync : Bool) (addrs : List W64) (size : Nat)
    (rel : List MsgItem) : Req :=
  { rid := s.nextId, iss := i, part := s.partOf s.pre, kind := kind, sync := sync, addrs := addrs, size := size,
    data := 0, cmp := 0, op := 0, det := false, fb := 0, noRet := true, order := 0, mask := 0, file := 4, reg := 0,
    after := s.follows (kind != .load) addrs rel, carry := s.me.carry ++ rel.map (fun r => { r with ids := s.nextId :: r.ids })
    got := [], ids := [], shown := 0, rush := false, own := [], todo := BitVec.allOnes 64, applied := false,
    replied := false, repliedAt := 0, result := 0, progress := 0, flags := 0, fault := none, noDeliver := false }

/-- A thread's access makes the reads that it has not waited for stale: they stand in program order at their WAITs (R144,
R225). -/
def Thread.stir (t : Thread) : Thread := { t with reads := t.reads.map (fun r => { r with stale := true }) }

/-- A request is part of the state: a write of it is one that the thread's next release covers. -/
def State.addReq (s : State) (q : Req) : State :=
  let s1 := { s with nextId := s.nextId + 1, reqs := s.reqs ++ [q] }
  if q.kind = .load then { s1 with me := s1.me.stir }
  else { s1 with me := { s1.me.stir with seen := s1.liveIds (q.rid :: s1.me.seen) } }

/-- A request sets out: it reaches its home after a free time (R209, log 4, DESIGN CHOICE), at its place in R151. -/
def State.sendReq (s : State) (q : Req) : State :=
  let r := (s.addReq q).freeDelay
  r.2.schedIn (s.reqDie q) (r.1 + 1) (s.reqRank q) q.arrival

/-- The value of a completed remote operation in its destination register (R223): file 0 x, 1 a, 2 v, 3 k. -/
def Thread.putFile (t : Thread) (file reg : Nat) (v : VReg) : Thread :=
  match file with
  | 0 => { t with x := wr t.x reg (v.setWidth 32) }
  | 1 => { t with a := wr t.a reg (v.setWidth 64) }
  | 2 => { t with v := wr t.v reg v }
  | 3 => { t with k := wr t.k reg (v.setWidth 64) }
  | _ => t

/-! ### The events of a request (R150) -/

/-- The unit of a request: its own size, or a granule (R150) (log 69, DEDUCED). -/
def Req.unit (q : Req) : Nat := if q.kind = .atomic || q.size ≤ 4 then q.size else 8

/-- The addresses of the units of a request with their numbers, ascending within each of its addresses. Units of 8 bytes are
numbered by their words. -/
def Req.units (q : Req) : List (Nat × W64) :=
  (q.addrs.flatMap (fun a => (List.range (q.size / q.unit)).map (fun i => a + BitVec.ofNat 64 (i * q.unit)))).zipIdx.map
    (fun x => (x.2 * ((q.unit + 3) / 4), x.1))

/-- An event of a request: its number, its address, its key, its bytes, and whether it lies in host memory. -/
structure Piece where
  num : Nat
  addr : W64
  key : Nat
  n : Nat
  host : Bool
  deriving DecidableEq, Repr, Inhabited

/-- The bits of `todo` that an event stands for. -/
def Piece.bits (p : Piece) : BitVec 64 := (if p.n = 8 then 3#64 else 1#64) <<< p.num

/-- Pieces of a request in ascending order, and why the walk over them stopped: at a page on the move or a stack in handover
(no cause) or at a failure. -/
structure Scan where
  ok : List Piece
  stop : Option (Option (BitVec 8) × W64)
  deriving DecidableEq, Repr, Inhabited

/-- Walk over units, each of u bytes within a page or a buffer. Where a granule lies in host memory, its two words are events of
their own, unless the unit is an atomic's (`whole`) (R150, R220). -/
def State.scan (s : State) (g : Agent) (need : Need) (whole : Bool) (u : Nat) : List (Nat × W64) → Scan × State
  | [] => (⟨[], none⟩, s)
  | (i, a) :: r =>
    match s.placeOf g a u need with
    | (.bad c, s1) => (⟨[], some (some c, a)⟩, s1)
    | (.wait, s1) => (⟨[], some (none, a)⟩, s1)
    | (.ok key host, s1) =>
      if host && u = 8 && !whole then
        let ps : List Piece := [⟨i, a, key, 4, true⟩, ⟨i + 1, a + 4, key + 4, 4, true⟩]
        if s1.hostRefuses (key + 4) then (⟨ps.take 1, some (some acHostAbort, a + 4)⟩, s1)
        else
          let q := s1.scan g need whole u r
          (⟨ps ++ q.1.ok, q.1.stop⟩, q.2)
      else if (if need = .write then s1.eccWrite key u else s1.eccRead key u) then (⟨[], some (some acEcc, a)⟩, s1)
      else
        let q := s1.scan g need whole u r
        (⟨⟨i, a, key, u, host⟩ :: q.1.ok, q.1.stop⟩, q.2)

def ReqKind.need : ReqKind → Need
  | .load => .read
  | .store => .write
  | .atomic => .atomic

/-- The walk over units of a request. -/
def State.scanUnits (s : State) (q : Req) (l : List (Nat × W64)) : Scan × State :=
  s.scan q.iss.agent q.kind.need (q.kind == .atomic) q.unit l

/-- The walk over what is left of a request: a buffer range is checked whole first (R134). -/
def State.scanReq (s : State) (q : Req) : Scan × State :=
  let left := q.units.filter (fun x => q.todo.getLsbD x.1 || (q.unit == 8 && q.todo.getLsbD (x.1 + 1)))
  let r : Scan × State := match q.addrs with
    | [a] =>
      if 2 ≤ addrForm a then
        match s.placeOf q.iss.agent a q.size q.kind.need with
        | (.bad c, s1) => (⟨[], some (some c, a)⟩, s1)
        | (.wait, s1) => (⟨[], some (none, a)⟩, s1)
        | (.ok _ _, s1) => s1.scanUnits q left
      else s.scanUnits q left
    | _ => s.scanUnits q left
  ({ r.1 with ok := r.1.ok.filter (fun p => q.todo &&& p.bits != 0) }, r.2)

/-- Two requests of one thread meet at a byte (R144), under whatever addresses. -/
def State.meets (s : State) (q r : Req) : Bool :=
  let a := (s.scanUnits q q.units).1.ok
  let b := (s.scanUnits r r.units).1.ok
  a.any (fun x => b.any (fun y => decide (x.key < y.key + y.n) && decide (y.key < x.key + x.n)))

/-- A request of a thread waits for an earlier one of it to the same bytes (R144). -/
def State.sameBefore (s : State) (q : Req) : Bool :=
  s.reqs.any (fun r => r.iss.tid == q.iss.tid && decide (r.rid < q.rid) && !r.applied && s.meets q r)

/-- The events that take place now: a load or a synchronous store of many granules takes any of them, in any order (R150); an
RST the lowest ones in order (R222). One at least takes place. -/
def Req.pick (q : Req) (free : Nat) (l : List Piece) : List Piece :=
  if q.rush || q.unit = q.size then l
  else
    let bits := Config.freeBits 2048 free
    if q.kind = .load || q.sync then
      let one := ((l[(bits.extractLsb' 64 8).toNat % l.length]?).map (·.num)).getD 0
      l.filter (fun p => p.num == one || bits.getLsbD p.num)
    else
      let upto := (l.head?.map (·.num)).getD 0 + (bits.extractLsb' 0 6).toNat
      l.filter (fun p => decide (p.num ≤ upto))

/-- One event of a load or a store. -/
def State.applyPiece (s : State) (q : Req) (p : Piece) : Req × State :=
  let q1 := { q with todo := q.todo &&& ~~~p.bits }
  match q.kind with
  | .load =>
    let r := s.readSeen q.iss.die p.key p.n
    ({ q1 with
        result := q.result ||| (BitVec.ofNat 2048 r.1 <<< (32 * p.num))
        got := q.got ++ s.broughtTo q.iss.die p.key p.n, ids := q.ids ++ r.2.1 }, r.2.2)
  | _ =>
    let v := (q.data >>> (32 * p.num)).setWidth (8 * p.n)
    (q1, (((s.touch q.rid q.iss.die q.iss.core p.key p.n).hide q.rid q.part q.iss.die q.shown p.key).attach false p.key p.n
      q.carry).store p.key p.n v)

/-- Some events of a load or a store, in ascending order. -/
def State.applyPieces (s : State) (q : Req) (l : List Piece) : Req × State :=
  l.foldl (fun a p => a.2.applyPiece a.1 p) (q, s)

/-- An atomic at its home (R155, R156, R218): on host memory its operation is checked before the host may refuse it; a failed
cas writes nothing and releases nothing, and its die has seen the latest value (R142). -/
def State.applyAtomic (s : State) (q : Req) (p : Piece) : Req × State :=
  if p.host && (q.det || !(q.op == 0 || q.op == 8 || q.op == 9)) then ({ q with fault := some (acProtection, p.addr) }, s)
  else if p.host && s.hostRefuses p.key then ({ q with fault := some (acHostAbort, p.addr) }, s)
  else
    let old := memRead s.mem p.key q.size
    let n := atomicOp (8 * q.size) q.op q.det q.fb old (q.data.setWidth 64 : W64).toNat q.cmp.toNat q.iss.rndCtx
    let q1 := { q with result := BitVec.ofNat 2048 old, flags := n.2, got := s.brought p.key q.size }
    match n.1 with
    | some v =>
      (q1, (((s.touch q.rid q.iss.die q.iss.core p.key q.size).hide q.rid q.part q.iss.die q.shown p.key).attach true p.key q.size
        q.carry).store p.key q.size (BitVec.ofNat (8 * q.size) v))
    | none =>
      let r := s.showGran q.iss.die p.key
      ({ q1 with ids := q.ids ++ r.1 }, r.2)

/-- A lane or byte count for the record of a failure: the lane of a vector access, or the bytes below the address of an
RST (R206, R222). -/
def Req.failAt (q : Req) (a : W64) (n : Nat) : Nat :=
  if q.sync then
    if q.kind ≠ .atomic && q.cmp ≠ 0 then (((List.range 64).filter (fun l => q.cmp.getLsbD l))[n]?).getD 0
    else (match q.addrs with
      | [b] => if q.size = 256 then (a.toNat - b.toNat) / 4 else 0
      | _ => 0)
  else if q.kind = .store then 4 * n
  else 0

/-- The number of the unit at an address, or of the word above it. -/
def Req.unitAt (q : Req) (a : W64) : Nat :=
  match q.units.find? (fun x => q.todo.getLsbD x.1 && x.2 == a) with
  | some x => x.1
  | none => ((q.units.find? (fun x => x.2 + 4 == a)).map (fun x => x.1 + 1)).getD 0

/-- A reply sets out to the issuer; it takes a free time (R209). -/
def State.answer (s : State) (q : Req) : State :=
  let r := (s.setReq { q with applied := true }).freeDelay
  r.2.schedIn q.iss.die (r.1 + 1) 0 (if q.sync then .offCoreReply q.rid else .remoteReply q.rid)

/-- A request at its home, with the walk over what is left of it: some or all of its events take place, and the rest later;
or it fails (R134, R150, R222). -/
def State.perform (s : State) (q : Req) (sc : Scan) : State :=
  match sc.stop with
  | some (c, a) =>
    let r := if q.kind = .store && !q.sync then s.applyPieces q sc.ok else (q, s)
    r.2.answer { q with fault := some (c.getD acPeerAbsent, a), progress := q.failAt a (q.unitAt a) }
  | none =>
    match q.kind, sc.ok with
    | .atomic, p :: _ =>
      let r := s.applyAtomic q p
      r.2.answer r.1
    | _, l =>
      let now := q.pick s.free l
      let r := { s with free := s.free + 1 }.applyPieces q now
      if now.length = l.length then r.2.answer { r.1 with progress := q.size * q.addrs.length }
      else
        let w := (r.2.setReq r.1).freeDelay
        w.2.schedIn (w.2.reqDie q) (w.1 + 1) (w.2.reqRank q) q.arrival

/-- The requests that `ids` need take place in this very cycle, as far as nothing else keeps them: the reads of a VMM come after
an acquire in the same bundle (R145, R256; log 55, DESIGN CHOICE). -/
def State.applyNow (s : State) (ids : List Nat) : State :=
  let l := s.liveIds ids
  let all := s.needed l
  (s.reqs.filter (fun q => !q.applied && all.contains q.rid)).foldl (fun (a : State) q =>
    if a.reqs.any (fun r => q.after.contains r.rid && !r.applied) || a.sameBefore q then a
    else
      let q1 := { q with rush := true }
      let sc := a.scanReq q1
      match sc.1.stop with
      | some (none, _) => a
      | _ => (sc.2.unsched (fun e => e == q.arrival)).perform q1 sc.1) s

end Sys2Proof.Machine
end

