-- ==== Sys2Proof/Machine/LoadStore.lean ====
section
/-! DEFINITION. The A slot (R202-R225): synchronous loads, stores and atomics, address registers, and the issue of
remote operations. -/

namespace Sys2Proof.Machine

/-! ### Where a synchronous access goes (R134, R205, R463, R466) -/

/-- A byte key of the issuing core, or a buffer of another core. -/
inductive SyncPlace where
  | here (key : Nat)
  | away (b : BufRef)
  deriving DecidableEq, Repr, Inhabited

/-- The bits of %gbase that an access of a plug-in needs (R466). -/
def Need.guardBits : Need → List Nat
  | .read => [2]
  | .write => [1]
  | .atomic => [2, 1]
  | .fetch => [0]

/-- An offset into a buffer of the issuing core (R205); on a control core AB is firmware memory (R463). -/
def State.ownPlace (s : State) (buf off size align : Nat) (need : Need) : Except (BitVec 8) SyncPlace :=
  let t := s.pre
  if t.onControl && buf ≠ 1 then .error tcBufferRange
  else if off % align ≠ 0 then .error tcAlign
  else if (if t.onControl then t.abSize else bufSize buf) < off + size then .error tcBufferRange
  else if t.priv = .plugin && !t.ctl.guards need.guardBits off size then .error tcAccess
  else .ok (.here (if t.onControl then fwKey t.die off else bufKey t.die t.core buf off))

/-- A full device address in peer space (R205). -/
def State.peerPlace (s : State) (a : W64) (size align : Nat) (need : Need) : Except (BitVec 8) SyncPlace :=
  if addrForm a < 2 then .error tcBufferRange
  else if addrForm a = 3 && s.pre.onControl then
    if a.extractLsb' 47 15 ≠ 0 || a.extractLsb' 20 25 ≠ 0 then .error tcBufferRange
    else s.ownPlace (addrBuf a) (addrOff a) size align need
  else
    match s.bufCheck (s.agentOf s.pre) a size align with
    | .error c => .error c
    | .ok b =>
      if b.die = s.pre.die && b.core = s.pre.core then .ok (.here b.key)
      else if s.pre.priv = .plugin then .error tcAccess
      else .ok (.away b)

/-- A synchronous access in space 0 WB, 1 AB, 2 CB or 3 peer. -/
def State.syncPlace (s : State) (sp : Nat) (a : W64) (size align : Nat) (need : Need) :
    Except (BitVec 8) SyncPlace :=
  if sp < 3 then s.ownPlace sp a.toNat size align need else s.peerPlace a size align need

/-- An address in peer space that names another core: an off-core access (R208). -/
def State.offCoreAddr (s : State) (sp : Nat) (a : W64) : Bool :=
  sp == 3 && addrForm a == 2 &&
    !(s.physDie? (s.partOf s.pre) (addrDie a) == some s.pre.die && addrCore a == s.pre.core)

/-- An off-core access is checked at the first attempt (R208), any other when it takes effect. -/
def syncRank (off : Bool) : Stop := if off then .attempt else .trap

/-- The first lane of 4 bytes in an access that reads an uncorrectable granule (R487). -/
def State.eccLane (s : State) (key size : Nat) : Option Nat :=
  (List.range ((size + 3) / 4)).find? (fun i => s.eccRead (key + 4 * i) (Nat.min 4 size))

/-- A trap of an A syllable (R206). -/
def State.trapA (s : State) (why : Stop) (cause : BitVec 8) (lane : Nat) (a : W64) : State :=
  { s with pre := { s.pre with offReq := none } }.trapSyl why 1 cause (BitVec.ofNat 32 lane) a

/-- FRAME_OVERRUN of a first-attempt check (R58, R60). -/
def State.overrunFirst (s : State) : State :=
  let d := match s.bun.stamp with
    | some (nx, st) => 2 ^ 21 + bit nx 20 + st
    | none => 0
  s.trapBundle .first tcOverrun (BitVec.ofNat 32 d) 0

/-! ### Off-core accesses (R208) -/

/-- The trap cause of a synchronous access that fails at its bank (R134, R208): the asynchronous causes have codes of
their own (R288; log 91, DESIGN CHOICE). -/
def syncCause (c : BitVec 8) : BitVec 8 :=
  if c = acPeerAbsent then tcPeerAbsent else if c = acEcc then tcEcc else if c = acProtection then tcAccess else c

/-- The request of an off-core access is sent once, and the bundle is held until the reply (R208). -/
def State.offSend (s : State) (q : Req) : State :=
  let s1 := s.sendReq q
  { s1 with pre := { s1.pre with offReq := some q.rid } }.holdSyl 1

/-- The reply of an off-core access has come in a cycle before this one (R208); a die that stands still issues the bundle
all the same (R434). -/
def State.answered (s : State) (t : Thread) (r : Req) : Bool :=
  r.replied && (decide (r.repliedAt < s.cyc t.die) || (s.getDie t.die).stopped)

/-- The bundle with an off-core access at a later attempt: it goes on once the reply is there, with what the access saw
(R208); the operands are those of the first attempt. -/
def State.offReply (s : State) (rid : Nat) (done : State → Req → State) : State :=
  match s.getReq? rid with
  | none => s.holdSyl 1
  | some r =>
    if !s.answered s.pre r then s.holdSyl 1
    else
      match r.fault with
      | some (c, a) => (s.dropReq rid).trapA .check (syncCause c) r.progress a
      | none =>
        let s1 := s.dropReq rid
        let wrote := if r.kind = .load then [] else [rid]
        done { s1 with me := { s1.me.stir with
          offReq := none, seen := s1.liveIds (s1.me.seen ++ wrote ++ r.ids), got := s1.liveItems (s1.me.got ++ r.got) } } r

/-- An off-core access at its first attempt: a stamped bundle may not hold one (R208), and `checked` makes checks 1 to 4
of R134 (log 67, DEDUCED). -/
def State.offFirst (s : State) (off : Bool) (checked : Unit → State) : State :=
  if off && s.pre.stamped then s.overrunFirst else checked ()

/-- What a synchronous access captures. -/
def State.syncIssue (s : State) (a : W64) : Issue := s.issueInfo 0 1 a 0 0 0

/-! ### Loads and stores of one address (R204, R207, R210) -/

/-- A load of `size` bytes; `put` delivers them. -/
def State.loadSync (s : State) (sp : Nat) (a : W64) (size align : Nat) (put : State → Nat → State) : State :=
  match s.pre.offReq with
  | some rid => s.offReply rid (fun q r => put q (r.result.toNat))
  | none =>
    let off := s.offCoreAddr sp a
    s.offFirst off (fun _ =>
      match s.syncPlace sp a size align .read with
      | .error c => s.trapA (syncRank off) c 0 a
      | .ok (.here key) =>
        (match s.eccLane key size with
         | some l => s.trapA .trap tcEcc (if size = 256 then l else 0) (a + BitVec.ofNat 64 (4 * l))
         | none => put (s.noteRead key size) (memRead s.mem0 key size))
      | .ok (.away _) => s.offSend (s.newReq (s.syncIssue a) .load true [a] size []))

/-- A store to the core's own buffers (R207). -/
def State.storeHere (s : State) (key size : Nat) (v : VReg) : State :=
  (s.noteWrite false key size []).store key size (BitVec.ofNat (8 * size) v.toNat)

/-- A store of `size` bytes; `post` updates the base register. -/
def State.storeSync (s : State) (sp : Nat) (a : W64) (size align : Nat) (v : VReg) (post : State → State) : State :=
  match s.pre.offReq with
  | some rid => s.offReply rid (fun q _ => post q)
  | none =>
    let off := s.offCoreAddr sp a
    s.offFirst off (fun _ =>
      match s.syncPlace sp a size align .write with
      | .error c => s.trapA (syncRank off) c 0 a
      | .ok (.here key) => if s.eccWrite key size then s.trapA .trap tcEcc 0 a else post (s.storeHere key size v)
      | .ok (.away _) => s.offSend { s.newReq (s.syncIssue a) .store true [a] size [] with data := v })

/-- A load syllable of format AM. -/
def State.amLoad (s : State) (a : BitVec 4) (m sp : BitVec 2) (o : BitVec 8) (size align : Nat)
    (put : State → Nat → State) : Out :=
  .next (s.loadSync sp.toNat (s.amAddr m a.toNat o size) size align (fun q v => put (q.amPost m a.toNat o size) v))
/-- A store syllable of format AM. -/
def State.amStore (s : State) (a : BitVec 4) (m sp : BitVec 2) (o : BitVec 8) (size align : Nat) (v : VReg) : Out :=
  .next (s.storeSync sp.toNat (s.amAddr m a.toNat o size) size align v (fun q => q.amPost m a.toNat o size))

def execLdB (d : BitVec 5) (a : BitVec 4) (m sp : BitVec 2) (o : BitVec 8) (s : State) : Out :=
  s.amLoad a m sp o 1 1 (fun q v => q.wx d.toNat ((BitVec.ofNat 8 v).signExtend 32))
def execLdH (d : BitVec 5) (a : BitVec 4) (m sp : BitVec 2) (o : BitVec 8) (s : State) : Out :=
  s.amLoad a m sp o 2 2 (fun q v => q.wx d.toNat ((BitVec.ofNat 16 v).signExtend 32))
def execLdW (d : BitVec 5) (a : BitVec 4) (m sp : BitVec 2) (o : BitVec 8) (s : State) : Out :=
  s.amLoad a m sp o 4 4 (fun q v => q.wx d.toNat (BitVec.ofNat 32 v))
def execLdD (d : BitVec 4) (a : BitVec 4) (m sp : BitVec 2) (o : BitVec 8) (s : State) : Out :=
  s.amLoad a m sp o 8 8 (fun q v => q.wa d.toNat (BitVec.ofNat 64 v))
def execLdzB (d : BitVec 5) (a : BitVec 4) (m sp : BitVec 2) (o : BitVec 8) (s : State) : Out :=
  s.amLoad a m sp o 1 1 (fun q v => q.wx d.toNat ((BitVec.ofNat 8 v).setWidth 32))
def execLdzH (d : BitVec 5) (a : BitVec 4) (m sp : BitVec 2) (o : BitVec 8) (s : State) : Out :=
  s.amLoad a m sp o 2 2 (fun q v => q.wx d.toNat ((BitVec.ofNat 16 v).setWidth 32))
def execLdzW (d : BitVec 4) (a : BitVec 4) (m sp : BitVec 2) (o : BitVec 8) (s : State) : Out :=
  s.amLoad a m sp o 4 4 (fun q v => q.wa d.toNat ((BitVec.ofNat 32 v).setWidth 64))
def execStB (d : BitVec 5) (a : BitVec 4) (m sp : BitVec 2) (o : BitVec 8) (s : State) : Out :=
  s.amStore a m sp o 1 1 (((s.rx d.toNat).extractLsb' 0 8).setWidth 2048)
def execStH (d : BitVec 5) (a : BitVec 4) (m sp : BitVec 2) (o : BitVec 8) (s : State) : Out :=
  s.amStore a m sp o 2 2 (((s.rx d.toNat).extractLsb' 0 16).setWidth 2048)
def execStW (d : BitVec 5) (a : BitVec 4) (m sp : BitVec 2) (o : BitVec 8) (s : State) : Out :=
  s.amStore a m sp o 4 4 ((s.rx d.toNat).setWidth 2048)
def execStD (d : BitVec 4) (a : BitVec 4) (m sp : BitVec 2) (o : BitVec 8) (s : State) : Out :=
  s.amStore a m sp o 8 8 ((s.ra d.toNat).setWidth 2048)
def execLdv (d : BitVec 4) (a : BitVec 4) (m sp : BitVec 2) (o : BitVec 8) (s : State) : Out :=
  s.amLoad a m sp o 256 8 (fun q v => q.wv d.toNat (BitVec.ofNat 2048 v))
def execStv (d : BitVec 4) (a : BitVec 4) (m sp : BitVec 2) (o : BitVec 8) (s : State) : Out :=
  s.amStore a m sp o 256 8 (s.rv d.toNat)
def execLdk (k : BitVec 3) (a : BitVec 4) (m sp : BitVec 2) (o : BitVec 8) (s : State) : Out :=
  s.amLoad a m sp o 8 8 (fun q v => q.wk k.toNat (BitVec.ofNat 64 v))
def execStk (k : BitVec 3) (a : BitVec 4) (m sp : BitVec 2) (o : BitVec 8) (s : State) : Out :=
  s.amStore a m sp o 8 8 ((s.rk k.toNat).setWidth 2048)

/-! ### Strided and indexed vector transfers (R211, R212) -/

/-- Active lanes with their addresses, ascending. -/
def activeLanes (k : W64) (addr : Nat → W64) : List (Nat × W64) :=
  ((List.range 64).filter (fun l => k.getLsbD l)).map (fun l => (l, addr l))

/-- The first lane that fails its check, with its cause, or the places of all (R211). -/
def State.lanePlaces (s : State) (sp : Nat) (need : Need) : List (Nat × W64) →
    Except (Nat × W64 × BitVec 8) (List (Nat × W64 × SyncPlace))
  | [] => .ok []
  | (l, a) :: r =>
    match s.syncPlace sp a 4 4 need with
    | .error c => .error (l, a, c)
    | .ok p =>
      match s.lanePlaces sp need r with
      | .ok ps => .ok ((l, a, p) :: ps)
      | .error e => .error e

def SyncPlace.key? : SyncPlace → Option Nat
  | .here k => some k
  | .away _ => none

/-- Lanes at keys of the core's own buffers, ascending, are loaded into vd in the cycle of the bundle (R207). -/
def State.lanesHere (s : State) (vd : Nat) (ls : List (Nat × W64 × Nat)) (post : State → State) : State :=
  match ls.find? (fun p => s.eccRead p.2.2 4) with
  | some (l, a, _) => s.trapA .trap tcEcc l a
  | none =>
    let v := ls.foldl (fun (v : VReg) p => setElem 32 v p.1 (BitVec.ofNat 32 (memRead s.mem0 p.2.2 4))) (rd s.me.v vd)
    post ((ls.foldl (fun a p => a.noteRead p.2.2 4) s).wv vd v)

/-- The same for a store of vs. -/
def State.lanesPut (s : State) (vs : Nat) (ls : List (Nat × W64 × Nat)) (post : State → State) : State :=
  match ls.find? (fun p => s.eccWrite p.2.2 4) with
  | some (l, a, _) => s.trapA .trap tcEcc l a
  | none => post (ls.foldl (fun q p => q.storeHere p.2.2 4 ((elem 32 (s.rv vs) p.1).setWidth 2048)) s)

/-- Lanes of a request that name the issuing core, with their keys (R207). -/
def State.ownLanes (s : State) (sp : Nat) (need : Need) (ls : List (Nat × W64)) : List (Nat × W64 × Nat) :=
  ls.filterMap (fun p => match s.syncPlace sp p.2 4 4 need with
    | .ok (.here k) => some (p.1, p.2, k)
    | _ => none)

/-- A request for the lanes that name other cores; the others wait for the cycle of the bundle (R207). -/
def State.lanesReq (s : State) (kind : ReqKind) (ps : List (Nat × W64 × SyncPlace)) : Req :=
  let away := ps.filter (fun p => p.2.2.key?.isNone)
  let own := ps.filter (fun p => p.2.2.key?.isSome)
  { s.newReq (s.syncIssue (((ps.map (·.2.1)).headD 0))) kind true (away.map (·.2.1)) 4 [] with
    cmp := BitVec.ofNat 64 (away.foldl (fun m p => m + 2 ^ p.1) 0), own := own.map (fun p => (p.1, p.2.1)) }

/-- One element per active lane into vd; `post` updates the base register. -/
def State.lanesLoad (s : State) (sp : Nat) (k : W64) (addr : Nat → W64) (vd : Nat) (post : State → State) : State :=
  match s.pre.offReq with
  | some rid => s.offReply rid (fun q r =>
      let lanes := (List.range 64).filter (fun l => r.cmp.getLsbD l)
      let v := lanes.zipIdx.foldl (fun (v : VReg) p => setElem 32 v p.1 (elem 32 r.result p.2)) (q.rv vd)
      (q.wv vd v).lanesHere vd (q.ownLanes sp .read r.own) post)
  | none =>
    let ls := activeLanes k addr
    s.offFirst (ls.any (fun p => s.offCoreAddr sp p.2)) (fun _ =>
      match s.lanePlaces sp .read ls with
      | .error (l, a, c) => s.trapA (syncRank (s.offCoreAddr sp a)) c l a
      | .ok ps =>
        if ps.any (fun p => p.2.2.key?.isNone) then s.offSend (s.lanesReq .load ps)
        else s.lanesHere vd (ps.map (fun p => (p.1, p.2.1, p.2.2.key?.getD 0))) post)

/-- One element of vs per active lane, in ascending order. -/
def State.lanesStore (s : State) (sp : Nat) (k : W64) (addr : Nat → W64) (vs : Nat) (post : State → State) : State :=
  match s.pre.offReq with
  | some rid => s.offReply rid (fun q r => q.lanesPut vs (q.ownLanes sp .write r.own) post)
  | none =>
    let ls := activeLanes k addr
    s.offFirst (ls.any (fun p => s.offCoreAddr sp p.2)) (fun _ =>
      match s.lanePlaces sp .write ls with
      | .error (l, a, c) => s.trapA (syncRank (s.offCoreAddr sp a)) c l a
      | .ok ps =>
        if ps.any (fun p => p.2.2.key?.isNone) then
          let q := s.lanesReq .store ps
          let away := ps.filter (fun p => p.2.2.key?.isNone)
          s.offSend { q with
            data := away.zipIdx.foldl (fun (v : VReg) p => setElem 32 v p.2 (elem 32 (s.rv vs) p.1.1)) (0 : VReg) }
        else s.lanesPut vs (ps.map (fun p => (p.1, p.2.1, p.2.2.key?.getD 0))) post)

/-- The stride of LDVS and STVS, and the base register's update in mode 10. -/
def State.stride (s : State) (x : BitVec 5) : W64 := (s.rx x.toNat).signExtend 64
def State.stridePost (s : State) (a : BitVec 4) (m : BitVec 2) (x : BitVec 5) (q : State) : State :=
  if m = 2 then q.wa a.toNat (s.ra a.toNat + 64 * s.stride x) else q

def execLdvs (v a : BitVec 4) (m sp : BitVec 2) (k : BitVec 3) (x : BitVec 5) (s : State) : Out :=
  .next (s.lanesLoad sp.toNat (s.rk k.toNat) (fun l => s.ra a.toNat + BitVec.ofNat 64 l * s.stride x) v.toNat
    (s.stridePost a m x))
def execStvs (v a : BitVec 4) (m sp : BitVec 2) (k : BitVec 3) (x : BitVec 5) (s : State) : Out :=
  .next (s.lanesStore sp.toNat (s.rk k.toNat) (fun l => s.ra a.toNat + BitVec.ofNat 64 l * s.stride x) v.toNat
    (s.stridePost a m x))
def execGld (v a : BitVec 4) (sp : BitVec 2) (k : BitVec 3) (i : BitVec 4) (s : State) : Out :=
  .next (s.lanesLoad sp.toNat (s.rk k.toNat)
    (fun l => s.ra a.toNat + ((elem 32 (s.rv i.toNat) l).setWidth 64)) v.toNat id)
def execGst (v a : BitVec 4) (sp : BitVec 2) (k : BitVec 3) (i : BitVec 4) (s : State) : Out :=
  .next (s.lanesStore sp.toNat (s.rk k.toNat)
    (fun l => s.ra a.toNat + ((elem 32 (s.rv i.toNat) l).setWidth 64)) v.toNat id)

/-! ### Address registers (R213-R215) -/

/-- AADD (R213). -/
def execAadd (d r : BitVec 4) (i : BitVec 13) (s : State) : Out :=
  .next (s.wa d.toNat (s.ra r.toNat + i.signExtend 64))
/-- ALI (R213). -/
def execAli (d : BitVec 4) (i : BitVec 13) (xx : Option (BitVec 26)) (s : State) : Out :=
  .next (s.wa d.toNat (aliImm i xx))

/-- The 64 bits that AFX and EFX form from two x-registers and the old value (R214, R271). -/
def formed (o : Nat) (h l : W32) (old : W64) : W64 :=
  match o with
  | 0 => h ++ l
  | 1 => l.signExtend 64
  | 2 => l.setWidth 64
  | 3 => old.extractLsb' 32 32 ++ l
  | _ => h ++ old.extractLsb' 0 32

/-- AFX (R214). -/
def execAfx (h : BitVec 5) (a : BitVec 4) (l : BitVec 5) (o : BitVec 4) (s : State) : Out :=
  .next (s.wa a.toNat (formed o.toNat (s.rx h.toNat) (s.rx l.toNat) (s.ra a.toNat)))

/-- %die as a thread reads it (R22, R24). -/
def State.dieReg (s : State) (t : Thread) : Nat := if t.onControl then t.die else s.logDie t.part t.die

/-- PEER (R215). -/
def execPeer (d : BitVec 5) (a : BitVec 4) (c : BitVec 5) (x y : BitVec 1) (q : BitVec 2) (s : State) : Out :=
  s.notPlugin 1 (fun s =>
    let dv : W32 := if y = 1 then BitVec.ofNat 32 (s.dieReg s.pre) else s.rx d.toNat
    let cv : W32 := if x = 1 then BitVec.ofNat 32 s.pre.core else s.rx c.toNat
    s.wa a.toNat (BitVec.ofNat 64 (2 * 2 ^ 62 + (dv.extractLsb' 0 4).toNat * 2 ^ 55 +
      (cv.extractLsb' 0 8).toNat * 2 ^ 47 + q.toNat * 2 ^ 45 + addrOff (s.ra a.toNat))))

/-! ### Atomics (R216-R218) -/

/-- What an atomic takes from its registers: operand, comparison, FB and release mask. -/
structure AtomicArgs where
  x : W64
  cmp : W64
  fb : BitVec 8
  mask : BitVec 16
  deriving DecidableEq, Repr, Inhabited

/-- The operands of AMO and RAMO (R217, R221): x-registers at size w and under DET, a-registers at size d. -/
def State.atomicArgs (s : State) (dbl : Bool) (r : Nat) (e : ExtraOp) : AtomicArgs :=
  { x := if dbl && !e.det then s.ra r else (s.rx r).setWidth 64
    cmp := if dbl then s.ra e.xs2 else (s.rx e.xs2).setWidth 64
    fb := (rd s.pre.dscale e.ds).setWidth 8
    mask := (s.rx e.mx).extractLsb' 0 16 }

/-- A syllable whose operation is native fadd rounds, and takes a counter value (R119, R218). -/
def State.atomicCount (s : State) (o : BitVec 4) (det : Bool) : State := if o = 10 && !det then s.takeCount else s

/-- What AMO does once its old value is known (R218): flags, the returned value, and the orders of R145. `got` is what its
read brought; a cas that failed released nothing. -/
def State.amoDone (s : State) (d : BitVec 5) (o : BitVec 4) (dbl : Bool) (e : ExtraOp) (old : Nat) (f : Flags)
    (wrote : Bool) (got : List MsgItem) : State :=
  let s1 := (s.orFlags f).atomicCount o e.det
  let s2 := if dbl then (if d.toNat < 16 then s1.wa d.toNat (BitVec.ofNat 64 old) else s1)
            else s1.wx d.toNat (BitVec.ofNat 32 old)
  let s3 := if e.ord.getLsbD 0 then s2.acquire ((got.filter s2.names).flatMap (·.ids)) else s2
  if e.ord.getLsbD 1 && wrote then s3.ordered else s3

/-- A local AMO, at its bank in its own cycle (R207, R218). -/
def State.amoHere (s : State) (key size : Nat) (o : BitVec 4) (e : ExtraOp) (g : AtomicArgs) (d : BitVec 5) : State :=
  let old := memRead s.mem key size
  let n := atomicOp (8 * size) o.toNat e.det g.fb old g.x.toNat g.cmp.toNat s.rndCtx
  let got := s.brought key size
  let s0 := s.noteRead key size
  let s1 := match n.1 with
    | some v => (s0.noteWrite true key size (if e.ord.getLsbD 1 then [s.handing g.mask] else [])).store key size
        (BitVec.ofNat (8 * size) v)
    | none => s0
  s1.amoDone d o (decide (size = 8)) e old n.2 n.1.isSome got

/-- The result of an off-core AMO whose write happened: only a cas may write nothing. -/
def wroteAmo (r : Req) : Bool :=
  (atomicOp (8 * r.size) r.op r.det r.fb (r.result.toNat) (r.data.setWidth 64 : W64).toNat r.cmp.toNat r.iss.rndCtx).1.isSome

/-- AMO (R216-R218): a local one acts in its own cycle; one on another core blocks under R208. -/
def execAmo (d : BitVec 5) (a : BitVec 4) (r : BitVec 5) (o : BitVec 4) (z : BitVec 1) (p : BitVec 2)
    (xx : Option (BitVec 26)) (s : State) : Out :=
  let e := extraOp xx
  let dbl := z == 1
  let size := if dbl then 8 else 4
  .next (match s.pre.offReq with
  | some rid => s.offReply rid (fun q r => q.amoDone d o dbl e (r.result.toNat) r.flags (wroteAmo r) r.got)
  | none =>
    let ad := s.ra a.toNat
    let sp := p.toNat + 1
    let g := s.atomicArgs dbl r.toNat e
    let off := s.offCoreAddr sp ad
    s.offFirst off (fun _ =>
      match s.syncPlace sp ad size size .atomic with
      | .error c => s.trapA (syncRank off) c 0 ad
      | .ok pl =>
        if sp = 3 && addrBuf ad = 0 then s.trapA (syncRank off) tcAccess 0 ad
        else
          match pl with
          | .here key => if s.eccRead key size then s.trapA .trap tcEcc 0 ad else s.amoHere key size o e g d
          | .away _ =>
            let i := { s.syncIssue ad with op1 := g.x }
            s.offSend { s.newReq i .atomic true [ad] size (if e.ord.getLsbD 1 then [s.handing g.mask] else []) with
              data := g.x.setWidth 2048, cmp := g.cmp, op := o.toNat, det := e.det, fb := g.fb, order := e.ord
              mask := g.mask }))

/-! ### Remote operations (R219-R221) -/

/-- A device address that names a buffer of the issuing core. -/
def State.ownAddr (s : State) (a : W64) : Bool :=
  addrForm a = 3 || (addrForm a = 2 && s.physDie? (s.partOf s.pre) (addrDie a) = some s.pre.die && addrCore a = s.pre.core)

/-- The checks of a remote operation at issue (R219), and then its issue: number, handle, request (log 68, DESIGN CHOICE). -/
def State.issueRemote (s : State) (h : Nat) (a : W64) (size align : Nat) (o1 o2 o3 : W64) (isStore : Bool)
    (mk : Issue → State → Req) : State :=
  if 16 ≤ s.pre.outstanding.length then s.trapSyl .trap 1 tcQueueFull 0 0
  else if a.toNat % align ≠ 0 then s.trapSyl .trap 1 tcAlign 0 a
  else
    let num := s.me.rc.next
    let s1 := { s with
      me := { s.me with
        rc := s.me.rc.issue, rcOps := s.me.outstanding ++ [num]
        rcStores := s.me.rcStores + (if isStore then 1 else 0) } }
    let i := s1.issueInfo num 1 a o1 o2 o3
    let q := { mk i s1 with size := size }
    -- the core's own buffers are reached in the cycle of the issue (R143)
    let s2 := if s1.ownAddr a then
        let q1 := { q with rush := true }
        let sc := s1.scanReq q1
        (sc.2.addReq q1).noteLocal.perform q1 sc.1
      else s1.sendReq q
    s2.wh h (mkHandle 1 0 s.pre.turn num)

/-- Bytes and alignment of a size code (R220). -/
def remoteBytes (z : BitVec 2) : Nat := if z = 0 then 4 else if z = 2 then 256 else 8
def remoteAlign (z : BitVec 2) : Nat := if z = 0 then 4 else 8

/-- The register file of a size code: 0 x, 1 a, 2 v, 3 k. -/
def remoteFile (z : BitVec 2) : Nat := z.toNat

/-- The destination of an RLD or returning RAMO is undefined from its issue, which counts as a write of it (R86,
R223). -/
def State.undefDest (s : State) (file r : Nat) : State :=
  let u := Config.freeBits 2048 s.free
  let s1 := { s with free := s.free + 1 }
  match file with
  | 0 => s1.wx r (u.setWidth 32)
  | 1 => s1.wa r (u.setWidth 64)
  | 2 => s1.wv r u
  | _ => s1.wk r (u.setWidth 64)

/-- x0 and k0 take no delivery (R79). -/
def destFile (file r : Nat) : Nat := if r = 0 && (file = 0 || file = 3) then 4 else file

/-- The read of the remote operation just issued waits for its WAIT (R144), and its destination is undefined until the
delivery (R223), which must survive the operation's own issue. -/
def State.noteAsync (s : State) (load : Bool) (a : W64) (size file r : Nat) (acq : Bool) : State :=
  if s.bun.stop ≠ .none then s
  else
    let last := s.nextId - 1
    let num := s.me.rc.i
    let u := if file < 4 then s.undefDest file r else s
    { u with
      reqs := u.reqs.map (fun q => if q.rid = last then { q with noDeliver := false } else q)
      me := { u.me with reads := u.me.reads ++ [{ num := num, addr := a, size := size, load := load, file := file, reg := r
                                                  dead := false, stale := false, acq := acq, got := [], ids := [] }] } }

/-- RLD (R219, R220). -/
def execRld (d : BitVec 5) (a : BitVec 4) (h : BitVec 3) (z : BitVec 2) (s : State) : Out :=
  s.notPlugin 1 (fun s =>
    let ad := s.ra a.toNat
    let f := destFile (remoteFile z) d.toNat
    (s.issueRemote h.toNat ad (remoteBytes z) (remoteAlign z) 0 0 0 false (fun i q =>
      { q.newReq i .load false [ad] (remoteBytes z) [] with file := f, reg := d.toNat })).noteAsync
      true ad (remoteBytes z) f d.toNat false)

/-- RST (R219, R220). -/
def execRst (d : BitVec 5) (a : BitVec 4) (h : BitVec 3) (z : BitVec 2) (s : State) : Out :=
  s.notPlugin 1 (fun s =>
    let ad := s.ra a.toNat
    let v : VReg := match z.toNat with
      | 0 => (s.rx d.toNat).setWidth 2048
      | 1 => (s.ra d.toNat).setWidth 2048
      | 2 => s.rv d.toNat
      | _ => (s.rk d.toNat).setWidth 2048
    let o1 : W64 := if z = 2 then Config.freeBits 64 s.free else v.setWidth 64
    let s := { s with free := s.free + 1 }
    s.issueRemote h.toNat ad (remoteBytes z) (remoteAlign z) o1 0 0 true (fun i q =>
      { q.newReq i .store false [ad] (remoteBytes z) [] with data := v }))

/-- RAMO (R219, R221). -/
def execRamo (d : BitVec 5) (a : BitVec 4) (h : BitVec 3) (z : BitVec 2) (n : BitVec 1) (o : BitVec 4)
    (xx : Option (BitVec 26)) (s : State) : Out :=
  s.notPlugin 1 (fun s =>
    let e := extraOp xx
    let dbl := z == 1
    let ad := s.ra a.toNat
    let g := s.atomicArgs dbl d.toNat e
    let rel := e.ord.getLsbD 1
    let f := if n = 1 then 4 else destFile (if dbl then 1 else 0) d.toNat
    let s1 := s.issueRemote h.toNat ad (remoteBytes z) (remoteAlign z) g.x g.cmp (g.mask.setWidth 64) (n == 1) (fun i q =>
      { q.newReq i .atomic false [ad] (remoteBytes z) (if rel then [q.handing g.mask] else []) with
        data := g.x.setWidth 2048, cmp := g.cmp, op := o.toNat, det := e.det, fb := g.fb, noRet := n == 1
        order := e.ord, mask := g.mask, file := f, reg := d.toNat })
    if s1.bun.stop ≠ .none then s1
    else
      let s2 := s1.atomicCount o e.det
      let s3 := if rel then s2.ordered else s2
      s3.noteAsync false ad (remoteBytes z) f d.toNat (e.ord.getLsbD 0))

end Sys2Proof.Machine
end

