-- ==== Sys2Proof/Machine/Send.lean ====
section
/-! DEFINITION. The send engine (R258-R271): ports, channels, envelopes and credits. -/

namespace Sys2Proof.Machine

/-! ### The torus and the ends of a port (R16, R258, R259) -/

/-- The neighbour of a core: 0 north, 1 east, 2 south, 3 west, wrapping at the edges (R16). -/
def neighbour (core p : Nat) : Nat :=
  match p with
  | 0 => (core + 240) % 256
  | 1 => core / 16 * 16 + (core + 1) % 16
  | 2 => (core + 16) % 256
  | _ => core / 16 * 16 + (core + 15) % 16
/-- The port at the far end of a neighbour link. -/
def opposite (p : Nat) : Nat := (p + 2) % 4

def State.portOf (s : State) (d c p : Nat) : Port := (s.getCore d c).ports[p]?.getD Port.init
def State.onSendPort (s : State) (d c p : Nat) (f : Port → Port) : State :=
  s.onCore d c (fun k => { k with ports := k.ports.setIfInBounds p (f (k.ports[p]?.getD Port.init)) })

/-- The inbox that a port feeds. A control core has no neighbours. -/
def State.farEnd (s : State) (d c p : Nat) : Option PortRef :=
  if p < 4 then (if 256 ≤ c then none else some ⟨d, neighbour c p, opposite p, 0⟩) else (s.portOf d c p).out
/-- The port that feeds an inbox. -/
def State.feeder (s : State) (d c p : Nat) : Option PortRef :=
  if p < 4 then (if 256 ≤ c then none else some ⟨d, neighbour c p, opposite p, 0⟩) else (s.portOf d c p).inn

/-- An absent port (R264), seen as the source of a SEND or of a RECV (log 74, DESIGN CHOICE). -/
def State.portAbsent (s : State) (d c p lid : Nat) (sending : Bool) : Bool :=
  match (if sending then s.farEnd d c p else s.feeder d c p) with
  | none => true
  | some r => decide (p < 4) && !s.coreHeld r.die r.core lid

/-- A SEND finds a credit that arrived before this cycle; a RECV finds an envelope (R263, R262). -/
def State.canSend (s : State) (d c p : Nat) : Bool := decide (1 ≤ (s.portOf d c p).credits)

/-! ### Flight times (R262, R263) -/

/-- The last die cycle for which an arrival that p picks is pending. -/
def State.lastDue (s : State) (p : Event → Bool) : Nat :=
  s.agenda.foldl (fun m e => if p e.ev then (match e.due with | .cycle _ c _ => Nat.max m c | .wall _ => m) else m) 0

/-- The cycle of the far die in which something sent now arrives: c + 3 + 2h on one die; between dies some later cycle,
after whatever was sent before it (log 4, DESIGN CHOICE). -/
def State.arrivalCycle (s : State) (d : Nat) (r : PortRef) (earlier : Event → Bool) : Nat × State :=
  if r.die = d then (s.cyc d + 3 + 2 * r.hops, s)
  else
    let f := s.freeDelay
    (Nat.max (s.getDie r.die).cyc (s.lastDue earlier) + 1 + f.1, f.2)

def isEnvelope (r : PortRef) : Event → Bool
  | .envelopeArrival d c p _ => d == r.die && c == r.core && p == r.port
  | _ => false
def isCredit (r : PortRef) : Event → Bool
  | .creditArrival d c p => d == r.die && c == r.core && p == r.port
  | _ => false

/-- A signal leaves a core for the neighbour that a port faces: between two clock regions it takes an entry of their boundary
buffer (R48). -/
def State.crossTo (s : State) (r : PortRef) : State := if r.port < 4 then s.cross r.die (neighbour r.core r.port) r.core else s

/-- An envelope sets out to the inbox a port feeds (R262, R268). -/
def State.launchEnvelope (s : State) (d : Nat) (r : PortRef) (env : W64) : State :=
  let a := (s.crossTo r).arrivalCycle d r (isEnvelope r)
  a.2.sched (.cycle r.die a.1 rankEngine) (.envelopeArrival r.die r.core r.port env)

/-- A credit goes back to the port that feeds an inbox; it counts in the cycles after its arrival (R263). -/
def State.launchCredit (s : State) (d : Nat) (r : PortRef) : State :=
  let a := (s.crossTo r).arrivalCycle d r (fun _ => false)
  a.2.sched (.cycle r.die (a.1 + 1) 0) (.creditArrival r.die r.core r.port)

/-! ### The syllables (R266-R271) -/

/-- ENGINE_OWNER or PEER_ABSENT of a port, in DETAIL its number (R264, R267). `held` is the syllable's own condition
being false. -/
def State.trapPort (s : State) (held : Bool) (cause : BitVec 8) (p : Nat) : State :=
  s.trapSyl (if held then .attempt else .check) 4 cause (BitVec.ofNat 32 p) 0

/-- SEND (R267, R268). -/
def execSend (src : BitVec 3) (p : BitVec 3) (s : State) : Out :=
  s.notPlugin 4 (fun s =>
    let d := s.pre.die
    let c := s.pre.core
    let n := p.toNat
    let q := s.portOf d c n
    let full := !s.canSend d c n
    if q.bound ≠ some s.pre.tid then s.trapPort full tcOwner n
    else if s.portAbsent d c n s.pre.lid true || (q.torn && s.pre.st = .blocked) then s.trapPort full tcPeerAbsent n
    else if full then s.holdSyl 4
    else
      match s.farEnd d c n with
      | none => s.trapPort full tcPeerAbsent n
      | some r =>
        (s.onSendPort d c n (fun q => { q with credits := q.credits - 1, torn := false })).launchEnvelope d r
          (s.re src.toNat))

/-- RECV (R267, R269): from an absent port it still takes what remains in the inbox. -/
def execRecv (d : BitVec 3) (p : BitVec 3) (s : State) : Out :=
  s.notPlugin 4 (fun s =>
    let die := s.pre.die
    let c := s.pre.core
    let n := p.toNat
    let q := s.portOf die c n
    let empty := !s.hasMail die c n
    if q.bound ≠ some s.pre.tid then s.trapPort empty tcOwner n
    else if empty && (s.portAbsent die c n s.pre.lid false || (q.torn && s.pre.st = .blocked)) then
      s.trapPort empty tcPeerAbsent n
    else
      match q.inbox with
      | [] => s.holdSyl 4
      | e :: rest =>
        if empty then s.holdSyl 4
        else
          let s1 := (s.onSendPort die c n (fun q => { q with inbox := rest, torn := false })).we d.toNat e.1
          match s1.feeder die c n with
          | some r =>
            -- a channel's hop count stands at its source end
            let h := if n < 4 then 0 else (match (s1.portOf r.die r.core r.port).out with
              | some o => o.hops
              | none => r.hops)
            s1.launchCredit die { r with hops := h }
          | none => s1)

/-- PBIND (R270). -/
def execPbind (p : BitVec 3) (s : State) : Out :=
  s.notPlugin 4 (fun s =>
    match (s.portOf s.pre.die s.pre.core p.toNat).bound with
    | some t => if t = s.pre.tid then s else s.trapSyl .trap 4 tcOwner (BitVec.ofNat 32 p.toNat) 0
    | none => s.onSendPort s.pre.die s.pre.core p.toNat
        (fun q => { q with bound := some s.pre.tid, torn := false }))

/-- PBIND.REL (R270). -/
def execPbindRel (p : BitVec 3) (s : State) : Out :=
  s.notPlugin 4 (fun s =>
    if (s.portOf s.pre.die s.pre.core p.toNat).bound = some s.pre.tid then
      s.onSendPort s.pre.die s.pre.core p.toNat (fun q => { q with bound := none })
    else s.trapSyl .trap 4 tcOwner (BitVec.ofNat 32 p.toNat) 0)

/-- EFX (R271). -/
def execEfx (d : BitVec 3) (h : BitVec 5) (l : BitVec 5) (o : BitVec 3) (s : State) : Out :=
  s.notPlugin 4 (fun s => s.we d.toNat (formed o.toNat (s.rx h.toNat) (s.rx l.toNat) (s.re d.toNat)))

/-! ### Arrivals -/

/-- ENVELOPE_ARRIVAL: an envelope reaches an inbox in this cycle, and is visible in the cycles after it (R262). -/
def execEnvelopeArrival (die : Nat) (core : Nat) (port : Nat) (env : BitVec 64) (s : State) : Out :=
  .next (s.onSendPort die core port (fun q => { q with inbox := q.inbox ++ [(env, s.cyc die)] }))

/-- CREDIT_ARRIVAL: the count never exceeds its start value (R263). -/
def execCreditArrival (die : Nat) (core : Nat) (port : Nat) (s : State) : Out :=
  .next (s.onSendPort die core port (fun q => { q with credits := Nat.min (q.credits + 1) (if port < 4 then 4 else q.allow) }))

/-! ### A far core leaves, a channel goes (R264) -/

/-- The neighbours of a core that leaves its launch: envelopes on their way to it and credits on their way from it are
gone, and the counts of the ports that face it return to 4. `stuck` picks the ports whose bound thread is blocked on
them. -/
def State.peersLeft (s : State) (d c : Nat) (stuck : Nat → Nat → Bool) : State :=
  (List.range 4).foldl (fun a p =>
    let n := neighbour c p
    let o := opposite p
    let b := a.unsched (fun e => isEnvelope ⟨d, c, p, 0⟩ e || isCredit ⟨d, n, o, 0⟩ e)
    b.onSendPort d n o (fun q => { q with credits := 4, torn := q.torn || stuck n o })) s

end Sys2Proof.Machine
end

