-- ==== Sys2Proof/Machine/Copy.lean ====
section
/-! DEFINITION. The copy engine (R275-R277, R283-R286, R292-R299): transfers, their units and their completion. -/

namespace Sys2Proof.Machine

/-! ### Atomics by engines (R155) -/

/-- An engine's atomic on an aligned word of `size` bytes: `f` gives the new value, or none. It acts on memory as the
earlier steps of the cycle left it (R151), and hands `items` on (R146). -/
def State.atomicMem (s : State) (g : Agent) (a : W64) (size : Nat) (items : List MsgItem) (f : Nat → Option Nat) :
    Access Nat × State :=
  match s.placeOf g a size .atomic with
  | (.bad c, s1) => (.fail c a, s1)
  | (.wait, s1) => (.wait, s1)
  | (.ok key host, s1) =>
    if host && s1.hostRefuses key then (.fail acHostAbort a, s1)
    else if s1.eccRead key size then (.fail acEcc a, s1)
    else
      let old := memRead s1.mem key size
      match f old with
      | some v =>
        (.done old, (((s1.touch g.wid g.die g.core key size).hide g.wid g.part g.die 0 key).attach true key size items).store key
          size (BitVec.ofNat (8 * size) v))
      | none => (.done old, s1)

/-! ### Issue (R277, R293) -/

/-- The context on the issuing core. -/
def State.copyCtx (s : State) (d c x : Nat) : CopyCtx := (s.getCore d c).copy[x]?.getD CopyCtx.init
def State.onCopy (s : State) (d c x : Nat) (f : CopyCtx → CopyCtx) : State :=
  s.onCore d c (fun k => { k with copy := k.copy.setIfInBounds x (f (k.copy[x]?.getD CopyCtx.init)) })

/-- Operations issued and not completed: those queued and those whose faults are held (R289). -/
def CopyCtx.occupancy (k : CopyCtx) : Nat := k.queue.length + k.tl.held.length

/-- The format that a stream register names (R307), if it is assigned. -/
def streamFmt (f : BitVec 3) : Option Fmt :=
  match f.toNat with
  | 0 => some .t8
  | 1 => some .t6
  | 2 => some .i8
  | 3 => some .bf16
  | 4 => some .f16
  | _ => none
/-- FMT of a stream register. -/
def qFmt (q : QReg) : BitVec 3 := q.extractLsb' 22 3

/-- Issue a transfer in context x with handle register h: `mis` is the first operand that breaks R294, with its
address. -/
def State.issueCopy (s : State) (x h : Nat) (kind : CopyKind) (o0 o1 o2 o3 : W64) (mis : Option W64)
    (q : Option Nat) : State :=
  let k := s.copyCtx s.pre.die s.pre.core x
  let fmt := match q with
    | some n => qFmt (s.rq n)
    | none => 0
  if 16 ≤ k.occupancy then s.trapSyl .trap 4 tcQueueFull 0 0
  else
    match mis with
    | some a => s.trapSyl .trap 4 tcAlign 0 a
    | none =>
      if q.isSome && (streamFmt fmt).isNone then
        s.trapSyl .trap 4 tcStream (BitVec.ofNat 32 (2 + (q.getD 0) * 256)) 0
      else
        let num := k.tl.next
        let i0 := s.issueInfo num 4 o0 o1 o2 o3
        let i := if kind = .sig then { i0 with after := s.covers } else i0
        let op : CopyOp := { iss := i, kind := kind, fmt := fmt, units := 0, started := false, cancel := false,
                             fault := none, flags := 0 }
        let s1 := s.onCopy s.pre.die s.pre.core x (fun k => { tl := k.tl.issue, queue := k.queue ++ [op] })
        let s2 := { (if q.isSome then s1.takeCount else s1) with nextId := s.nextId + 1 }
        s2.wh h (mkHandle 0 x s.pre.turn num)

/-- The first operand that is not a multiple of 4: an address, or a length (which gives no address; log 76, DESIGN CHOICE). -/
def misaligned (addrs : List W64) (lens : List Nat) : Option W64 :=
  match addrs.find? (fun a => a.toNat % 4 != 0) with
  | some a => some a
  | none => if lens.any (fun n => n % 4 != 0) then some 0 else none

/-- CPY (R295). -/
def execCpy (d : BitVec 4) (src : BitVec 4) (e : BitVec 3) (h : BitVec 3) (c : BitVec 2) (s : State) : Out :=
  s.notPlugin 4 (fun s =>
    let w := s.re e.toNat
    s.issueCopy c.toNat h.toNat .cpy (s.ra d.toNat) (s.ra src.toNat) w 0
      (misaligned [s.ra d.toNat, s.ra src.toNat] [(w.extractLsb' 0 32).toNat]) none)

/-- CPYT (R296). -/
def execCpyt (d : BitVec 4) (src : BitVec 4) (e : BitVec 3) (h : BitVec 3) (c : BitVec 2) (v : BitVec 1) (r : BitVec 1)
    (q : BitVec 3) (s : State) : Out :=
  s.notPlugin 4 (fun s =>
    let w := s.re e.toNat
    let p := s.re (e.toNat + 1)
    s.issueCopy c.toNat h.toNat (.cpyt (v == 1) (r == 1)) (s.ra d.toNat) (s.ra src.toNat) w p
      (misaligned [s.ra d.toNat, s.ra src.toNat]
        [(w.extractLsb' 0 16).toNat, (p.extractLsb' 0 32).toNat, (p.extractLsb' 32 32).toNat])
      (if v = 1 then some q.toNat else none))

/-- GATH (R297). -/
def execGath (d : BitVec 4) (src : BitVec 4) (e : BitVec 3) (h : BitVec 3) (c : BitVec 2) (i : BitVec 4) (s : State) :
    Out :=
  s.notPlugin 4 (fun s =>
    let w := s.re e.toNat
    s.issueCopy c.toNat h.toNat .gath (s.ra d.toNat) (s.ra src.toNat) w (s.ra i.toNat)
      (misaligned [s.ra d.toNat, s.ra src.toNat, s.ra i.toNat] [(w.extractLsb' 0 16).toNat]) none)

/-- SCAT (R297). -/
def execScat (d : BitVec 4) (src : BitVec 4) (e : BitVec 3) (h : BitVec 3) (c : BitVec 2) (i : BitVec 4) (s : State) :
    Out :=
  s.notPlugin 4 (fun s =>
    let w := s.re e.toNat
    s.issueCopy c.toNat h.toNat .scat (s.ra d.toNat) (s.ra src.toNat) w (s.ra i.toNat)
      (misaligned [s.ra d.toNat, s.ra src.toNat, s.ra i.toNat] [(w.extractLsb' 0 16).toNat]) none)

/-- SIG (R298). -/
def execSig (d : BitVec 4) (e : BitVec 3) (h : BitVec 3) (c : BitVec 2) (s : State) : Out :=
  s.notPlugin 4 (fun s =>
    s.issueCopy c.toNat h.toNat .sig (s.ra d.toNat) 0 (s.re e.toNat) 0
      (if (s.ra d.toNat).toNat % 8 ≠ 0 then some (s.ra d.toNat) else none) none)

/-! ### Units (R284, R285, R294-R298) -/

/-- Fields of the descriptor e[el] of an operation. -/
def CopyOp.rb (o : CopyOp) : Nat := (o.iss.op2.extractLsb' 0 16).toNat
def CopyOp.rowCount (o : CopyOp) : Nat := (o.iss.op2.extractLsb' 16 16).toNat
def CopyOp.len (o : CopyOp) : Nat := (o.iss.op2.extractLsb' 0 32).toNat
/-- P of R297. -/
def CopyOp.pitch (o : CopyOp) : Nat :=
  let p := (o.iss.op2.extractLsb' 48 16).toNat
  if p = 0 then o.rb else 4 * p

/-- The number of units. -/
def CopyOp.total (o : CopyOp) : Nat :=
  match o.kind with
  | .cpy => (o.len + 255) / 256
  | .sig => 1
  | _ => if o.rb = 0 then 0 else o.rowCount

/-- A descriptor field that must be zero is not (R294). -/
def CopyOp.reserved (o : CopyOp) : Bool :=
  match o.kind with
  | .gath | .scat => false
  | _ => decide (o.iss.op2.extractLsb' 48 16 ≠ 0)

/-- Progress of R285. -/
def CopyOp.progress (o : CopyOp) : Nat :=
  match o.kind with
  | .cpy => 256 * o.units
  | .sig => 0
  | _ => o.units

/-- Convert k elements of a row, the next of which is element i (R296). -/
def convRow (src dst : Fmt) (r : RndCtx) (row : Nat) : Nat → Nat → Nat → Nat × Flags
  | 0, _, _ => (0, 0)
  | k + 1, i, v =>
    let p := convert src dst r.mode (v % 2 ^ src.width) (r.sr (i % 64) (row % 256))
    let q := convRow src dst r row k (i + 1) (v / 2 ^ src.width)
    (p.1 + 2 ^ dst.width * q.1, p.2 ||| q.2)

/-- The logical dies that the completion releases to (R294). -/
def CopyOp.mask (o : CopyOp) : BitVec 16 := o.iss.op2.extractLsb' 32 16

/-- What becomes of a row's bytes: its new length, value and flags. -/
def CopyOp.transform (o : CopyOp) (row n v : Nat) : Nat × Nat × Flags :=
  match o.kind, streamFmt o.fmt with
  | .cpyt true dir, some f =>
    let src := if dir then f else .f32
    let dst := if dir then .f32 else f
    let k := 8 * n / src.width
    let r := convRow src dst o.iss.rndCtx row k 0 v
    (k * dst.width / 8, r.1, r.2)
  | _, _ => (n, v, 0)

/-- Read, transform, write: one unit's bytes (log 51, DESIGN CHOICE). -/
def State.moveUnit (s : State) (o : CopyOp) (src dst : W64) (n row : Nat) : Access Flags × State :=
  match s.readMem o.iss.agent src n with
  | (.fail c a, s1) => (.fail c a, s1)
  | (.wait, s1) => (.wait, s1)
  | (.done v, s1) =>
    let t := o.transform row n v
    match s1.writeMem o.iss.agent dst t.1 t.2.1 with
    | (.fail c a, s2) => (.fail c a, s2)
    | (.wait, s2) => (.wait, s2)
    | (.done _, s2) => (.done t.2.2, s2)

/-- The word idx(r) of an index list. -/
def State.readIndex (s : State) (o : CopyOp) (r : Nat) : Access Nat × State :=
  s.readMem o.iss.agent (o.iss.op3 + BitVec.ofNat 64 (4 * r)) 4

/-- Unit k of an operation (R284, R295-R298). -/
def State.copyUnitOf (s : State) (o : CopyOp) (k : Nat) : Access Flags × State :=
  let at' := fun (a : W64) (n : Nat) => a + BitVec.ofNat 64 n
  match o.kind with
  | .cpy => s.moveUnit o (at' o.iss.op1 (256 * k)) (at' o.iss.op0 (256 * k)) (Nat.min 256 (o.len - 256 * k)) k
  | .cpyt _ _ =>
    s.moveUnit o (at' o.iss.op1 (k * (o.iss.op3.extractLsb' 0 32).toNat))
      (at' o.iss.op0 (k * (o.iss.op3.extractLsb' 32 32).toNat)) o.rb k
  | .gath =>
    match s.readIndex o k with
    | (.done i, s1) => s1.moveUnit o (at' o.iss.op1 (i * o.pitch)) (at' o.iss.op0 (k * o.rb)) o.rb k
    | (.wait, s1) => (.wait, s1)
    | (.fail c a, s1) => (.fail c a, s1)
  | .scat =>
    match s.readIndex o k with
    | (.done i, s1) => s1.moveUnit o (at' o.iss.op1 (k * o.rb)) (at' o.iss.op0 (i * o.pitch)) o.rb k
    | (.wait, s1) => (.wait, s1)
    | (.fail c a, s1) => (.fail c a, s1)
  | .sig =>
    match s.atomicMem o.iss.agent o.iss.op0 8 [s.handed o.iss o.mask]
        (fun old => some ((old + (o.iss.op2.extractLsb' 0 32).toNat) % 2 ^ 64)) with
    | (.done _, s1) => (.done 0, s1)
    | (.wait, s1) => (.wait, s1)
    | (.fail c a, s1) => (.fail c a, s1)

/-- Where the next unit of an operation writes. -/
def State.copyTarget (s : State) (o : CopyOp) : W64 :=
  match o.kind with
  | .cpy => o.iss.op0 + BitVec.ofNat 64 (256 * o.units)
  | .cpyt _ _ => o.iss.op0 + BitVec.ofNat 64 (o.units * (o.iss.op3.extractLsb' 32 32).toNat)
  | .gath => o.iss.op0 + BitVec.ofNat 64 (o.units * o.rb)
  | .scat =>
    match (s.readIndex o o.units).1 with
    | .done i => o.iss.op0 + BitVec.ofNat 64 (i * o.pitch)
    | _ => o.iss.op0
  | .sig => o.iss.op0

/-- Where the next unit of an operation reads, and its bytes. -/
def State.copySource (s : State) (o : CopyOp) : W64 × Nat :=
  match o.kind with
  | .cpy => (o.iss.op1 + BitVec.ofNat 64 (256 * o.units), Nat.min 256 (o.len - 256 * o.units))
  | .cpyt _ _ => (o.iss.op1 + BitVec.ofNat 64 (o.units * (o.iss.op3.extractLsb' 0 32).toNat), o.rb)
  | .gath =>
    match (s.readIndex o o.units).1 with
    | .done i => (o.iss.op1 + BitVec.ofNat 64 (i * o.pitch), o.rb)
    | _ => (o.iss.op1, o.rb)
  | .scat => (o.iss.op1 + BitVec.ofNat 64 (o.units * o.rb), o.rb)
  | .sig => (o.iss.op0, 8)

/-- The budget charge of the next unit (R469): SIG is none of the transfers that activity 0 names. -/
def State.copyCharge (s : State) (o : CopyOp) : Option (Nat × Nat) :=
  let src := s.copySource o
  let key := fun (a : W64) => match (s.placeOf o.iss.agent a 4 .read).1 with | .ok k _ => [k] | _ => []
  match s.activityOf o.iss.die (key src.1 ++ key (s.copyTarget o)) with
  | some k => if o.kind = .sig && k = 0 then none else some (k, src.2)
  | none => none

/-- The rank in its cycle of a unit's writes: step 1 of R151 for the issuing core's own banks, step 2 elsewhere
(R299; log 104, DESIGN CHOICE). -/
def State.copyRank (s : State) (o : CopyOp) (x : Nat) : Nat :=
  let a := s.copyTarget o
  if addrForm a = 3 || (addrForm a = 2 && addrCore a = o.iss.core && s.physDie? o.iss.part (addrDie a) = some o.iss.die)
  then 1 + x
  else rankArrival (s.logDie o.iss.part o.iss.die) o.iss.core o.iss.turn

/-- The die in whose cycles a unit's writes take place: that of the buffer it writes. -/
def State.copyDie (s : State) (o : CopyOp) : Nat :=
  let a := s.copyTarget o
  if addrForm a = 2 then (s.physDie? o.iss.part (addrDie a)).getD o.iss.die else o.iss.die

/-- Event n cycles on, plus a free time, for the operation of a context. -/
def State.copyLater (s : State) (d rank : Nat) (ev : Event) : State :=
  let r := s.freeDelay
  r.2.schedIn d (r.1 + 1) rank ev

/-- The record of an operation (R438). -/
def CopyOp.record (o : CopyOp) : BitVec 512 :=
  recordHead 512 o.iss o.started o.units ||| place 512 6 (BitVec.ofNat 16 o.fmt.toNat) ||| place 512 0x20 o.iss.op0 |||
  place 512 0x28 o.iss.op1 ||| place 512 0x30 o.iss.op2 ||| place 512 0x38 o.iss.op3

/-! ### The events of a context -/

/-- COPY_START: the next operation starts once every earlier one has completed (R276) and what its issue releases has
been applied (R152). -/
def execCopyStart (die : Nat) (core : Nat) (ctx : Nat) (s : State) : Out :=
  let k := s.copyCtx die core ctx
  match k.queue with
  | [] => .next s
  | o :: rest =>
    if o.started || seqNext k.tl.c < o.iss.num then .next s
    else if s.heldBack o.iss then .next (s.schedIn die 1 rankEngine (.copyStart die core ctx))
    else
      let s1 := (s.see die o.iss.after).onCopy die core ctx (fun k => { k with queue := { o with started := true } :: rest })
      .next (if o.total = 0 then s1.copyLater die rankEngine (.copyComplete die core ctx)
        else s1.copyLater (s.copyDie o) (s.copyRank o ctx) (.copyUnit die core ctx))

/-- COPY_UNIT: one unit reads and writes, or fails and writes nothing (R284, R285). A page on the move is waited
for. -/
def execCopyUnit (die : Nat) (core : Nat) (ctx : Nat) (s : State) : Out :=
  match (s.copyCtx die core ctx).queue with
  | [] => .next s
  | o :: rest =>
    let put := fun (t : State) (q : CopyOp) => t.onCopy die core ctx (fun k => { k with queue := q :: rest })
    let fin := fun (t : State) => t.copyLater die rankEngine (.copyComplete die core ctx)
    let b := match s.copyCharge o with
      | some (k, n) => s.charge o.iss.part k n
      | none => (true, s)
    if o.reserved then .next (fin (put s { o with fault := some (acProtection, 0) }))
    else if !b.1 then
      .next (s.untilPeriod o.iss.part (.cycle (s.copyDie o) 0 (s.copyRank o ctx)) (.copyUnit die core ctx))
    else
      match b.2.copyUnitOf o o.units with
      | (.wait, s1) =>
        -- a unit that waits for a page is charged when it moves
        let s2 := match s.getPart? o.iss.part, s1.getPart? o.iss.part with
          | some p, some q => s1.setPart { q with used := p.used }
          | _, _ => s1
        .next (s2.copyLater (s.copyDie o) (s.copyRank o ctx) (.copyUnit die core ctx))
      | (.fail c a, s1) => .next (fin (put s1 { o with fault := some (c, a) }))
      | (.done f, s1) =>
        let q := { o with units := o.units + 1, flags := o.flags ||| f }
        .next (if q.cancel || q.total ≤ q.units then fin (put s1 q)
          else (put s1 q).copyLater (s1.copyDie q) (s1.copyRank q ctx) (.copyUnit die core ctx))

/-- COPY_COMPLETE: the operation leaves the queue and completes, or its fault or cancellation enters the record
(R283, R289, R303); its flags reach the thread (R122). -/
def execCopyComplete (die : Nat) (core : Nat) (ctx : Nat) (s : State) : Out :=
  match (s.copyCtx die core ctx).queue with
  | [] => .next s
  | o :: rest =>
    let r := TlRef.copy die core ctx
    let s1 := (s.onCopy die core ctx (fun k => { k with queue := rest })).relDone r o.iss o.mask
    let p := BitVec.ofNat 64 o.progress
    let bad := fun (c : BitVec 8) (a : W64) => s1.faultOp r
      { s1.mkFault o.iss 0 ctx c p a 0 with flags := o.flags, cmd := o.record.setWidth 1024 }
    match o.fault with
    | some (c, a) => .next (bad c a)
    | none => .next (if o.cancel then bad acCancelled 0 else (s1.flagsTo o.iss.tid o.flags).completeOp r o.iss.num)

/-- The contexts of a core whose next operation can start. -/
def State.copyHouse (s : State) (d c : Nat) : State :=
  (List.range 4).foldl (fun a x =>
    let k := a.copyCtx d c x
    match k.queue with
    | [] => a
    | o :: _ =>
      if o.started || seqNext k.tl.c < o.iss.num ||
          a.pending (fun e => match e with | .copyStart d' c' x' => d' == d && c' == c && x' == x | _ => false) then a
      else a.copyLater d rankEngine (.copyStart d c x)) s

end Sys2Proof.Machine
end

