-- ==== Sys2Proof/Machine/Matrix.lean ====
section
/-! DEFINITION. The matrix engine (R307-R332): stream registers, ownership, commands with their cycles, and the
rotation of MMROT. -/

namespace Sys2Proof.Machine

/-! ### Stream registers (R307, R325, R326) -/

/-- Low bit and width of a field by its selector (R307). -/
def qField (f : Nat) : Nat × Nat :=
  ([(0, 20), (20, 2), (22, 3), (25, 2), (27, 1), (28, 1), (29, 3), (32, 20), (64, 20), (84, 2), (96, 20), (128, 20),
    (160, 20), (192, 20), (224, 20)] : List (Nat × Nat))[f]?.getD (0, 0)
/-- A field of a stream register. -/
def qGet (q : QReg) (f : Nat) : Nat := (q.extractLsb' (qField f).1 (qField f).2).toNat
def qBase (q : QReg) : Nat := qGet q 0
def qBuf (q : QReg) : Nat := qGet q 1
def qGeo (q : QReg) : Nat := qGet q 3
def qTr (q : QReg) : Bool := qGet q 4 == 1
def qSp (q : QReg) : Bool := qGet q 5 == 1
def qRing (q : QReg) : Nat := qGet q 6
def qRs (q : QReg) : Nat := qGet q 7
def qScb (q : QReg) : Nat := qGet q 8
def qScbuf (q : QReg) : Nat := qGet q 9
def qScs (q : QReg) : Nat := qGet q 10
def qMb (q : QReg) : Nat := qGet q 11
def qMs (q : QReg) : Nat := qGet q 12
def qRb (q : QReg) : Nat := qGet q 13
def qRsb (q : QReg) : Nat := qGet q 14

/-- Bits [hi:lo] of width w set in a mask. -/
def qFieldMask (f : Nat) : QReg := BitVec.ofNat 256 ((2 ^ (qField f).2 - 1) * 2 ^ (qField f).1)
/-- The bits that are not reserved. -/
def qMask : QReg := (List.range 15).foldl (fun m f => m ||| qFieldMask f) 0

/-- QSET (R325). -/
def execQset (q : BitVec 3) (x : BitVec 5) (f : BitVec 5) (n : BitVec 8) (s : State) : Out :=
  s.onCompute 3 (fun s =>
    let p := qField f.toNat
    let v := ((s.rx x.toNat).toNat + n.toNat) % 2 ^ p.2
    let old := s.rq q.toNat
    s.wq q.toNat ((old &&& ~~~(qFieldMask f.toNat)) ||| BitVec.ofNat 256 (v * 2 ^ p.1)))

/-- The AB offset of QLD and QST, when it is aligned and in range (R326). -/
def State.qOffset (s : State) (x : BitVec 5) (n : BitVec 8) (k : State → Nat → State) : State :=
  let o := (s.rx x.toNat).toNat + 32 * n.toNat
  if o % 32 ≠ 0 then s.trapSyl .trap 3 tcAlign 0 (BitVec.ofNat 64 o)
  else if Config.abSize < o + 32 then s.trapSyl .trap 3 tcBufferRange 0 (BitVec.ofNat 64 o)
  else k s (bufKey s.pre.die s.pre.core 1 o)

/-- QLD (R326): reserved bits are dropped. -/
def execQld (q : BitVec 3) (x : BitVec 5) (n : BitVec 8) (s : State) : Out :=
  s.onCompute 3 (fun s => s.qOffset x n (fun s key =>
    if s.eccRead key 32 then s.trapSyl .trap 3 tcEcc 0 (BitVec.ofNat 64 ((s.rx x.toNat).toNat + 32 * n.toNat))
    else (s.noteRead key 32).wq q.toNat (s.load0 key 32 256 &&& qMask)))

/-- QST (R326). -/
def execQst (q : BitVec 3) (x : BitVec 5) (n : BitVec 8) (s : State) : Out :=
  s.onCompute 3 (fun s => s.qOffset x n (fun s key =>
    (s.noteWrite false key 32 []).store key 32 (s.rq q.toNat &&& qMask)))

/-! ### Ownership (R313, R327) -/

def State.matOf (s : State) (d c : Nat) : Matrix := (s.getCore d c).mat
def State.onMat (s : State) (d c : Nat) (f : Matrix → Matrix) : State :=
  s.onCore d c (fun k => { k with mat := f k.mat })

/-- MOWN (R327; log 100, DESIGN CHOICE). -/
def execMown (s : State) : Out :=
  s.onCompute 3 (fun s =>
    match (s.matOf s.pre.die s.pre.core).owner with
    | none => s.onMat s.pre.die s.pre.core (fun m => { m with owner := some s.pre.tid })
    | some o => if o = s.pre.tid then s else s.trapSyl .trap 3 tcOwner 0 0)
/-- MOWN.REL (R327). -/
def execMownRel (s : State) : Out :=
  s.onCompute 3 (fun s =>
    if (s.matOf s.pre.die s.pre.core).owner = some s.pre.tid then
      s.onMat s.pre.die s.pre.core (fun m => { m with owner := none })
    else s.trapSyl .trap 3 tcOwner 0 0)

/-! ### Streams of a command (R308-R312) -/

/-- The part a stream plays: A or B of a product, or the AB side of MDRN and MLDC. -/
inductive Role where
  | a | b | d
  deriving DecidableEq, Repr, Inhabited

/-- Bytes of an element. -/
def fmtBytes (f : Nat) : Nat := if f ≤ 2 then 1 else 2

/-- Rows and row length of a footprint (R308), for n groups of 32 k; `w` is the element width. -/
def footprint (r : Role) (q : QReg) (sparse : Bool) (w n : Nat) : Nat × Nat :=
  match r with
  | .a => if sparse then (32, 16 * n * w) else if qTr q then (32 * n, 32 * w) else (32, 32 * n * w)
  | .b => if qTr q then (32, 32 * n * w) else (32 * n, 32 * w)
  | .d => (32, 32 * w)
/-- Bytes of a row of the scale footprint (R309): blocks of 16 or 32. -/
def scaleLen (q : QReg) (n : Nat) : Nat :=
  if qGeo q = 0 then 0 else if qGeo q = 1 then 2 * n else n

/-- A region of a buffer: base, rows, row length, stride and buffer. -/
structure Region where
  base : Nat
  rows : Nat
  len : Nat
  stride : Nat
  buf : Nat
  deriving DecidableEq, Repr, Inhabited

/-- The first offset past the end of its buffer that a region touches (R324). -/
def Region.past (r : Region) : Option Nat :=
  ((List.range r.rows).find? (fun n => decide (bufSize r.buf < r.base + n * r.stride + r.len))).map
    (fun n => Nat.max (r.base + n * r.stride) (bufSize r.buf))

/-- The streams that a command names, with their roles and register numbers. -/
def MatKind.roles (k : MatKind) (qa qb : Nat × QReg) : List (Role × Nat × QReg) :=
  match k with
  | .mul _ _ => [(.a, qa), (.b, qb)]
  | .zero => []
  | _ => [(.d, qa)]

/-- Raw forms use no format (R331, R332). -/
def MatKind.raw : MatKind → Bool
  | .drn o => o == 0
  | .ldc o => o == 0
  | _ => false

/-- The element width of a stream in a command. -/
def MatKind.width (k : MatKind) (q : QReg) : Nat := if k.raw then 4 else fmtBytes (qFmt q).toNat

/-- Rule `code` of R312 for one stream. -/
def MatKind.rule (k : MatKind) (code : Nat) (r : Role) (q qa qb : QReg) : Bool :=
  let mul := match k with | .mul _ _ => true | _ => false
  let rot := match k with | .mul _ t => t | _ => false
  let sparse := match k with | .mul p _ => p | _ => false
  match code with
  | 1 => qBuf q == (if r = .b then 0 else 1)
  | 2 => k.raw || decide ((qFmt q).toNat ≤ 4)
  | 3 => decide (qGeo q ≤ 2) && (qGeo q == 0 || decide (qScbuf q ≤ 1))
  | 4 => !rot || decide (qRing q ≤ 4)
  | 5 => !mul || decide (fmtBytes (qFmt qa).toNat = fmtBytes (qFmt qb).toNat)
  | 6 => !mul || (if sparse && r = .a then qSp q && !qTr q else !qSp q)
  | _ => mul || (qGeo q == 0 && !qSp q &&
      (!(k == .drn 2 || k == .ldc 2) || (qFmt q).toNat == 2))

/-- The first rule that fails, with the stream register that it reports (R312). -/
def MatKind.reserved (k : MatKind) (qa qb : Nat × QReg) : Option (Nat × Nat) :=
  (List.range 7).findSome? (fun i =>
    ((k.roles qa qb).find? (fun p => !k.rule (i + 1) p.1 p.2.2 qa.2 qb.2)).map (fun p => (i + 1, p.2.1)))

/-- Integer mode (R311). -/
def intMode (qa qb : QReg) : Bool :=
  (qFmt qa).toNat == 2 && (qFmt qb).toNat == 2 && qGeo qa == 0 && qGeo qb == 0
/-- The group time G (R311). -/
def groupTime (sparse : Bool) (qa qb : QReg) : Nat :=
  let g := if (qFmt qa).toNat = 1 && (qFmt qb).toNat = 1 then 16 else if (qFmt qa).toNat ≤ 2 then 32 else 64
  if sparse then g / 2 else g

/-- Every region of a command (R324): data, scales, metadata, and for MMROT where the incoming operand lands. -/
def MatKind.regions (k : MatKind) (n : Nat) (qa qb : Nat × QReg) : List Region :=
  let sparse := match k with | .mul p _ => p | _ => false
  let rot := match k with | .mul _ t => t | _ => false
  (k.roles qa qb).flatMap (fun p =>
    let q := p.2.2
    let sp := sparse && p.1 == .a
    let f := footprint p.1 q sp (k.width q) n
    let sl := scaleLen q n
    [⟨qBase q, f.1, f.2, qRs q, qBuf q⟩] ++
    (if qGeo q = 0 then [] else [⟨qScb q, 32, sl, qScs q, qScbuf q⟩]) ++
    (if sp then [⟨qMb q, 32, 4 * n, qMs q, qBuf q⟩] else []) ++
    (if rot then [⟨qRb q, f.1, f.2, qRs q, qBuf q⟩] ++
      (if qGeo q = 0 then [] else [⟨qRsb q, 32, sl, qScs q, qScbuf q⟩]) else []))

/-- The offsets and strides that check 4 of R324 finds misaligned. -/
def MatKind.misaligned (k : MatKind) (qa qb : Nat × QReg) : Option Nat :=
  let rot := match k with | .mul _ t => t | _ => false
  (k.roles qa qb).findSome? (fun p =>
    let q := p.2.2
    ([qBase q, qRs q] ++ (if rot then [qRb q] else [])).find? (fun v => v % k.width q != 0))

/-! ### The rings of MMROT (R320) -/

/-- The neighbours W, N, E and S of a core in rings of 2^ra columns and 2^rb rows. -/
def rings (core ra rb : Nat) : List Nat :=
  let row := core / 16
  let col := core % 16
  let w := 2 ^ ra
  let h := 2 ^ rb
  let c0 := col / w * w
  let r0 := row / h * h
  [row * 16 + c0 + (col + w - 1) % w, (r0 + (row + h - 1) % h) * 16 + col, row * 16 + c0 + (col + 1) % w,
   (r0 + (row + 1) % h) * 16 + col]
/-- W, N, E and S of a command. -/
def MatCmd.ring (c : MatCmd) : List Nat := rings c.iss.core (qRing c.qa) (qRing c.qb)
/-- The role opposite to W, N, E, S. -/
def oppRole (r : Nat) : Nat := (r + 2) % 4

/-! ### Issue (R313, R315, R324) -/

/-- Issued and not completed: queued, or with a held fault. -/
def Matrix.occupancy (m : Matrix) : Nat := m.queue.length + m.tl.held.length

/-- Issue a compute command (log 77, DESIGN CHOICE). -/
def State.issueMat (s : State) (kind : MatKind) (qa qb : Nat) (tile h n : Nat) : State :=
  let d := s.pre.die
  let c := s.pre.core
  let m := s.matOf d c
  let a := (qa, s.rq qa)
  let b := (qb, s.rq qb)
  if m.owner ≠ some s.pre.tid then s.trapSyl .trap 3 tcOwner 0 0
  else if 4 ≤ m.occupancy then s.trapSyl .trap 3 tcQueueFull 0 0
  else
    match kind.reserved a b with
    | some (code, q) => s.trapSyl .trap 3 tcStream (BitVec.ofNat 32 (code + q * 256)) 0
    | none =>
      match kind.misaligned a b with
      | some v => s.trapSyl .trap 3 tcAlign 0 (BitVec.ofNat 64 v)
      | none =>
        match (kind.regions n a b).findSome? Region.past with
        | some v => s.trapSyl .trap 3 tcBufferRange 0 (BitVec.ofNat 64 v)
        | none =>
          let rot := match kind with | .mul _ t => t | _ => false
          let gone := if rot then (rings c (qRing a.2) (qRing b.2)).find? (fun k => !s.coreHeld d k s.pre.lid) else none
          match gone with
          | some k => s.trapSyl .trap 3 tcPeerAbsent 0 (BitVec.ofNat 64 k)
          | none =>
            let num := m.tl.next
            let isMul := match kind with | .mul _ _ => true | _ => false
            let o0 : W64 := if kind = .zero then 0 else a.2.setWidth 64
            let o1 : W64 := if isMul then b.2.setWidth 64 else 0
            let cmd : MatCmd := {
              iss := s.issueInfo num 3 o0 o1 (s.pre.rnd.setWidth 64) 0, kind := kind, tile := tile, groupCount := n
              qa := a.2, qb := if isMul then b.2 else 0, issued := s.cyc d, start := none, groups := [], base := 0, rows := []
              written := 0, flags := 0, fault := none, rotN := 0, foot := Vector.replicate 4 0, cur := Vector.replicate 4 0
              out := Vector.replicate 2 0, inc := Vector.replicate 2 0 }
            let s1 := s.onMat d c (fun m => { m with tl := m.tl.issue, queue := m.queue ++ [cmd] })
            let rounds : Bool := (isMul && !intMode a.2 b.2) || kind == .drn 1
            (if rounds then s1.takeCount else s1).wh h (mkHandle 2 0 s.pre.turn num)

/-- MMUL (R328). -/
def execMmul (a : BitVec 3) (c : BitVec 3) (t : BitVec 4) (h : BitVec 3) (k : BitVec 8) (s : State) : Out :=
  s.onCompute 3 (fun s => s.issueMat (.mul false false) a.toNat c.toNat t.toNat h.toNat (k.toNat + 1))
/-- MMULS (R328). -/
def execMmuls (a : BitVec 3) (c : BitVec 3) (t : BitVec 4) (h : BitVec 3) (k : BitVec 8) (s : State) : Out :=
  s.onCompute 3 (fun s => s.issueMat (.mul true false) a.toNat c.toNat t.toNat h.toNat (k.toNat + 1))
/-- MMROT (R329). -/
def execMmrot (a : BitVec 3) (c : BitVec 3) (t : BitVec 4) (h : BitVec 3) (k : BitVec 8) (s : State) : Out :=
  s.onCompute 3 (fun s => s.issueMat (.mul false true) a.toNat c.toNat t.toNat h.toNat (k.toNat + 1))
/-- MZERO (R330). -/
def execMzero (t : BitVec 4) (h : BitVec 3) (s : State) : Out :=
  s.onCompute 3 (fun s => s.issueMat .zero 0 0 t.toNat h.toNat 0)
/-- MDRN (R331). -/
def execMdrn (a : BitVec 3) (o : BitVec 3) (t : BitVec 4) (h : BitVec 3) (s : State) : Out :=
  s.onCompute 3 (fun s => s.issueMat (.drn o.toNat) a.toNat 0 t.toNat h.toNat 1)
/-- MLDC (R332). -/
def execMldc (a : BitVec 3) (o : BitVec 3) (t : BitVec 4) (h : BitVec 3) (s : State) : Out :=
  s.onCompute 3 (fun s => s.issueMat (.ldc o.toNat) a.toNat 0 t.toNat h.toNat 1)

/-! ### Reads of a command (R317, R319) -/

/-- Bytes of a buffer of a core at the start of the cycle (R151). -/
def State.bufRead (s : State) (d c buf off n : Nat) : Nat := memRead s.mem0 (bufKey d c buf off) n
/-- The address, in own-core form, of the first byte of a range in an uncorrectable granule. -/
def State.bufEcc (s : State) (d c buf off n : Nat) : Option W64 :=
  if !s.eccRead (bufKey d c buf off) n then none
  else ((List.range n).find? (fun i => s.eccRead (bufKey d c buf (off + i)) 1)).map
    (fun i => BitVec.ofNat 64 (3 * 2 ^ 62 + buf * 2 ^ 45 + off + i))

def MatCmd.sparse (c : MatCmd) : Bool := match c.kind with | .mul p _ => p | _ => false
def MatCmd.isRot (c : MatCmd) : Bool := match c.kind with | .mul _ t => t | _ => false
/-- Kc and G of a product (R311). -/
def MatCmd.group (c : MatCmd) : Nat := groupTime c.sparse c.qa c.qb
def MatCmd.array (c : MatCmd) : Nat := c.group * c.groupCount
/-- O of R316, and the last cycle of the command itself, counted from its start. -/
def MatCmd.occupies (c : MatCmd) : Nat :=
  match c.kind with
  | .mul _ _ => c.array
  | .zero => 16
  | _ => 18
def MatCmd.lastCycle (c : MatCmd) : Nat :=
  match c.kind with
  | .mul _ _ => c.array + 11
  | .zero => 15
  | _ => 17

/-- The rows of a footprint that group g reads: row, offset in the row and length. -/
def groupRows (r : Role) (q : QReg) (sparse : Bool) (w g : Nat) : List (Nat × Nat × Nat) :=
  let cols := if sparse then 16 * w else 32 * w
  let byRows := match r with
    | .a => qTr q && !sparse
    | _ => !qTr q
  if byRows then (List.range 32).map (fun i => (32 * g + i, 0, 32 * w))
  else (List.range 32).map (fun i => (i, cols * g, cols))

/-- The scale bytes of group g in a row of scales: offset and length. -/
def scaleSpan (q : QReg) (g : Nat) : Nat × Nat := if qGeo q = 1 then (2 * g, 2) else (g, 1)

/-- What group g reads: buffer, offset, length (R317). -/
def MatCmd.reads (c : MatCmd) (g : Nat) : List (Nat × Nat × Nat) :=
  ([(Role.a, c.qa), (Role.b, c.qb)] : List (Role × QReg)).flatMap (fun p =>
    let q := p.2
    let sp := c.sparse && p.1 == .a
    (groupRows p.1 q sp (fmtBytes (qFmt q).toNat) g).map (fun x => (qBuf q, qBase q + x.1 * qRs q + x.2.1, x.2.2)) ++
    (if qGeo q = 0 then []
     else (List.range 32).map (fun i => (qScbuf q, qScb q + i * qScs q + (scaleSpan q g).1, (scaleSpan q g).2))) ++
    (if sp then (List.range 32).map (fun i => (qBuf q, qMb q + i * qMs q + 4 * g, 4)) else []))

/-- The format of a stream. -/
def qFmtOf (q : QReg) : Fmt := (streamFmt (qFmt q)).getD .t8

/-! ### The operands of a group (R308–R311, R440) -/

/-- The operand bytes of group g in the layout of R440: A at 64 i + w k, or compressed column k; B at 64 k + w j; the scale bytes
of A's rows and of B's columns; and the metadata of row i at 4 i. The second scale of 16-element blocks follows at 64 on. -/
def State.groupBytes (s : State) (c : MatCmd) (g : Nat) : Vector Nat 4 :=
  let rdb := fun (buf off n : Nat) => s.bufRead c.iss.die c.iss.core buf off n
  let wa := fmtBytes (qFmt c.qa).toNat
  let wb := fmtBytes (qFmt c.qb).toNat
  let na := if c.sparse then 16 else 32
  let at' := fun (q : QReg) (w r k : Nat) => if qTr q then qBase q + k * qRs q + r * w else qBase q + r * qRs q + k * w
  let a := (List.range (32 * na)).foldl (fun v n =>
    v + rdb (qBuf c.qa) (at' c.qa wa (n / na) (na * g + n % na)) wa * 2 ^ (8 * (64 * (n / na) + wa * (n % na)))) 0
  let b := (List.range 1024).foldl (fun v n =>
    v + rdb (qBuf c.qb) (at' c.qb wb (32 * g + n / 32) (n % 32)) wb * 2 ^ (8 * (64 * (n / 32) + wb * (n % 32)))) 0
  let sc := fun (q : QReg) (at' : Nat) => if qGeo q = 0 then 0 else (List.range 32).foldl (fun v i =>
    v + rdb (qScbuf q) (qScb q + i * qScs q + (scaleSpan q g).1) 1 * 2 ^ (8 * (at' + i)) +
      (if qGeo q = 1 then rdb (qScbuf q) (qScb q + i * qScs q + (scaleSpan q g).1 + 1) 1 * 2 ^ (8 * (64 + at' + i)) else 0)) 0
  let m := if c.sparse then (List.range 32).foldl (fun v i =>
    v + rdb (qBuf c.qa) (qMb c.qa + i * qMs c.qa + 4 * g) 4 * 2 ^ (32 * i)) 0 else 0
  #v[a, b, sc c.qa 0 + sc c.qb 32, m]

/-- n bytes of a part of the operands read last. -/
def MatCmd.curBytes (c : MatCmd) (part off n : Nat) : Nat := (c.cur[part]?.getD 0) / 2 ^ (8 * off) % 2 ^ (8 * n)

/-- BlockValue of the stored element at a byte of A (part 0) or B (part 1), in row or column r, with the scale of column or row
k of the group (R308, R309). -/
def MatCmd.operand (c : MatCmd) (part off r k : Nat) : FNum :=
  let q := if part = 0 then c.qa else c.qb
  let sc := if qGeo q = 0 then 127 else c.curBytes 2 (32 * part + r + (if qGeo q = 1 && decide (16 ≤ k) then 64 else 0)) 1
  blockValue (qFmtOf q) (c.curBytes part off (fmtBytes (qFmt q).toNat)) sc

/-- A[i][k] of the group with the flags of forming it, or none where the sparse form omits it (R310). Where both indices name k,
the sum v0 + v1 is exact; an infinity less an infinity or a signalling NaN raises NV (R105, R123), and the sign of a zero sum is
that of R117 under the mode that the command captured (log 39, DESIGN CHOICE). -/
def MatCmd.aElem (c : MatCmd) (i k : Nat) : Option (FNum × BitVec 7) :=
  let w := fmtBytes (qFmt c.qa).toNat
  if !c.sparse then some (c.operand 0 (64 * i + w * k) i k, 0)
  else
    let q := k / 4
    let nib := c.curBytes 3 (4 * i + q / 2) 1 / (if q % 2 = 0 then 1 else 16) % 16
    let v0 := c.operand 0 (64 * i + w * (2 * q)) i k
    let v1 := c.operand 0 (64 * i + w * (2 * q + 1)) i k
    match decide (nib % 4 = k % 4), decide (nib / 4 = k % 4) with
    | true, true => some (v0.add c.iss.rndCtx.mode v1)
    | true, false => some (v0, 0)
    | false, true => some (v1, 0)
    | false, false => none
/-- B[k][j] of the group. -/
def MatCmd.bElem (c : MatCmd) (k j : Nat) : FNum := c.operand 1 (64 * k + fmtBytes (qFmt c.qb).toNat * j) j k

/-- The exact sums of the group whose operands were read last (R129, R311), 1,024 of them, row by row. -/
def MatCmd.groupSums (c : MatCmd) : List (FNum × BitVec 7) :=
  (List.range 1024).map (fun n =>
    let as := (List.range 32).map (fun k => (c.aElem (n / 32) k, k))
    let r := groupSum c.iss.rndCtx.mode (as.map (fun p =>
      match p.1 with
      | some a => (a.1, c.bElem p.2 (n % 32))
      | none => (.fin false 0 0, .fin false 1 0)))
    (r.1, as.foldl (fun f p => match p.1 with | some a => f ||| a.2 | none => f) r.2))

/-- The bytes of group g added to the images of an MMROT's footprints (R321). -/
def State.footAdd (s : State) (c : MatCmd) (g : Nat) : Vector Nat 4 :=
  let add := fun (side : Nat) (r : Role) (q : QReg) (f : Vector Nat 4) =>
    let w := fmtBytes (qFmt q).toNat
    let len := (footprint r q false w c.groupCount).2
    let data := (groupRows r q false w g).foldl (fun v x =>
      v + s.bufRead c.iss.die c.iss.core (qBuf q) (qBase q + x.1 * qRs q + x.2.1) x.2.2 * 2 ^ (8 * (x.1 * len + x.2.1)))
      (f[2 * side]?.getD 0)
    let sl := scaleLen q c.groupCount
    let sp := scaleSpan q g
    let scl := if qGeo q = 0 then 0 else (List.range 32).foldl (fun v i =>
      v + s.bufRead c.iss.die c.iss.core (qScbuf q) (qScb q + i * qScs q + sp.1) sp.2 * 2 ^ (8 * (i * sl + sp.1)))
      (f[2 * side + 1]?.getD 0)
    (f.setIfInBounds (2 * side) data).setIfInBounds (2 * side + 1) scl
  if c.isRot then add 1 .b c.qb (add 0 .a c.qa c.foot) else c.foot

/-- Where the element (i, j) of MDRN or MLDC lies in AB. -/
def MatCmd.drnAddr (c : MatCmd) (i j : Nat) : Nat :=
  let w := c.kind.width c.qa
  if qTr c.qa then qBase c.qa + j * qRs c.qa + i * w else qBase c.qa + i * qRs c.qa + j * w

/-- What row pair r reads (R317): the tile's 256 bytes, or the two source rows of MLDC. -/
def MatCmd.pairReads (c : MatCmd) (r : Nat) : List (Nat × Nat × Nat) :=
  match c.kind with
  | .ldc _ => (List.range 64).map (fun n => (1, c.drnAddr (2 * r + n / 32) (n % 32), c.kind.width c.qa))
  | .zero => []
  | _ => [(2, 4096 * c.tile + 256 * r, 256)]

/-- The 64 words of row pair r as read: tile words, or the words that MLDC makes of its source (R332). -/
def State.pairWords (s : State) (c : MatCmd) (r : Nat) : List (W32 × Flags) :=
  let d := c.iss.die
  let x := c.iss.core
  (List.range 64).map (fun n =>
    match c.kind with
    | .ldc inn =>
      let v := s.bufRead d x 1 (c.drnAddr (2 * r + n / 32) (n % 32)) (c.kind.width c.qa)
      if inn = 0 then (BitVec.ofNat 32 v, 0)
      else if inn = 2 then ((BitVec.ofNat 8 v).signExtend 32, 0)
      else
        let p := convert (qFmtOf c.qa) .f32 0 v 0
        (BitVec.ofNat 32 p.1, p.2)
    | _ => (BitVec.ofNat 32 (s.bufRead d x 2 (4096 * c.tile + 256 * r + 4 * n) 4), 0))

/-! ### Results (R129, R311, R328, R331) -/

/-- An exact integer value. -/
def FNum.toInt : FNum → Int
  | .fin n m e => if n then -((m * 2 ^ e.toNat : Nat) : Int) else ((m * 2 ^ e.toNat : Nat) : Int)
  | _ => 0

/-- The tile word of element (i, j) after every group. -/
def MatCmd.accumulate (c : MatCmd) (i j : Nat) (w : W32) : W32 × Flags :=
  let r := c.iss.rndCtx
  c.groups.foldl (fun (a : W32 × Flags) g =>
    let p := g[32 * i + j]?.getD (.fin false 0 0, 0)
    if intMode c.qa c.qb then
      let q := saturate .i32 (intOf .i32 a.1.toNat + p.1.toInt)
      (BitVec.ofNat 32 q.1, a.2 ||| q.2)
    else
      let t := (decodeNum .f32 a.1.toNat).add r.mode p.1
      let q := roundTo .f32 r.mode t.1 (r.sr j i)
      (BitVec.ofNat 32 q.1, a.2 ||| p.2 ||| t.2 ||| q.2)) (w, 0)

/-- The element that MDRN writes for a tile word (R331). -/
def MatCmd.drained (c : MatCmd) (out i j : Nat) (w : W32) : Nat × Flags :=
  let r := c.iss.rndCtx
  if out = 0 then (w.toNat, 0)
  else if out = 2 then saturate .i8 (intOf .i32 w.toNat)
  else convert .f32 (qFmtOf c.qa) r.mode w.toNat (r.sr j i)

/-- Write row pair r (R317). -/
def State.writePair (s : State) (c : MatCmd) (r : Nat) : State × MatCmd :=
  let d := c.iss.die
  let x := c.iss.core
  let ws := c.rows[r]?.getD []
  let tileKey := bufKey d x 2 (4096 * c.tile + 256 * r)
  let done := fun (t : State) (f : Flags) => (t, { c with written := c.written + 1, flags := c.flags ||| f })
  let s0 := s.touch c.iss.oid d x tileKey 256
  match c.kind with
  | .zero => done (s0.store tileKey 256 (0 : VReg)) 0
  | .ldc _ =>
    done (s0.store tileKey 256 ((packElems 2048 32 (fun n => ws[n]?.getD 0) 64 : VReg))) 0
  | .mul _ _ =>
    let rs := (List.range 64).map (fun n => c.accumulate (2 * r + n / 32) (n % 32) (ws[n]?.getD 0))
    done (s0.store tileKey 256 ((packElems 2048 32 (fun n => (rs[n]?.getD (0, 0)).1) 64 : VReg)))
      (rs.foldl (fun f p => f ||| p.2) 0)
  | .drn out =>
    let w := c.kind.width c.qa
    let es := (List.range 64).map (fun n =>
      let i := 2 * r + n / 32
      let j := n % 32
      (bufKey d x 1 (c.drnAddr i j), c.drained out i j (ws[n]?.getD 0)))
    match s.narrowHit w (es.map (·.1)) with
    | some k =>
      -- a write of part of an uncorrectable granule faults as a read would (R487)
      (s, { c with fault := some (acEcc, BitVec.ofNat 64 (3 * 2 ^ 62 + 2 ^ 45 + (k - bufKey d x 1 0))) })
    | none => done (s.storeCycle c.iss w (es.map (fun e => (e.1, e.2.1)))) (es.foldl (fun f e => f ||| e.2.2) 0)

/-! ### One cycle of a command (R317) -/

/-- An uncorrectable error in a byte it reads has stopped the command's writes and its transfers (R319, R322); a fault
of a transfer stops neither. -/
def MatCmd.stopped (c : MatCmd) : Bool := match c.fault with
  | some f => f.1 == acEcc
  | none => false

/-- Reads that fall in cycle e of a command: a group, and a row pair. -/
def State.matReads (s : State) (c : MatCmd) (e : Nat) : MatCmd :=
  let d := c.iss.die
  let x := c.iss.core
  let isMul := match c.kind with | .mul _ _ => true | _ => false
  let bad := fun (l : List (Nat × Nat × Nat)) => l.findSome? (fun p => s.bufEcc d x p.1 p.2.1 p.2.2)
  let c1 :=
    if isMul && decide (e % c.group = 0) && decide (e / c.group < c.groupCount) && !c.stopped then
      let g := e / c.group
      match bad (c.reads g) with
      | some a => { c with fault := some (acEcc, a) }
      | none =>
        let q := { c with foot := s.footAdd c g, cur := s.groupBytes c g }
        { q with groups := q.groups ++ [q.groupSums] }
    else c
  if e < 16 && decide (c1.rows.length ≤ e) && c1.kind ≠ .zero && !c1.stopped then
    match bad (c1.pairReads e) with
    | some a => { c1 with fault := some (acEcc, a) }
    | none =>
      let ws := s.pairWords c1 e
      { c1 with rows := c1.rows ++ [ws.map (·.1)], flags := ws.foldl (fun f p => f ||| p.2) c1.flags }
  else c1

/-- The row pair that is written in cycle e. -/
def MatCmd.writesAt (c : MatCmd) (e : Nat) : Option Nat :=
  let r := match c.kind with
    | .mul _ _ => e + 4 - c.array
    | .zero => e
    | _ => e - 2
  let first := match c.kind with
    | .mul _ _ => c.array - 4
    | .zero => 0
    | _ => 2
  if first ≤ e && r < 16 then some r else none

def State.setMatCmd (s : State) (c : MatCmd) : State :=
  s.onMat c.iss.die c.iss.core (fun m => { m with queue := m.queue.map (fun q => if q.iss.num = c.iss.num then c else q) })
def State.matCmd? (s : State) (d c num : Nat) : Option MatCmd := (s.matOf d c).queue.find? (fun q => q.iss.num == num)

/-! ### MMROT transfers (R321, R322) -/

/-- The n-th MMROT of a launch on a core, if it has started and not completed (R320). -/
def State.rotOf? (s : State) (d c lid n : Nat) : Option MatCmd :=
  (s.matOf d c).queue.find? (fun q => q.isRot && q.start.isSome && q.rotN == n && q.iss.lid == lid)

/-- Two matched commands, of cores x and y, disagree on their rings: one names the other in a role that the other does not
return (R322). -/
def ringsDiffer (c w : MatCmd) (x y : Nat) : Bool :=
  let oneWay := fun (p q : MatCmd) (a b : Nat) => p.ring.zipIdx.any (fun e => e.1 == b && q.ring[oppRole e.2]? != some a)
  oneWay c w x y || oneWay w c y x

/-- Footprint shapes of one side: row count, row length and scale-row length. -/
def MatCmd.shape (c : MatCmd) (side : Nat) : Nat × Nat × Nat :=
  let q := if side = 0 then c.qa else c.qb
  let f := footprint (if side = 0 then .a else .b) q false (fmtBytes (qFmt q).toNat) c.groupCount
  (f.1, f.2, scaleLen q c.groupCount)

/-- A command takes a fault in its transfers, unless it has one. -/
def MatCmd.fail (c : MatCmd) (cause : BitVec 8) : MatCmd :=
  { c with fault := match c.fault with | some f => some f | none => some (cause, 0) }
def MatCmd.setOut (c : MatCmd) (side v : Nat) : MatCmd := { c with out := c.out.setIfInBounds side v }
def MatCmd.setInc (c : MatCmd) (side v : Nat) : MatCmd := { c with inc := c.inc.setIfInBounds side v }
def MatCmd.outOf (c : MatCmd) (side : Nat) : Nat := c.out[side]?.getD 0
def MatCmd.incOf (c : MatCmd) (side : Nat) : Nat := c.inc[side]?.getD 0

/-- Cycles of one side's transfer: its data, then its scales, at 128 bytes a cycle. -/
def MatCmd.outCycles (c : MatCmd) (side : Nat) : Nat :=
  let p := c.shape side
  (p.1 * p.2.1 + 127) / 128 + (32 * p.2.2 + 127) / 128

/-- One side's outgoing transfer, looked at in a cycle at or after s + Kc: it starts, fails or goes on waiting. -/
def State.rotOut (s : State) (d core num side : Nat) : State :=
  match s.matCmd? d core num with
  | none => s
  | some c =>
    if c.outOf side ≠ 0 then s
    else if c.stopped then s.setMatCmd (c.setOut side 3)
    else
      let y := c.ring[side]?.getD 0
      if !s.coreHeld d y c.iss.lid then s.setMatCmd ((c.setOut side 3).fail acPeerAbsent)
      else
        match s.rotOf? d y c.iss.lid c.rotN with
        | none => if c.rotN ≤ (s.matOf d y).rots then s.setMatCmd ((c.setOut side 3).fail acProtection) else s
        | some w =>
          if ringsDiffer c w core y || c.shape side ≠ w.shape side then
            let s1 := s.setMatCmd ((c.setOut side 3).fail acProtection)
            match s1.rotOf? d y c.iss.lid c.rotN with
            | some w1 =>
              let w2 := w1.fail acProtection
              s1.setMatCmd (if w.ring[side + 2]? = some core then w2.setInc side 3 else w2)
            | none => s1
          else
            let s1 := s.setMatCmd (c.setOut side 1)
            let s2 := match s1.rotOf? d y c.iss.lid c.rotN with
              | some w1 => s1.setMatCmd (w1.setInc side 1)
              | none => s1
            (s2.cross d core y).schedIn d 1 (rankArrival (s.logDie c.iss.part d) core c.iss.turn) (.mmrotTransfer d core num side 1)

/-- One side's incoming transfer: the sender may have faulted, completed or named other rings. A command that awaits a transfer
from one that completed with a fault before it began to send takes PROTECTION, whatever that fault was (log 78, DESIGN CHOICE);
one whose sender's core has gone to another launch waits (R320, R321). -/
def State.rotInc (s : State) (d core num side : Nat) : State :=
  match s.matCmd? d core num with
  | none => s
  | some c =>
    if c.incOf side ≠ 0 then s
    else
      let y := c.ring[side + 2]?.getD 0
      match s.rotOf? d y c.iss.lid c.rotN with
      | none =>
        if s.coreHeld d y c.iss.lid && decide (c.rotN ≤ (s.matOf d y).rots) then s.setMatCmd ((c.setInc side 3).fail acProtection)
        else s
      | some e =>
        if ringsDiffer c e core y then
          let s1 := s.setMatCmd ((c.setInc side 3).fail acProtection)
          match s1.rotOf? d y c.iss.lid c.rotN with
          | some e1 => s1.setMatCmd (e1.fail acProtection)
          | none => s1
        else if e.outOf side = 3 then s.setMatCmd ((c.setInc side 3).fail acProtection)
        else s

/-- A notice from a core that this command does not name in return (R322). -/
def State.rotNotice (s : State) (d core num : Nat) : State :=
  match s.matCmd? d core num with
  | none => s
  | some c =>
    let bad := (s.matOf d core).notices.any (fun n => n.1 == c.rotN && c.ring[oppRole n.2.2]? != some n.2.1)
    if bad then s.setMatCmd (c.fail acProtection) else s

/-- MMROT_RING_NOTICE: at its start an MMROT tells the cores its rings name which rings it uses (R322). -/
def execMmrotRingNotice (die : Nat) (core : Nat) (num : Nat) (s : State) : Out :=
  match s.matCmd? die core num with
  | none => .next s
  | some c =>
    .next (c.ring.zipIdx.foldl (fun a p =>
      a.onMat die p.1 (fun m => { m with notices := m.notices ++ [(c.rotN, core, p.2)] })) s)

/-- Bytes of an MMROT part that have moved (R438): side 0 A, 1 B. -/
def MatCmd.movedBytes (c : MatCmd) (side st : Nat) (cycles : Nat) : Nat :=
  let p := c.shape side
  let total := p.1 * p.2.1 + 32 * p.2.2
  if st = 2 then total
  else if st = 1 then
    let dc := (p.1 * p.2.1 + 127) / 128
    Nat.min (p.1 * p.2.1) (128 * Nat.min cycles dc) + Nat.min (32 * p.2.2) (128 * (cycles - dc))
  else 0

/-- The cycles of a transfer that have moved so many bytes. -/
def MatCmd.cyclesFor (c : MatCmd) (side n : Nat) : Nat :=
  let p := c.shape side
  let data := p.1 * p.2.1
  if n < data then n / 128 else (data + 127) / 128 + (n - data) / 128

/-- Cycles that a transfer has run: the entry that continues it carries the next one (R321). -/
def State.rotCycles (s : State) (d core num side : Nat) : Nat :=
  let find := fun (l : List Pending) => l.foldl (fun m e => match e.ev with
    | .mmrotTransfer d' c' n' i' k => if d' = d && c' = core && n' = num && i' = side then Nat.max m (k - 1) else m
    | _ => m) 0
  Nat.max (find s.agenda) (find (s.getDie d).frozen)

/-- The record of a command (R438). -/
def State.matRecord (s : State) (now : Nat) (c : MatCmd) : BitVec 1024 :=
  let d := c.iss.die
  let x := c.iss.core
  let inBytes := fun (side : Nat) =>
    let y := c.ring[side + 2]?.getD 0
    match s.rotOf? d y c.iss.lid c.rotN with
    | some e => c.movedBytes side (c.incOf side) (s.rotCycles d y e.iss.num side)
    | none => c.movedBytes side (c.incOf side) 0
  let outBytes := fun (side : Nat) => c.movedBytes side (c.outOf side) (s.rotCycles d x c.iss.num side)
  let f := fun (off v : Nat) => place 1024 off (BitVec.ofNat 64 v)
  recordHead 1024 c.iss c.start.isSome (elapsedOf now c.start) ||| place 1024 0x20 c.qa ||| place 1024 0x40 c.qb |||
  (if c.isRot then f 0x60 (outBytes 0) ||| f 0x68 (outBytes 1) ||| f 0x70 (inBytes 0) ||| f 0x78 (inBytes 1) else 0)

/-- MMROT_TRANSFER: one cycle of a transfer lands up to 128 bytes at the receiver (R321). -/
def execMmrotTransfer (die : Nat) (core : Nat) (num : Nat) (side : Nat) (cycle : Nat) (s : State) : Out :=
  match s.matCmd? die core num with
  | none => .next s
  | some c =>
    let y := c.ring[side]?.getD 0
    match s.rotOf? die y c.iss.lid c.rotN with
    | none => .next (s.setMatCmd (c.setOut side 3))
    | some w =>
      let p := c.shape side
      let q := if side = 0 then w.qa else w.qb
      let dataCycles := (p.1 * p.2.1 + 127) / 128
      let scale := decide (dataCycles < cycle)
      let k := if scale then cycle - dataCycles - 1 else cycle - 1
      let total := if scale then 32 * p.2.2 else p.1 * p.2.1
      let len := if scale then p.2.2 else p.2.1
      let img := c.foot[2 * side + (if scale then 1 else 0)]?.getD 0
      let n := Nat.min 128 (total - 128 * k)
      let es := (List.range n).map (fun i =>
        let b := 128 * k + i
        let off := if scale then qRsb q + b / len * qScs q + b % len else qRb q + b / len * qRs q + b % len
        -- a T6 byte has zeros above its element (R103)
        let v := img / 2 ^ (8 * b) % (if !scale && (qFmt (if side = 0 then c.qa else c.qb)).toNat = 1 then 64 else 256)
        (bufKey die y (if scale then qScbuf q else qBuf q) off, v))
      let s1 := s.storeCycle c.iss 1 es
      if (s.narrowHit 1 (es.map (·.1))).isSome then
        -- the operation that writes takes the error, and the one that awaits its bytes PROTECTION (R322, R487; log 78, DESIGN CHOICE)
        let s2 := s.setMatCmd ((c.setOut side 3).fail acEcc)
        .next (match s2.rotOf? die y c.iss.lid c.rotN with
          | some w1 => s2.setMatCmd ((w1.setInc side 3).fail acProtection)
          | none => s2)
      else if cycle < c.outCycles side then
        .next ((s1.cross die core y).schedIn die 1 (rankArrival (s.logDie c.iss.part die) core c.iss.turn)
          (.mmrotTransfer die core num side (cycle + 1)))
      else
        let s2 := s1.setMatCmd (c.setOut side 2)
        .next (match s2.rotOf? die y c.iss.lid c.rotN with
          | some w1 => s2.setMatCmd (w1.setInc side 2)
          | none => s2)

/-- The command's own cycles are over and no transfer holds it (R316, R321, R322; log 78, DESIGN CHOICE). -/
def MatCmd.finished (c : MatCmd) (e : Nat) : Bool :=
  decide (c.lastCycle ≤ e) && (!c.isRot ||
    (if c.fault.isSome then [c.outOf 0, c.outOf 1, c.incOf 0, c.incOf 1].all (fun v => v != 1)
     else [c.outOf 0, c.outOf 1, c.incOf 0, c.incOf 1].all (fun v => v == 2)))

/-- MATRIX_START and the cycles after it: cycle `elapsed` of a command reads, writes and, for MMROT, looks after its
transfers (R317, R321). -/
def execMatrixStart (die : Nat) (core : Nat) (num : Nat) (elapsed : Nat) (s : State) : Out :=
  match s.matCmd? die core num with
  | none => .next s
  | some c =>
    let c1 := s.matReads c elapsed
    let r := match c1.writesAt elapsed with
      | some r => if !c1.stopped then s.writePair c1 r else (s, c1)
      | none => (s, c1)
    let s1 := r.1.setMatCmd r.2
    let s2 :=
      if c1.isRot then
        let t := s1.rotNotice die core num
        let t := ((t.rotInc die core num 0).rotInc die core num 1)
        if c1.array ≤ elapsed then (t.rotOut die core num 0).rotOut die core num 1 else t
      else s1
    let fin := match s2.matCmd? die core num with
      | some q => q.finished elapsed
      | none => true
    .next (if fin then s2.schedIn die 0 rankLate (.matrixComplete die core num)
      else s2.schedIn die 1 rankEngine (.matrixStart die core num (elapsed + 1)))

/-- MATRIX_COMPLETE: the command leaves the queue and completes, or its fault enters the record (R283, R319). -/
def execMatrixComplete (die : Nat) (core : Nat) (num : Nat) (s : State) : Out :=
  match s.matCmd? die core num with
  | none => .next s
  | some c =>
    let r := TlRef.matrix die core
    let s1 := (s.onMat die core (fun m => { m with queue := m.queue.filter (fun q => q.iss.num != num) })).relDone r c.iss 0
    match c.fault with
    | some (cause, a) =>
      .next (s1.faultOp r
        { s1.mkFault c.iss 2 0 cause (BitVec.ofNat 64 (2 * c.written)) a (BitVec.ofNat 32 c.tile) with
          flags := c.flags, cmd := s.matRecord (s.cyc die) c })
    | none => .next ((s1.flagsTo c.iss.tid c.flags).completeOp r num)

/-- CANCEL of a command (R319): one that has not started, other than an MMROT, completes at once. -/
def State.cancelMat (s : State) (d core num : Nat) : State :=
  match s.matCmd? d core num with
  | none => s
  | some c =>
    if c.start.isSome || c.isRot then s
    else
      let s1 := s.onMat d core (fun m => { m with queue := m.queue.filter (fun q => q.iss.num != num) })
      s1.faultOp (.matrix d core) { s1.mkFault c.iss 2 0 acCancelled 0 0 (BitVec.ofNat 32 c.tile) with
        cmd := s.matRecord (s.cyc d) c }

/-- The next command that has not started, if it starts in this cycle (R316): what its issue releases has been applied (R152). -/
def State.matHouse (s : State) (d core : Nat) : State :=
  let m := s.matOf d core
  let now := s.cyc d
  match m.queue.find? (fun q => q.start.isNone) with
  | none => s
  | some c =>
    let before := m.queue.filter (fun q => q.iss.num < c.iss.num)
    let free := match before.getLast? with
      | none => !m.tl.held.any (fun f => f.num < c.iss.num && (f.syl.extractLsb' 21 7).toNat == 0x12)
      | some p => !p.isRot && (match p.start with
        | some t => decide (t + p.occupies ≤ now)
        | none => false)
    if decide (c.issued < now) && free && !s.heldBack c.iss then
      let n := if c.isRot then m.rots + 1 else 0
      let s1 := s.onMat d core (fun k => { k with
        rots := if c.isRot then k.rots + 1 else k.rots
        queue := k.queue.map (fun q => if q.iss.num = c.iss.num then { q with start := some now, rotN := n } else q) })
      let s2 := if c.isRot then s1.schedIn d 0 (rankEngine - 1) (.mmrotRingNotice d core c.iss.num) else s1
      (s2.see d c.iss.after).schedIn d 0 rankEngine (.matrixStart d core c.iss.num 0)
    else s

end Sys2Proof.Machine
end

