-- ==== Sys2Proof/Machine/Prism.lean ====
section
/-! DEFINITION. The Prism temporal engine (R333-R353). -/

namespace Sys2Proof.Machine

def State.prismOf (s : State) (d c : Nat) : Prism := (s.getCore d c).prism
def State.onPrism (s : State) (d c : Nat) (f : Prism → Prism) : State :=
  s.onCore d c (fun k => { k with prism := f k.prism })

/-- NEVER (R115). -/
def never : Nat := 0xFFFF

/-! ### The race (R336-R339) -/

/-- The tick that row i of a band contributes through cell (i, j): none for an absent cell (R334). -/
def contribution (w : Nat) (delay : BitVec 32768) (mode : BitVec 8192) (x : Nat) (i j : Nat) : Option Nat :=
  match (elem 2 mode (64 * i + j)).toNat with
  | 0 =>
    let t := x + (elem 8 delay (64 * i + j)).toNat
    some (if x = never || 2 * w ≤ t then never else t)
  | 2 => some x
  | _ => none

/-- An input tick as the window reads it (R336). -/
def tickIn (w v : Nat) : Nat := if 2 * w ≤ v then never else v

/-- What column j of a band captures (R337). -/
def capture (w op : Nat) (direct : Bool) (delay : BitVec 32768) (mode : BitVec 8192) (input : BitVec 1024) (j : Nat) :
    Nat :=
  let x := fun (i : Nat) => tickIn w (elem 16 input i).toNat
  if direct then x j
  else
    let cs := (List.range 64).filterMap (fun i => contribution w delay mode (x i) i j)
    if op = 1 then (if cs.contains never then never else cs.foldl Nat.max 0) else cs.foldl Nat.min never

/-- Insert a column into a ranking by tick and key (R338). -/
def rankInsert (p : Nat × Nat) : List (Nat × Nat) → List (Nat × Nat)
  | [] => [p]
  | q :: r => if p.1 < q.1 || (p.1 = q.1 && p.2 < q.2) then p :: q :: r else q :: rankInsert p r

/-- Bands of a mask, ascending. -/
def bandsOf (m : BitVec 4) : List Nat := (List.range 4).filter (fun b => m.getLsbD b)

/-- The list of a KFIRST race (R338). -/
def raceList (mask : BitVec 4) (k : Nat) (capt : RegFile 4 1024) : BitVec 512 :=
  let cols := (bandsOf mask).flatMap (fun b => (List.range 64).map (fun j => ((elem 16 (rd capt b) j).toNat, 64 * b + j)))
  let ranked := ((cols.filter (fun p => p.1 != never)).foldl (fun l p => rankInsert p l) []).take k
  packElems 512 32 (fun e => match ranked[e]? with
    | some p => BitVec.ofNat 32 (p.1 + p.2 * 2 ^ 16)
    | none => 0xFFFFFFFF#32) 16

/-- A race: captures and list. -/
def race (p : Prism) (w op : Nat) (direct : Bool) (k : Nat) (mask : BitVec 4) (inputs : RegFile 4 1024) : Prism :=
  let capt := (bandsOf mask).foldl (fun f b =>
    wr f b (packElems 1024 16 (fun j => BitVec.ofNat 16
      (capture w op direct (rd p.delay b) (rd p.mode b) (rd inputs b) j)) 64)) p.capt
  { p with capt := capt, dirty := p.dirty ||| mask, list := if op = 2 then raceList mask k capt else p.list }

/-- L of R339. -/
def raceLength (w : Nat) : Nat := (2 * w + 8 + 3) / 4 + 3

/-! ### Streams (R340-R342) -/

/-- TickAddr. -/
def tickAddr (q : QReg) (b n : Nat) : Nat :=
  if qTr q then qBase q + n * qRs q + 2 * b else qBase q + b * qRs q + 2 * n

/-- The accesses that make up the footprint of a command: buffer, offset and length, in order. -/
def PrismKind.footprint (k : PrismKind) (q : QReg) (mask : BitVec 4) : List (Nat × Nat × Nat) :=
  match k with
  | .pldw modes =>
    (bandsOf mask).flatMap (fun b => (List.range 64).map (fun i => (qBuf q, qBase q + (64 * b + i) * qRs q, 64))) ++
    (if modes then (bandsOf mask).flatMap (fun b =>
      (List.range 64).map (fun i => (qBuf q, qMb q + (64 * b + i) * qMs q, 16))) else [])
  | .pcap true => [(qBuf q, qBase q, 64)]
  | .plaunch | .pcap false =>
    (bandsOf mask).flatMap (fun b =>
      if qTr q then (List.range 64).map (fun n => (qBuf q, tickAddr q b n, 2)) else [(qBuf q, tickAddr q b 0, 128)])
  | _ => []

/-- The first rule of R342 that fails. -/
def PrismKind.reserved (k : PrismKind) (q : QReg) : Option Nat :=
  match k with
  | .pwin .. | .prst => none
  | _ =>
    let plane := match k with | .pldw _ => true | _ => false
    if qBuf q ≠ (if plane then 0 else 1) then some 8
    else if qGeo q ≠ 0 || qSp q then some 9
    else if plane && qTr q then some 10
    else none

/-- Check 4 of R348. -/
def PrismKind.misaligned (k : PrismKind) (q : QReg) : Option Nat :=
  match k with
  | .plaunch | .pcap false => [qBase q, qRs q].find? (fun v => v % 2 != 0)
  | .pcap true => if qBase q % 4 ≠ 0 then some (qBase q) else none
  | _ => none

/-! ### Issue (R343, R345, R348) -/

def Prism.occupancy (p : Prism) : Nat := p.queue.length + p.tl.held.length

/-- The dirty bands that the commands issued so far would leave (R345). -/
def Prism.dirtyAfter (p : Prism) : BitVec 4 :=
  p.queue.foldl (fun d c => match c.kind with
    | .plaunch => d ||| c.mask
    | .prst => d &&& ~~~c.mask
    | _ => d) p.dirty

/-- Issue a Prism command. -/
def State.issuePrism (s : State) (kind : PrismKind) (qn : Option Nat) (mask : BitVec 4) (h : Nat) : State :=
  let d := s.pre.die
  let c := s.pre.core
  let p := s.prismOf d c
  let q := match qn with
    | some n => s.rq n
    | none => 0
  if (s.matOf d c).owner ≠ some s.pre.tid then s.trapSyl .trap 3 tcOwner 0 0
  else if 4 ≤ p.occupancy then s.trapSyl .trap 3 tcQueueFull 0 0
  else
    match kind.reserved q with
    | some code => s.trapSyl .trap 3 tcStream (BitVec.ofNat 32 (code + qn.getD 0 * 256)) 0
    | none =>
      match kind.misaligned q with
      | some v => s.trapSyl .trap 3 tcAlign 0 (BitVec.ofNat 64 v)
      | none =>
        match (kind.footprint q mask).findSome? (fun r => (⟨r.2.1, 1, r.2.2, 0, r.1⟩ : Region).past) with
        | some v => s.trapSyl .trap 3 tcBufferRange 0 (BitVec.ofNat 64 v)
        | none =>
          let bad := p.dirtyAfter &&& mask
          if kind = .plaunch && !p.winIssued then s.trapSyl .trap 3 tcWindow 1 0
          else if kind = .plaunch && bad ≠ 0 then
            s.trapSyl .trap 3 tcWindow (BitVec.ofNat 32 (2 + bad.toNat * 256)) 0
          else
            let num := p.tl.next
            let i := s.issueInfo num 3 (q.setWidth 64) (((rd s.bun.words 3).extractLsb' 0 21).setWidth 64) 0 0
            let cmd : PrismCmd := {
              iss := i, kind := kind, mask := mask, q := q, issued := s.cyc d, start := none, delayBuf := 0
              modeBuf := 0, inputs := Vector.replicate 4 0, progress := 0, fault := none }
            let win := match kind with | .pwin .. => true | _ => false
            (s.onPrism d c (fun p => { p with
              tl := p.tl.issue, queue := p.queue ++ [cmd], winIssued := p.winIssued || win })).wh h
              (mkHandle 3 0 s.pre.turn num)

/-- PWIN (R349). -/
def execPwin (k : BitVec 4) (x : BitVec 1) (o : BitVec 2) (h : BitVec 3) (w : BitVec 8) (s : State) : Out :=
  s.onCompute 3 (fun s => s.issuePrism (.pwin w.toNat o.toNat (x == 1) (if o = 2 then k.toNat + 1 else 1)) none 0 h.toNat)
/-- PLDW (R350). -/
def execPldw (q : BitVec 3) (m : BitVec 4) (h : BitVec 3) (x : BitVec 1) (s : State) : Out :=
  s.onCompute 3 (fun s => s.issuePrism (.pldw (x == 1)) (some q.toNat) m h.toNat)
/-- PLAUNCH (R351). -/
def execPlaunch (q : BitVec 3) (m : BitVec 4) (h : BitVec 3) (s : State) : Out :=
  s.onCompute 3 (fun s => s.issuePrism .plaunch (some q.toNat) m h.toNat)
/-- PCAP (R352). -/
def execPcap (q : BitVec 3) (m : BitVec 4) (h : BitVec 3) (s : State) : Out :=
  s.onCompute 3 (fun s => s.issuePrism (.pcap false) (some q.toNat) m h.toNat)
/-- PCAP.list (R352). -/
def execPcapList (q : BitVec 3) (h : BitVec 3) (s : State) : Out :=
  s.onCompute 3 (fun s => s.issuePrism (.pcap true) (some q.toNat) 0 h.toNat)
/-- PRST (R353). -/
def execPrst (m : BitVec 4) (h : BitVec 3) (s : State) : Out :=
  s.onCompute 3 (fun s => s.issuePrism .prst none m h.toNat)

/-! ### The cycles of a command (R343) -/

def State.prismCmd? (s : State) (d c num : Nat) : Option PrismCmd := (s.prismOf d c).queue.find? (fun q => q.iss.num == num)
def State.setPrismCmd (s : State) (c : PrismCmd) : State :=
  s.onPrism c.iss.die c.iss.core (fun p => { p with
    queue := p.queue.map (fun q => if q.iss.num = c.iss.num then c else q) })

/-- The completion cycle, counted from the start. A race without a window, or with a dirty band, completes at its
start (R345). -/
def State.prismLast (s : State) (c : PrismCmd) : Nat :=
  let p := s.prismOf c.iss.die c.iss.core
  let nb := (bandsOf c.mask).length
  match c.kind with
  | .pldw _ => 10 * nb - 1
  | .pcap false => nb - 1
  | .plaunch =>
    match p.window with
    | some (w, _, _, _) => if c.fault.any (fun f => f.1 == acCancelled) then 0 else raceLength w - 1
    | none => 0
  | _ => 0

/-- Rows of a plane read in one cycle: delay rows 8m to 8m + 7, or half the mode rows. -/
def planeRows (q : QReg) (b m : Nat) : List (Nat × Nat × Nat) :=
  if m < 8 then (List.range 8).map (fun i => (qBuf q, qBase q + (64 * b + 8 * m + i) * qRs q, 64))
  else (List.range 32).map (fun i => (qBuf q, qMb q + (64 * b + 32 * (m - 8) + i) * qMs q, 16))

/-- A mode plane with code 11 loaded as absent (R334). -/
def cleanModes (v : BitVec 8192) : BitVec 8192 :=
  packElems 8192 2 (fun n => if elem 2 v n = 3 then 1 else elem 2 v n) 4096

/-- Cycle e of a PLDW (R341, R343, R350). -/
def State.loadPlanes (s : State) (c : PrismCmd) (modes : Bool) (e : Nat) : State :=
  let d := c.iss.die
  let x := c.iss.core
  let b := (bandsOf c.mask)[e / 10]?.getD 0
  let m := e % 10
  let rows := if m < 8 || modes then planeRows c.q b m else []
  match rows.findSome? (fun r => s.bufEcc d x r.1 r.2.1 r.2.2) with
  | some a => s.setPrismCmd { c with fault := some (acEcc, a) }
  | none =>
    let img := rows.zipIdx.foldl (fun v r => v + s.bufRead d x r.1.1 r.1.2.1 r.1.2.2 * 2 ^ (8 * r.1.2.2 * r.2)) 0
    let c1 :=
      if m < 8 then { c with delayBuf := (if m = 0 then 0 else c.delayBuf) ||| BitVec.ofNat 32768 (img * 2 ^ (4096 * m)) }
      else { c with modeBuf := (if m = 8 then 0 else c.modeBuf) ||| BitVec.ofNat 8192 (img * 2 ^ (4096 * (m - 8))) }
    let c2 := if m = 9 then { c1 with progress := c1.progress + 1 } else c1
    let s1 := s.setPrismCmd c2
    if m = 9 then
      s1.onPrism d x (fun p => { p with
        delay := wr p.delay b c2.delayBuf, mode := wr p.mode b (if modes then cleanModes c2.modeBuf else 0) })
    else s1

/-- The input ticks of a race (R336, R340). -/
def State.raceInputs (s : State) (c : PrismCmd) : RegFile 4 1024 :=
  (bandsOf c.mask).foldl (fun f b => wr f b (packElems 1024 16 (fun n =>
    BitVec.ofNat 16 (s.bufRead c.iss.die c.iss.core (qBuf c.q) (tickAddr c.q b n) 2)) 64)) c.inputs

/-- Cycle m of the band being loaded, read from the buffers as they stand. -/
def State.planesAnew (s : State) (c : PrismCmd) (modes : Bool) (m : Nat) : PrismCmd :=
  let b := (bandsOf c.mask)[c.progress]?.getD 0
  let rows := if m < 8 || modes then planeRows c.q b m else []
  let img := rows.zipIdx.foldl (fun v r => v + s.bufRead c.iss.die c.iss.core r.1.1 r.1.2.1 r.1.2.2 * 2 ^ (8 * r.1.2.2 * r.2)) 0
  if m < 8 then { c with delayBuf := c.delayBuf ||| BitVec.ofNat 32768 (img * 2 ^ (4096 * m)) }
  else { c with modeBuf := c.modeBuf ||| BitVec.ofNat 8192 (img * 2 ^ (4096 * (m - 8))) }

/-- The record of a command (R438). -/
def PrismCmd.record (now : Nat) (c : PrismCmd) : BitVec 1024 :=
  recordHead 1024 c.iss c.start.isSome (elapsedOf now c.start) ||| place 1024 0x20 c.q

/-- PRISM_START and the cycles after it (R343). -/
def execPrismStart (die : Nat) (core : Nat) (num : Nat) (elapsed : Nat) (s : State) : Out :=
  match s.prismCmd? die core num with
  | none => .next s
  | some c =>
    let p := s.prismOf die core
    let s1 :=
      if c.fault.isSome then s
      else
        match c.kind with
        | .pldw modes => s.loadPlanes c modes elapsed
        | .plaunch =>
          if elapsed ≠ 0 then s
          else if p.window.isNone || p.dirty &&& c.mask ≠ 0 then s.setPrismCmd { c with fault := some (acCancelled, 0) }
          else
            match (c.kind.footprint c.q c.mask).findSome? (fun r => s.bufEcc die core r.1 r.2.1 r.2.2) with
            | some a => s.setPrismCmd { c with fault := some (acEcc, a) }
            | none => s.setPrismCmd { c with inputs := s.raceInputs c }
        -- PCAP never faults (R346), and leaves an uncorrectable granule that it does not cover as it is (R487; log 79, DEDUCED)
        | .pcap true => s.storeCycle c.iss 4 ((List.range 16).map (fun n =>
            (bufKey die core (qBuf c.q) (qBase c.q) + 4 * n, (elem 32 p.list n).toNat)))
        | .pcap false =>
          let b := (bandsOf c.mask)[elapsed]?.getD 0
          let key := fun (j : Nat) => bufKey die core (qBuf c.q) (tickAddr c.q b j)
          s.storeCycle c.iss 2 ((List.range 64).map (fun j => (key j, (elem 16 (rd p.capt b) j).toNat)))
        | .pwin .. | .prst => s
    let last := match s1.prismCmd? die core num with
      | some q => s1.prismLast q
      | none => 0
    .next (if last ≤ elapsed then s1.schedIn die 0 rankLate (.prismComplete die core num)
      else s1.schedIn die 1 (rankEngine + 1) (.prismStart die core num (elapsed + 1)))

/-- W of a fault record: a PWIN's own, or that of the window in force (log 79, DESIGN CHOICE). -/
def State.prismW (s : State) (c : PrismCmd) : Nat :=
  match c.kind with
  | .pwin w _ _ _ => w
  | _ => match (s.prismOf c.iss.die c.iss.core).window with
    | some (w, _, _, _) => w
    | none => 0

/-- A command leaves the queue with a fault (R346). -/
def State.failPrism (s : State) (c : PrismCmd) (cause : BitVec 8) (a : W64) : State :=
  let d := c.iss.die
  let x := c.iss.core
  let iss := { c.iss with op2 := BitVec.ofNat 64 (s.prismW c) }
  let s1 := s.onPrism d x (fun p => { p with queue := p.queue.filter (fun q => q.iss.num != c.iss.num) })
  -- a faulted command completes and releases the accesses that it made (R152)
  let s2 := if cause = acCancelled then s1 else s1.relDone (.prism d x) c.iss 0
  s2.faultOp (.prism d x) { s1.mkFault iss 3 0 cause (BitVec.ofNat 64 c.progress) a (c.mask.setWidth 32) with
    cmd := c.record (s.cyc d) }

/-- PRISM_COMPLETE: window, flags, captures and list take their values, and the command completes (R343, R349-R353). -/
def execPrismComplete (die : Nat) (core : Nat) (num : Nat) (s : State) : Out :=
  match s.prismCmd? die core num with
  | none => .next s
  | some c =>
    match c.fault with
    | some (cause, a) => .next (s.failPrism c cause a)
    | none =>
      let s1 := s.onPrism die core (fun p =>
        let p1 := { p with queue := p.queue.filter (fun q => q.iss.num != num) }
        match c.kind with
        | .pwin w op direct k => { p1 with window := some (w, op, direct, k) }
        | .prst => { p1 with dirty := p1.dirty &&& ~~~c.mask }
        | .plaunch =>
          match p1.window with
          | some (w, op, direct, k) => race p1 w op direct k c.mask c.inputs
          | none => p1
        | _ => p1)
      .next ((s1.relDone (.prism die core) c.iss 0).completeOp (.prism die core) num)

/-- CANCEL of a command that has not started (R346). -/
def State.cancelPrism (s : State) (d core num : Nat) : State :=
  match s.prismCmd? d core num with
  | none => s
  | some c => if c.start.isSome then s else s.failPrism c acCancelled 0

/-- The next command, if it starts in this cycle (R343). -/
def State.prismHouse (s : State) (d core : Nat) : State :=
  let p := s.prismOf d core
  match p.queue with
  | [] => s
  | c :: _ =>
    if c.start.isSome || s.cyc d ≤ c.issued || s.heldBack c.iss || p.tl.held.any (fun f => f.num < c.iss.num) then s
    else
      let s1 := s.setPrismCmd { c with start := some (s.cyc d) }
      (s1.see d c.iss.after).schedIn d 0 (rankEngine + 1) (.prismStart d core c.iss.num 0)

end Sys2Proof.Machine
end

