-- ==== Sys2Proof/Machine/Coll.lean ====
section
/-! DEFINITION. The collective engine (R381-R400): contexts, matching, operations and their faults. -/

namespace Sys2Proof.Machine

def State.collCtx (s : State) (d x : Nat) : CollCtx := (s.getDie d).coll[x]?.getD CollCtx.init
def State.onColl (s : State) (d x : Nat) (f : CollCtx → CollCtx) : State :=
  s.onDie d (fun k => { k with coll := k.coll.setIfInBounds x (f (k.coll[x]?.getD CollCtx.init)) })

/-! ### The descriptor (R385, R386) -/

def CollOp.ctl (o : CollOp) : W64 := elem 64 o.desc 0
def CollOp.opCode (o : CollOp) : Nat := (o.ctl.extractLsb' 0 4).toNat
def CollOp.red (o : CollOp) : Nat := (o.ctl.extractLsb' 4 4).toNat
def CollOp.type (o : CollOp) : Nat := (o.ctl.extractLsb' 8 4).toNat
def CollOp.group (o : CollOp) : Nat := (o.ctl.extractLsb' 16 8).toNat
def CollOp.root (o : CollOp) : Nat := (o.ctl.extractLsb' 24 8).toNat
def CollOp.count (o : CollOp) : Nat := (elem 32 o.desc 2).toNat
def CollOp.src (o : CollOp) : W64 := elem 64 o.desc 2
def CollOp.dst (o : CollOp) : W64 := elem 64 o.desc 3
def CollOp.spitch (o : CollOp) : Nat := (elem 32 o.desc 8).toNat
def CollOp.depthField (o : CollOp) : Nat := (elem 16 o.desc 18).toNat
/-- A DEPTH of 0 means 1. -/
def CollOp.depth (o : CollOp) : Nat := Nat.max o.depthField 1
def CollOp.signal (o : CollOp) : W64 := elem 64 o.desc 5
/-- Element size s. -/
def CollOp.size (o : CollOp) : Nat := if o.type = 1 then 2 else if o.type = 3 then 8 else 4
def CollOp.reduces (o : CollOp) : Bool := decide (o.opCode ≤ 1)
def CollOp.isWrite (o : CollOp) : Bool := o.opCode == 6
def CollOp.det (o : CollOp) : Bool := o.type == 4
/-- The logical dies that the completion releases to (R386). -/
def CollOp.mask (o : CollOp) : BitVec 16 := o.ctl.extractLsb' 32 16
/-- The operation rounds (R394). -/
def CollOp.rounds (o : CollOp) : Bool := o.reduces && o.red == 0 && (o.type == 0 || o.type == 1 || o.type == 4)

/-- Code 1 and code 2 of R387. -/
def CollOp.code1 (o : CollOp) : Bool :=
  o.ctl.extractLsb' 48 16 ≠ 0 || o.ctl.extractLsb' 12 4 ≠ 0 || elem 32 o.desc 3 ≠ 0 || elem 16 o.desc 19 ≠ 0 ||
  (!o.isWrite && o.signal ≠ 0) || elem 128 o.desc 3 ≠ 0 || ((o.opCode ≠ 3 && !o.isWrite) && o.root ≠ 0) ||
  (!o.reduces && o.red ≠ 0) || 7 ≤ o.opCode || 3 ≤ o.red || 5 ≤ o.type
def CollOp.code2 (o : CollOp) : Bool :=
  (o.det && !(o.reduces && o.red == 0)) || (!(o.det && o.reduces) && (1 < o.depthField || o.spitch ≠ 0)) ||
  4096 < o.depthField
/-- Code 4. -/
def CollOp.code4 (o : CollOp) : Bool :=
  o.src.toNat % o.size ≠ 0 || o.dst.toNat % o.size ≠ 0 || o.signal.toNat % 8 ≠ 0 || o.spitch % 4 ≠ 0 ||
  addrForm o.src = 3 || addrForm o.dst = 3 || (o.signal ≠ 0 && addrForm o.signal = 3)

/-! ### Members (R382, R383) -/

def memberChip (w : MemberWord) : Nat := (w.extractLsb' 16 16).toNat
def memberDie (w : MemberWord) : Nat := (w.extractLsb' 12 4).toNat
def memberCore (w : MemberWord) : Nat := (w.extractLsb' 4 8).toNat

/-- The member words of an operation's entry. -/
def State.membersOf (s : State) (part group : Nat) : List MemberWord :=
  match s.getPart? part with
  | none => []
  | some p => (p.groups.find? (fun g => g.1 == group)).elim [] (·.2)
/-- Where a member lives on this package: its chip index names a partition here, whose die it names (64: it has no such
die). Members of another partition of this package are reached without a link. -/
def State.home (s : State) (w : MemberWord) : Option (Nat × Nat × Nat) :=
  (s.parts.find? (fun p => p.chip == memberChip w)).map (fun p => (p.num, p.dies[memberDie w]?.getD 64, memberCore w))
def State.isHere (s : State) (w : MemberWord) : Bool := (s.home w).isSome
/-- The rank of the issuing core in its entry. -/
def State.rankOf (s : State) (o : CollOp) : Option Nat :=
  let ws := s.membersOf o.iss.part o.group
  let r := ws.findIdx (fun w => s.home w == some (o.iss.part, o.iss.die, o.iss.core))
  if r < ws.length then some r else none

/-- Two issues of one context belong to one operation. -/
def CollOp.matches (a b : CollOp) : Bool :=
  a.iss.part == b.iss.part && a.group == b.group && a.ordinal == b.ordinal && !a.isWrite && !b.isWrite

/-- Every collective issued and not completed. -/
def State.allColl (s : State) : List CollOp := s.dies.flatMap (fun d => d.coll.toList.flatMap (·.queue))
/-- The issue that a member on this package has made of an operation. -/
def State.issueOf (s : State) (o : CollOp) (w : MemberWord) : Option CollOp :=
  match s.home w with
  | none => none
  | some (p, d, c) => s.allColl.find? (fun q => q.iss.part == p && q.iss.die == d && q.iss.core == c &&
      q.group == o.group && q.ordinal == o.ordinal && !q.isWrite)
/-- The issues of an operation that stand in contexts of this package. -/
def State.issuesOf (s : State) (o : CollOp) : List CollOp :=
  if o.isWrite then [o] else (s.membersOf o.iss.part o.group).filterMap (s.issueOf o)

/-- The port of a chip route (R403): a fixed hash of the pair picks it among the ports of the set, and a port that is
down gives way to the next. -/
def State.routePort (s : State) (part die chip mdie : Nat) : Option Nat :=
  match s.getPart? part with
  | none => none
  | some p =>
    match p.routes.find? (fun r => r.1 == chip) with
    | none => none
    | some (_, set) =>
      let ports := (List.range 16).filter (fun i => set.getLsbD i)
      let n := ports.length
      let k := Config.portHash die (chip * 16 + mdie)
      ((List.range n).map (fun i => ports[(k + i) % n]?.getD 0)).find? (fun i => (s.getPort i).up)

/-! ### Reductions (R389, R391) -/

/-- The format of a float type. -/
def collFmt (type : Nat) : Fmt := if type = 1 then .bf16 else .f32

/-- One level of the tree of R389: neighbours are added, each sum rounded to FP32. -/
def pairUp (mode : Nat) : List FNum → List FNum × Flags
  | a :: b :: r =>
    let t := a.add mode b
    let q := roundTo .f32 mode t.1 0
    let p := pairUp mode r
    (decodeNum .f32 q.1 :: p.1, t.2 ||| q.2 ||| p.2)
  | l => (l, 0)
/-- The whole tree; at most `fuel` levels. -/
def pairTree (mode : Nat) : Nat → List FNum → Flags → FNum × Flags
  | 0, l, f => (l.headD (.fin false 0 0), f)
  | n + 1, l, f =>
    match l with
    | [] => (.fin false 0 0, f)
    | [a] => (a, f)
    | _ =>
      let p := pairUp mode l
      pairTree mode n p.1 (f ||| p.2)

/-- The two's complement value of w bits. -/
def signedOf (w v : Nat) : Int := if v % 2 ^ w < 2 ^ (w - 1) then (v % 2 ^ w : Nat) else (v % 2 ^ w : Int) - 2 ^ w

/-- Red() for the types other than det (R389), over the bit patterns of one element in rank order. -/
def redElem (type red mode : Nat) (vs : List Nat) : Nat × Flags :=
  if type = 2 || type = 3 then
    let w := if type = 2 then 32 else 64
    match vs with
    | [] => (0, 0)
    | v :: r =>
      (r.foldl (fun a b =>
        if red = 0 then (a + b) % 2 ^ w
        else if decide (signedOf w b < signedOf w a) == (red == 2) then b else a) v, 0)
  else
    let f := collFmt type
    if red ≠ 0 then
      match vs with
      | [] => (0, 0)
      | v :: r => r.foldl (fun (a : Nat × Flags) b =>
          let p := minMaxNum f (red == 1) a.1 b
          (p.1, a.2 ||| p.2)) (v, 0)
    else
      match vs, type with
      | [v], 0 => (v, 0)
      | _, _ =>
        let m := if mode = 5 then 0 else mode
        let xs := vs.map (decodeNum f)
        let p := pairTree m 11 xs 0
        let q := roundTo f m p.1 0
        (q.1, p.2 ||| (if type = 1 then q.2 else 0) ||| (if xs.length = 1 then p.1.sigFlag else 0))

/-- floor(log2 |x|) of a finite nonzero value. -/
def exponentOf : FNum → Option Int
  | .fin _ m e => if m = 0 then none else some ((bitLen m : Int) - 1 + e)
  | _ => none

def maxExp (a b : Option Int) : Option Int :=
  match a, b with
  | none, y => y
  | x, none => x
  | some x, some y => some (if x < y then y else x)

/-- The deterministic sum of one element (R391), from its values and its block's exponent. -/
def detElem (xs : List FNum) (e : Option Int) : Nat × Flags :=
  let pinf := xs.contains (.inf false)
  let ninf := xs.contains (.inf true)
  if xs.any FNum.isNaN || (pinf && ninf) then (Fmt.f32.canonNaN, Flags.nv)
  else if pinf then (Fmt.f32.infBits, 0)
  else if ninf then (Fmt.f32.signBit + Fmt.f32.infBits, 0)
  else
    match e with
    | none => (0, 0)
    | some e =>
      let fb := 40 - e
      let q := xs.map (fun x => detQuant x fb)
      let n := q.foldl (fun a p => a + p.1) 0
      let v := detValue n fb .f32 0 0
      (v.1, q.foldl (fun f p => f ||| p.2) v.2)

/-! ### Sources and results (R388) -/

/-- Elements that a source row holds, and that a destination holds, for M members. -/
def CollOp.srcCount (o : CollOp) (m : Nat) : Nat :=
  match o.opCode with
  | 1 | 4 => m * o.count
  | 5 => 0
  | _ => o.count
def CollOp.dstCount (o : CollOp) (m : Nat) : Nat :=
  match o.opCode with
  | 2 | 4 => m * o.count
  | 5 => 0
  | _ => o.count

/-- Rows of a source. -/
def CollOp.rowCount (o : CollOp) : Nat := if o.det then o.depth else 1
/-- An issue reads its source: not in a BARRIER, with C = 0, or of a BROADCAST that another member roots. -/
def State.readsSource (s : State) (o : CollOp) : Bool :=
  decide (o.count ≠ 0) && o.opCode ≠ 5 && (o.opCode ≠ 3 || s.rankOf o == some o.root)

/-- The rows of a member's source, n elements each, or why they cannot be read. -/
def State.readRows (s : State) (g : Agent) (o : CollOp) (n : Nat) : Nat → Access (List Nat) × State
  | 0 => (.done [], s)
  | k + 1 =>
    match s.readRows g o n k with
    | (.done l, s1) =>
      match s1.readMem g (o.src + BitVec.ofNat 64 (k * o.spitch)) (n * o.size) with
      | (.done v, s2) => (.done (l ++ [v]), s2)
      | (.wait, s2) => (.wait, s2)
      | (.fail c a, s2) => (.fail c a, s2)
    | r => r

/-- Elements of an issue's source that its core has written since the issue (R393): what happened before the issue, and the
operation's own writes, do not count. -/
def State.written (s : State) (q : CollOp) (own : List Nat) : List Nat :=
  let w := ((s.touched.getD []).drop q.mark).filter (fun t =>
    t.die == q.iss.die && t.core == q.iss.core && !q.prior.contains t.id && !own.contains t.id)
  if w.isEmpty || !s.readsSource q then []
  else
    (List.range (q.srcCount (s.membersOf q.iss.part q.group).length)).filter (fun j => (List.range q.rowCount).any (fun k =>
      match (s.placeOf q.iss.agent (q.src + BitVec.ofNat 64 (k * q.spitch + q.size * j)) q.size .read).1 with
      | .ok key _ => w.any (fun t => decide (key < t.key + t.n) && decide (t.key < key + q.size))
      | _ => false))

/-- Element i of a row. -/
def rowElem (size row i : Nat) : Nat := row / 2 ^ (8 * size * i) % 2 ^ (8 * size)
/-- The row with element i replaced. -/
def putRowElem (size row i x : Nat) : Nat :=
  row - rowElem size row i * 2 ^ (8 * size * i) + x % 2 ^ (8 * size) * 2 ^ (8 * size * i)

/-- The element that member r receives at position i, from the rows of every member (R388): its bits and flags. -/
def CollOp.resultElem (o : CollOp) (mode : Nat) (srcs : List (List Nat)) (r i : Nat) : Nat × Flags :=
  let row := fun (q : Nat) => (srcs[q]?.getD []).headD 0
  let c := o.count
  match o.opCode with
  | 2 => (rowElem o.size (row (i / c)) (i % c), 0)
  | 3 => (rowElem o.size (row o.root) i, 0)
  | 4 => (rowElem o.size (row (i / c)) (r * c + i % c), 0)
  | _ =>
    let at' := fun (i : Nat) => if o.opCode = 1 then r * c + i else i
    if o.det then
      let vals := fun (i : Nat) => srcs.flatMap (fun rows => rows.map (fun w => decodeNum .f32 (rowElem 4 w (at' i))))
      let blk := (List.range 64).filter (fun k => decide (i / 64 * 64 + k < c))
      let e := blk.foldl (fun m k => (vals (i / 64 * 64 + k)).foldl (fun m x => maxExp m (exponentOf x)) m) none
      detElem (vals i) e
    else redElem o.type o.red mode (srcs.map (fun rows => rowElem o.size (rows.headD 0) (at' i)))

/-- Element i of what member r receives takes element j of the rows of member q. -/
def CollOp.takes (o : CollOp) (r i q j : Nat) : Bool :=
  let c := o.count
  let same := fun (a b : Nat) => a == b || (o.det && a / 64 == b / 64)
  match o.opCode with
  | 1 => j / c == r && same (j % c) i
  | 2 => i / c == q && j == i % c
  | 3 => q == o.root && j == i
  | 4 => i / c == q && j == r * c + i % c
  | 6 => j == i
  | _ => same j i

/-- Everything that member r receives. -/
def CollOp.result (o : CollOp) (mode m : Nat) (srcs : List (List Nat)) (r : Nat) : Nat × Flags :=
  (List.range (o.dstCount m)).foldl (fun (a : Nat × Flags) i =>
    let p := o.resultElem mode srcs r i
    (a.1 + p.1 * 2 ^ (8 * o.size * i), a.2 ||| p.2)) (0, 0)

/-- Elements of r's destination that overlap a source of q in part (R387). -/
def CollOp.overlaps (r q : CollOp) (m : Nat) : List Nat :=
  let n := q.srcCount m * q.size
  let whole := q.src = r.dst && n = r.dstCount m * r.size && q.rowCount = 1
  if r.iss.part ≠ q.iss.part || whole then []
  else (List.range (r.dstCount m)).filter (fun i =>
    let a := r.dst.toNat + r.size * i
    (List.range q.rowCount).any (fun k =>
      let b := q.src.toNat + k * q.spitch
      decide (a < b + n) && decide (b < a + r.size)))

/-- Undefined bytes (R8): a range takes free values, 256 bytes at a time, where it can be written. The state, and whether some
of it waits for a page or a stack. -/
def State.scramble (s : State) (g : Agent) (a : W64) (n : Nat) : Bool × State :=
  let base := a.toNat / 256
  (List.range ((n + 511) / 256)).foldl (fun (t : Bool × State) k =>
    let lo := Nat.max a.toNat (256 * (base + k))
    let hi := Nat.min (a.toNat + n) (256 * (base + k + 1))
    if hi ≤ lo then t
    else match { t.2 with free := t.2.free + 1 }.writeMem g (BitVec.ofNat 64 lo) (hi - lo)
        (Config.freeBits (8 * (hi - lo)) t.2.free).toNat with
      | (.wait, u) => (true, u)
      | (_, u) => (t.1, u)) (false, s)

/-- A value with undefined elements. -/
def State.freeElems (s : State) (size v : Nat) (es : List Nat) : Nat × State :=
  es.foldl (fun (a : Nat × State) i =>
    (putRowElem size a.1 i (Config.freeBits (8 * size) a.2.free).toNat, { a.2 with free := a.2.free + 1 })) (v, s)

/-! ### Targets of a WRITE (R390) -/

/-- The member that a WRITE names. -/
def State.targetOf (s : State) (o : CollOp) : Option MemberWord := (s.membersOf o.iss.part o.group)[o.root]?
/-- The agent that checks and applies the bytes at a target on this package. -/
def State.targetAgent (s : State) (o : CollOp) : Option Agent :=
  ((s.targetOf o).bind s.home).map (fun h => ⟨h.1, h.2.1, 0, 0, true, o.iss.oid⟩)
/-- Check 5 at a target: a peer buffer belongs to some launch of the target's partition. -/
def State.targetHeld (s : State) (g : Agent) (a : W64) (n : Nat) : Bool :=
  if addrForm a < 2 then true
  else
    match s.bufCheck g a n 1 with
    | .ok b =>
      let k := s.getCore b.die b.core
      !k.scrubbing && (match k.owner.bind s.getLaunch? with | some l => l.part == g.part | none => false)
    | .error _ => true

/-! ### Progress of an issue -/

def State.setCollOp (s : State) (o : CollOp) : State :=
  s.onColl o.iss.die o.ctx (fun k => { k with queue := k.queue.map (fun q => if q.iss.num = o.iss.num then o else q) })
def State.collOp? (s : State) (d x num : Nat) : Option CollOp := (s.collCtx d x).queue.find? (fun q => q.iss.num == num)

/-- Bytes of what an issue writes become undefined, where it writes them; they are noted while they cannot be written yet. -/
def State.spoilRange (s : State) (o : CollOp) (off n : Nat) : State :=
  let a := o.dst + BitVec.ofNat 64 off
  let r :=
    if n = 0 then (false, s)
    else if o.isWrite then
      match s.targetAgent o with
      | some g => if s.targetHeld g a n then s.scramble g a n else (false, s)
      | none => (false, s)
    else s.scramble o.iss.agent a n
  if r.1 then
    r.2.onColl o.iss.die o.ctx (fun k => { k with queue := k.queue.map (fun q =>
      if q.iss.num = o.iss.num then { q with due := q.due ++ [(off, n)] } else q) })
  else r.2

/-- What a failed issue would have written is undefined (R395): nothing where the root of a BROADCAST keeps its source. -/
def State.spoil (s : State) (o : CollOp) : State :=
  let m := (s.membersOf o.iss.part o.group).length
  if o.opCode = 3 && o.dst = o.src && s.rankOf o == some o.root || 7 ≤ o.opCode then s
  else s.spoilRange o 0 (o.dstCount m * o.size)

/-- Bytes of an issue are on their way to another package. -/
def State.hasFlights (s : State) (o : CollOp) : Bool :=
  s.flights.any (fun f => f.die == o.iss.die && f.ctx == o.ctx && f.num == o.iss.num)
def State.dropFlights (s : State) (o : CollOp) : State :=
  { s with flights := s.flights.filter (fun f => !(f.die == o.iss.die && f.ctx == o.ctx && f.num == o.iss.num)) }

/-- The fate of an issue is fixed: its completion is to come. -/
def State.endColl (s : State) (o : CollOp) : State := s.setCollOp { o with moved := true }

/-- A member's failure is made known to its partners (R387, R396), whose partitions keep it. -/
def State.noteFail (s : State) (o : CollOp) (code : Nat) : State :=
  match s.rankOf o with
  | none => s
  | some r =>
    if o.isWrite then s
    else
      let homes := ((s.membersOf o.iss.part o.group).filterMap (fun w => (s.home w).map (·.1))).eraseDups
      { s with parts := s.parts.map (fun p => if homes.contains p.num then
          { p with collFails := p.collFails ++ [(o.group, o.ordinal, r, code)] } else p) }

/-- An issue completes with a fault; what it would have written is undefined (R395). -/
def State.failColl (s : State) (o : CollOp) (cause : BitVec 8) (detail : W32) (faddr : W64) : State :=
  ((s.dropFlights o).endColl { o with fault := some (cause, detail, faddr), out := none, todo := [], due := [] }).spoil o

/-- Faults fix the fate of every issue of an operation: those that failed with their own, the others with code 0x10
and the lowest rank that failed (R395). An uncorrectable error in the source of one member is its own fault, ECC, and 0x10 for the
others, whose data comes from it (log 112, DESIGN CHOICE). -/
def State.failAll (s : State) (is : List CollOp) (bad : List (CollOp × BitVec 8 × W32 × W64)) : State :=
  let low := (bad.filterMap (fun b => s.rankOf b.1)).foldl Nat.min 1024
  is.foldl (fun a p =>
    match bad.find? (fun b => b.1.iss.die == p.iss.die && b.1.iss.core == p.iss.core) with
    | some (_, c, d, addr) => a.failColl p c d addr
    | none => a.failColl p acProtection (BitVec.ofNat 32 (0x10 + low * 2 ^ 16)) 0) s

/-- Elements of what member r receives become undefined: in what it is still to write, and where it has written it. -/
def State.spoilElems (s : State) (r : CollOp) (es : List Nat) : State :=
  if es.isEmpty then s
  else
    let put := fun (t : State) => (es.filter (fun i => !r.todo.contains ((r.dst.toNat % 8 + r.size * i) / 8))).foldl
      (fun a i => a.spoilRange r (r.size * i) r.size) t
    match r.out with
    | some v =>
      let p := s.freeElems r.size v es
      put (p.2.setCollOp { r with out := some p.1 })
    | none => if r.moved && r.fault.isNone then put s else s

/-- Sources that their cores have written since the issue (R393): the elements that take them are undefined, from the time that the
inputs have been combined. What has been looked at is not looked at again. -/
def State.noteSources (s : State) (is : List CollOp) (m : Nat) : State :=
  let own := is.map (·.iss.oid)
  is.foldl (fun (a : State) q =>
    let ch := a.written q own
    let rank := (a.rankOf q).getD 0
    let b := if ch.isEmpty then a else is.foldl (fun (b : State) r =>
      match b.collOp? r.iss.die r.ctx r.iss.num with
      | some r' =>
        let rr := (b.rankOf r').getD 0
        b.spoilElems r' ((List.range (r'.dstCount m)).filter (fun i => ch.any (fun j => q.takes rr i rank j)))
      | none => b) a
    match b.collOp? q.iss.die q.ctx q.iss.num with
    | some q' => b.setCollOp { q' with mark := (b.touched.getD []).length }
    | none => b) s

/-- While a collective stands, here or in a record of a die that was evicted, writes are noted. -/
def State.collOpen (s : State) : State :=
  let stands := fun (d : Die) => d.coll.toList.any (fun k => !k.queue.isEmpty)
  if s.dies.any stands || s.archive.any (fun v => stands v.die) then { s with touched := some (s.touched.getD []) }
  else { s with touched := none }

/-! ### COLL (R399, R400) -/

def CollCtx.occupancy (k : CollCtx) : Nat := k.queue.length + k.tl.held.length

/-- COLL. -/
def execColl (d : BitVec 4) (h : BitVec 3) (c : BitVec 4) (s : State) : Out :=
  s.onCompute 4 (fun s =>
    let die := s.pre.die
    let core := s.pre.core
    let o := (s.ra d.toNat).toNat
    let x := c.toNat
    let k := s.collCtx die x
    if o % 64 ≠ 0 then s.trapSyl .trap 4 tcAlign 0 (BitVec.ofNat 64 o)
    else if Config.abSize < o + 64 then s.trapSyl .trap 4 tcBufferRange 0 (BitVec.ofNat 64 o)
    else if 16 ≤ k.occupancy then s.trapSyl .trap 4 tcQueueFull 0 0
    else if s.eccRead (bufKey die core 1 o) 64 then s.trapSyl .trap 4 tcEcc 0 (BitVec.ofNat 64 o)
    else
      let desc : BitVec 512 := s.load0 (bufKey die core 1 o) 64 512
      let s := s.noteRead (bufKey die core 1 o) 64
      let num := k.tl.next
      let i := s.issueInfo num 4 (elem 64 desc 0) (elem 64 desc 1) (elem 64 desc 2) (elem 64 desc 3)
      let q0 : CollOp := { iss := i, desc := desc, ctx := x, ordinal := 0, started := false, fault := none, out := none
                           moved := false, absent := false, rows := none, flags := 0, mark := (s.touched.getD []).length
                           prior := s.needed i.after, todo := [], due := [] }
      let n := ((s.getCore die core).collCount.find? (fun p => p.1 == q0.group)).elim 0 (·.2)
      let q := { q0 with ordinal := n }
      let s1 := { s with nextId := s.nextId + 1 }.onColl die x (fun k => { k with tl := k.tl.issue, queue := k.queue ++ [q] })
      let s2 := if q.isWrite then s1.collOpen else s1.collOpen.onCore die core (fun k => { k with
        collCount := upsert (fun p => p.1 == q.group) (q.group, n + 1) k.collCount })
      (if q.rounds then s2.takeCount else s2).wh h.toNat (mkHandle 4 x s.pre.turn num))

/-! ### The events of a context -/

/-- The reason of R387 for which an issue fails on its own. -/
def State.collReason (s : State) (o : CollOp) : Option Nat :=
  let ws := s.membersOf o.iss.part o.group
  if o.code1 then some 1
  else if o.code2 then some 2
  else if ws.isEmpty || (s.rankOf o).isNone || ((o.opCode = 3 || o.isWrite) && ws.length ≤ o.root) then some 3
  else if o.code4 then some 4
  else none

/-- A member on another package cannot be reached: its chip index has no route (R403, R395). -/
def State.unrouted (s : State) (o : CollOp) : Bool :=
  let far := fun (w : MemberWord) => !s.isHere w &&
    (s.routePort o.iss.part o.iss.die (memberChip w) (memberDie w)).isNone
  if o.isWrite then (match s.targetOf o with | some w => far w | none => false)
  else (s.membersOf o.iss.part o.group).any far

/-- An issue of a context can start: its turn has come, or that of another issue of its operation (R381). -/
def CollCtx.canStart (k : CollCtx) (o : CollOp) : Bool :=
  !o.started && (decide (o.iss.num ≤ seqNext k.tl.c) ||
    k.queue.any (fun p => p.matches o && (p.started || decide (p.iss.num ≤ seqNext k.tl.c))))

/-- COLL_START: the next issue of a context starts (R381), with every other issue of its operation in the context, once
what happens before it has been applied (R152). Its descriptor is checked (R387). -/
def execCollStart (die : Nat) (ctx : Nat) (s : State) : Out :=
  let k := s.collCtx die ctx
  .next ((k.queue.filter k.canStart).foldl (fun a o =>
    if a.heldBack o.iss then a
    else
      let o1 := { o with started := true }
      let b := (a.see die o.iss.after).setCollOp o1
      match b.collReason o with
      | some code => (b.noteFail o 0x10).failColl o1 acProtection (BitVec.ofNat 32 code) 0
      | none => if b.unrouted o then (b.noteFail o 0x10).failColl o1 acProtection 0x12 0 else b) s)

/-- The first failure of a member that an issue's operation knows of: code and, for 0x10, the lowest rank (R395). -/
def State.partnerFail (s : State) (o : CollOp) : Option (Nat × Nat) :=
  match s.getPart? o.iss.part with
  | none => none
  | some p =>
    let fs := p.collFails.filter (fun f => f.1 == o.group && f.2.1 == o.ordinal)
    let hard := fs.filter (fun f => f.2.2.2 == 0x10)
    match hard with
    | f :: r => some (0x10, r.foldl (fun m g => Nat.min m g.2.2.1) f.2.2.1)
    | [] => if fs.isEmpty then none else some (0x11, 0)

/-- Every member on this package has started its issue, on a die that runs (R397): the issues by rank, `none` for a member
elsewhere. -/
def State.gathered (s : State) (o : CollOp) : Option (List (Option CollOp)) :=
  let ws := s.membersOf o.iss.part o.group
  let ready := ws.all (fun w => !s.isHere w || (match s.issueOf o w with
    | some q => q.started && !q.moved && q.out.isNone && !(s.getDie q.iss.die).stopped
    | none => false))
  if ready then some (ws.map (s.issueOf o)) else none

/-- Two issues of an operation agree (code 5 of R387), in their descriptors and in their entries. -/
def State.agree (s : State) (a b : CollOp) : Bool :=
  a.opCode == b.opCode && a.red == b.red && a.type == b.type && a.count == b.count && a.depth == b.depth &&
  a.root == b.root && s.membersOf a.iss.part a.group == s.membersOf b.iss.part b.group

/-- The data of an issue for a member on another package: n bytes of v, in pieces of 224 bytes. -/
def CollOp.flightsTo (o : CollOp) (w : MemberWord) (v n : Nat) : List Flight :=
  (List.range ((n + 223) / 224)).map (fun k =>
    { part := o.iss.part, die := o.iss.die, ctx := o.ctx, num := o.iss.num, group := o.group, chip := memberChip w
      mdie := memberDie w, off := 224 * k, n := Nat.min 224 (n - 224 * k)
      data := BitVec.ofNat 1792 (v / 2 ^ (8 * 224 * k) % 2 ^ (8 * Nat.min 224 (n - 224 * k))), port := none })

/-- Bytes that one member sends another: C elements of each row. -/
def CollOp.portion (o : CollOp) : Nat := o.count * o.size * o.rowCount
/-- The member of a rank sends data to the others. -/
def CollOp.sends (o : CollOp) (rank : Nat) : Bool := decide (o.count ≠ 0) && o.opCode ≠ 5 && (o.opCode ≠ 3 || rank = o.root)
/-- The block of C elements that rank r takes of a row: its own in a REDSCAT and an ALLTOALL, else the only one. -/
def CollOp.blockOf (o : CollOp) (r : Nat) : Nat := if o.opCode = 1 || o.opCode = 4 then r else 0

/-- What an issue sends to the members on other packages: of each row of its source, the part that each takes (log 17, DESIGN
CHOICE). -/
def State.sendAway (s : State) (o : CollOp) (rows : List Nat) (ws : List MemberWord) : State :=
  if rows.isEmpty then s
  else
    let w := o.count * o.size
    { s with flights := s.flights ++ ws.zipIdx.flatMap (fun p =>
        if s.isHere p.1 then []
        else o.flightsTo p.1 (rows.zipIdx.foldl (fun v q => v + rowElem w q.1 (o.blockOf p.2) * 2 ^ (8 * w * q.2)) 0) o.portion) }

/-- Read the sources of the issues here and send them on: the issues that cannot be read with their faults, and whether a page
must be waited for. -/
def State.readSources (s : State) (o : CollOp) (ws : List MemberWord) :
    List CollOp → List (CollOp × BitVec 8 × W32 × W64) × Bool × State
  | [] => ([], false, s)
  | p :: r =>
    if p.rows.isSome then s.readSources o ws r
    else if !s.readsSource p then (s.setCollOp { p with rows := some [] }).readSources o ws r
    else
      match s.readRows p.iss.agent p (o.srcCount ws.length) p.rowCount with
      | (.done rows, s1) => ((s1.setCollOp { p with rows := some rows }).sendAway p rows ws).readSources o ws r
      | (.wait, s1) =>
        let t := s1.readSources o ws r
        (t.1, true, t.2.2)
      | (.fail c a, s1) =>
        let t := s1.readSources o ws r
        ((p, c, 0, a) :: t.1, t.2)

/-- n bytes of one member's data for a group, out of what has come: pieces in the order of their offsets, each one of the first
`k` that may be next. Which member a piece came from, its flit does not say: where several send to one die, it is free (log 17,
DESIGN CHOICE). -/
def takeStream (group n k : Nat) : Nat → Nat → Nat → Nat → List Arrived → Option (Nat × List Arrived) × Nat
  | 0, _, _, free, _ => (none, free)
  | fuel + 1, got, v, free, l =>
    if n ≤ got then (some (v, l), free)
    else
      let ps := (l.zipIdx.filter (fun x => x.1.group == group && x.1.off == got && decide (0 < x.1.n))).take k
      match ps with
      | [] => (none, free)
      | first :: _ =>
        let x := if ps.length = 1 then first else ps[Config.freeTime free % ps.length]?.getD first
        takeStream group n k fuel (got + x.1.n) (v + x.1.data.toNat % 2 ^ (8 * x.1.n) * 2 ^ (8 * got))
          (if ps.length = 1 then free else free + 1) (l.eraseIdx x.2)

/-- The data that the members on other packages have sent to those here: for each pair of a sending rank and a rank here, its
bytes; none while some of it has still to come. -/
def State.hearFar (s : State) (o : CollOp) (is : List (Option CollOp)) : Option (List (Nat × Nat × Nat)) × State :=
  let far := (is.zipIdx.filter (fun x => x.1.isNone && o.sends x.2)).map (·.2)
  let pairs := is.zipIdx.flatMap (fun x => match x.1 with
    | some p => far.map (fun q => (q, x.2, p))
    | none => [])
  pairs.foldl (fun (a : Option (List (Nat × Nat × Nat)) × State) x =>
    match a.1 with
    | none => a
    | some l =>
      let p := x.2.2
      let k := (pairs.filter (fun y => y.2.2.iss.die == p.iss.die && y.2.2.ctx == p.ctx)).length
      let got := (a.2.collCtx p.iss.die p.ctx).arrived
      match takeStream p.group p.portion k (got.length + 1) 0 0 a.2.free got with
      | (none, _) => (none, a.2)
      | (some (v, rest), free) =>
        (some (l ++ [(x.1, x.2.1, v)]),
          { a.2 with free := free }.onColl p.iss.die p.ctx (fun c => { c with arrived := rest }))) (some [], s)

/-- The rows of a member on another package, as far as they are known here: what it sends to other packages is free. -/
def State.farRows (s : State) (o : CollOp) (m : Nat) (heard : List (Nat × Nat × Nat)) (q : Nat) : List Nat × State :=
  let n := o.srcCount m
  let w := o.count * o.size
  let mine := heard.filter (fun h => h.1 == q)
  let row := fun (k : Nat) =>
    if o.opCode = 1 || o.opCode = 4 then
      mine.foldl (fun v h => putRowElem w v h.2.1 (rowElem w h.2.2 k)) (Config.freeBits (8 * n * o.size) (s.free + k)).toNat
    else rowElem w ((mine.head?.map (·.2.2)).getD 0) k
  if !o.sends q then ([], s) else ((List.range o.rowCount).map row, { s with free := s.free + o.rowCount })

/-- The rows of every member, by rank. -/
def State.allRows (s : State) (o : CollOp) (is : List (Option CollOp)) (heard : List (Nat × Nat × Nat)) : List (List Nat) × State :=
  is.zipIdx.foldl (fun (a : List (List Nat) × State) x => match x.1 with
    | some p => (a.1 ++ [p.rows.getD []], a.2)
    | none =>
      let r := a.2.farRows o is.length heard x.2
      (a.1 ++ [r.1], r.2)) ([], s)

/-- The mode of R389: that of rank 0, a free one when it is on another package. -/
def State.collMode (s : State) (is : List (Option CollOp)) : Nat × State :=
  match is with
  | some p :: _ => (let m := p.iss.rndCtx.mode; if m = 5 then 0 else m, s)
  | _ => s.freeUpTo 4

/-- What the members of an operation on other packages do, freely (log 17, DESIGN CHOICE): 0 they issue and agree; otherwise the code, cause
and detail with which every issue here completes, or none when one of them never issues. -/
def State.farOutcome (s : State) (is : List (Option CollOp)) : Option (Option (BitVec 8 × W32)) × State :=
  if !is.any Option.isNone then (none, s)
  else
    let k := s.freeUpTo 6
    let ranks := (is.zipIdx.filter (fun p => p.1.isNone)).map (·.2)
    let r := k.2.freeUpTo (ranks.length - 1)
    match k.1 with
    | 0 => (none, k.2)
    | 1 => (some (some (acProtection, BitVec.ofNat 32 (0x10 + (ranks[r.1]?.getD 0) * 2 ^ 16))), r.2)
    | 2 => (some (some (acProtection, 0x11)), k.2)
    | 3 => (some (some (acProtection, 0x12)), k.2)
    | 4 => (some (some (acProtection, 5)), k.2)
    | 5 => (some (some (acEcc, 0)), k.2)
    | _ => (some none, k.2)

/-- The inputs of every member are combined (R388-R391, R394): each issue here learns what it is to write, the flags of the
whole operation, and what its completion hands on (R393). -/
def State.combine (s : State) (o : CollOp) (is : List (Option CollOp)) (rows : List (List Nat)) : State :=
  let ws := s.membersOf o.iss.part o.group
  let m := ws.length
  let here := is.filterMap id
  let md := s.collMode is
  let after := (here.flatMap (fun p => p.iss.oid :: p.iss.after)).eraseDups
  let outs := (List.range m).map (fun r => if o.count = 0 then (0, 0) else o.result md.1 m rows r)
  let flags := outs.foldl (fun f p => f ||| p.2) (0 : Flags)
  let s1 := is.zipIdx.foldl (fun (a : State) x => match x.1 with
    | none => a
    | some p =>
      let es := here.flatMap (fun q => if a.readsSource q then p.overlaps q m else [])
      let v := a.freeElems p.size (outs[x.2]?.getD (0, 0)).1 es
      v.2.setCollOp { p with
        out := some v.1, flags := flags, iss := { p.iss with after := after }
        todo := List.range (granCount p.dst (p.dstCount m * p.size)) }) md.2
  s1.noteSources (here.filterMap (fun p => s1.collOp? p.iss.die p.ctx p.iss.num)) m

/-- Whether what an issue has still to write can be written, n bytes from its DST. A WRITE takes check 5 of R390 at its target. -/
def State.mayPut (s : State) (g : Agent) (o : CollOp) (n : Nat) : List Nat → Access Unit × State
  | [] => (.done (), s)
  | k :: r =>
    let p := granPiece o.dst n k
    let a := o.dst + BitVec.ofNat 64 p.1
    if o.isWrite && !s.targetHeld g a p.2 then (.fail acPeerAbsent a, s)
    else
      match s.mayWrite g a p.2 with
      | (.done _, s1) => s1.mayPut g o n r
      | (.wait, s1) => (.wait, s1)
      | (.fail c b, s1) => (.fail c b, s1)

/-- Granules are written, each in an event of its own (R150, R393): those that stay, and the state. -/
def State.putGranules (s : State) (g : Agent) (o : CollOp) (n v : Nat) (l : List Nat) : List Nat × State :=
  l.foldl (fun (a : List Nat × State) k =>
    let p := granPiece o.dst n k
    match a.2.writeMem g (o.dst + BitVec.ofNat 64 p.1) p.2 (v / 2 ^ (8 * p.1) % 2 ^ (8 * p.2)) with
    | (.done _, t) => (a.1, t)
    | (_, t) => (a.1 ++ [k], t)) ([], s)

/-- The granules of l that are written now: any of them, one at least. -/
def someOf (free : Nat) (l : List Nat) : List Nat :=
  if l.length ≤ 1 then l
  else
    let one := Config.freeTime free % l.length
    (l.zipIdx.filter (fun p => p.2 == one || (Config.freeBits l.length free).getLsbD p.2)).map (·.1)

/-- Some granules of what an issue writes, n bytes v (R398): an element, once written, is final. What is left to write, or why
nothing more can be written. -/
def State.putSome (s : State) (g : Agent) (o : CollOp) (n v : Nat) : Access (List Nat) × State :=
  match s.mayPut g o n o.todo with
  | (.done _, s1) =>
    let now := someOf s1.free o.todo
    let r := { s1 with free := s1.free + 1 }.putGranules g o n v now
    (.done (o.todo.filter (fun k => !now.contains k || r.1.contains k)), r.2)
  | (.wait, s1) => (.wait, s1)
  | (.fail c a, s1) => (.fail c a, s1)

/-- An issue writes of its destination (R388, R393); a failure fails the operation (R395). -/
def State.putColl (s : State) (o : CollOp) : State :=
  let m := (s.membersOf o.iss.part o.group).length
  let keep := o.opCode = 3 && s.rankOf o == some o.root && o.dst = o.src
  let n := o.dstCount m * o.size
  if o.count = 0 || n = 0 || keep then s.endColl { o with out := none, todo := [] }
  else
    let s1 := s.noteSources (s.issuesOf o) m
    match s1.collOp? o.iss.die o.ctx o.iss.num with
    | none => s1
    | some o1 =>
      match s1.putSome o1.iss.agent o1 n (o1.out.getD 0) with
      | (.wait, s2) => s2
      | (.fail c a, s2) => s2.failAll (s2.issuesOf o) [(o, c, 0, a)]
      | (.done [], s2) => s2.endColl { o1 with out := none, todo := [] }
      | (.done l, s2) => s2.setCollOp { o1 with todo := l }

/-- A WRITE ends at its target (R390): a failure gives the offset that failed; the count of all the bytes stands for the signal
word (log 112, DESIGN CHOICE). -/
def State.failWrite (s : State) (o : CollOp) (c : BitVec 8) (off : Nat) : State :=
  s.failColl o c 0 (BitVec.ofNat 64 off)

/-- Every byte of a WRITE has been applied at a member on this package: the atomic add of 1 at its SIGNAL, which releases to the
target's die (R390). -/
def State.signalWrite (s : State) (o : CollOp) (g : Agent) (w : MemberWord) : State :=
  let n := o.count * o.size
  if o.signal = 0 then s.endColl { o with out := none, todo := [] }
  else if !s.targetHeld g o.signal 8 then s.failWrite o acPeerAbsent n
  else
    let item : MsgItem := { part := g.part, mask := 1#16 <<< memberDie w, ids := s.liveIds (o.iss.oid :: o.iss.after) }
    match s.atomicMem g o.signal 8 [item] (fun old => some ((old + 1) % 2 ^ 64)) with
    | (.fail c _, s1) => s1.failWrite o c n
    | (.wait, s1) => s1
    | (.done _, s1) => s1.endColl { o with out := none, todo := [] }

/-- The bytes of a WRITE that are left go to a member on this package (R390); its signal word follows the last of them. -/
def State.landWrite (s : State) (o : CollOp) (g : Agent) (w : MemberWord) : State :=
  let s1 := s.noteSources [o] 1
  match s1.collOp? o.iss.die o.ctx o.iss.num with
  | none => s1
  | some o1 =>
    match s1.putSome g o1 (o.count * o.size) (o1.out.getD 0) with
    | (.wait, s2) => s2
    | (.fail c a, s2) => s2.failWrite o c (a - o.dst).toNat
    | (.done [], s2) => (s2.setCollOp { o1 with todo := [] }).signalWrite { o1 with todo := [] } g w
    | (.done l, s2) => s2.setCollOp { o1 with todo := l }

/-- The outcome of a WRITE to a member on another package, all of whose bytes are acknowledged: free among those of R390 and
R395 (log 17, DESIGN CHOICE). -/
def State.farWritten (s : State) (o : CollOp) : State :=
  let k := s.freeUpTo 5
  let off := k.2.freeUpTo (o.count * o.size - 1)
  match k.1 with
  | 0 => k.2.endColl { o with out := none }
  | 1 => off.2.failWrite o acTranslation off.1
  | 2 => off.2.failWrite o acProtection off.1
  | 3 => off.2.failWrite o acPeerAbsent off.1
  | 4 => k.2.failColl o acProtection 0x12 0
  | _ => off.2.failWrite o acHostAbort off.1

/-- The data of a WRITE (R390): it reads its source; for a target on another package the bytes leave under the send window, for
one on this package they are applied, granule by granule. -/
def State.collWrite (s : State) (o : CollOp) : State :=
  let n := o.count * o.size
  match s.targetOf o with
  | none => s
  | some w =>
    if o.count = 0 then s.endColl o
    else
      match s.targetAgent o, o.out with
      | none, some _ => s.farWritten o
      | some g, some _ => s.landWrite o g w
      | far, none =>
        match s.readMem o.iss.agent o.src n with
        | (.wait, s1) => s1
        | (.fail c a, s1) => s1.failColl o c 0 a
        | (.done v, s1) =>
          let ch := s1.written o [o.iss.oid]
          match far with
          | none =>
            let p := s1.freeElems o.size v ch
            { p.2.setCollOp { o with out := some p.1, mark := (s1.touched.getD []).length } with
              flights := p.2.flights ++ o.flightsTo w p.1 n }
          | some g =>
            let p := s1.freeElems o.size v (ch ++ (if g.part = o.iss.part then o.overlaps o 1 else []))
            let o1 := { o with out := some p.1, mark := (s1.touched.getD []).length, todo := List.range (granCount o.dst n) }
            (p.2.setCollOp o1).landWrite o1 g w

/-- The bytes that the issues of an operation send to members on other dies are charged to activity 1 (R469); whether the
period still holds them. -/
def State.collCharge (s : State) (is : List CollOp) : Bool × State :=
  is.foldl (fun (a : Bool × State) p =>
    let ws := if p.isWrite then (s.targetOf p).toList else s.membersOf p.iss.part p.group
    let far := (ws.filter (fun w => (s.home w).map (fun h => (h.1, h.2.1)) != some (p.iss.part, p.iss.die))).length
    if far = 0 || !s.readsSource p then a
    else
      let b := a.2.charge p.iss.part 1 (far * p.count * p.size)
      (a.1 && b.1, b.2)) (true, s)

/-- The inputs of an operation whose members here have all started: their sources are read and sent, what the members on other
packages do shows, and once their data has come all is combined (R388-R391, R398). -/
def State.gather (s : State) (o : CollOp) (is : List (Option CollOp)) (held : State) : State :=
  let here := is.filterMap id
  let ws := s.membersOf o.iss.part o.group
  let fail := fun (t : State) (c : BitVec 8) (d : W32) => here.foldl (fun a p => a.failColl p c d 0) t
  let idle := o.count = 0 || o.opCode = 5
  if here.any (fun p => !s.agree p o) then fail s acProtection 5
  else
    let first := here.filter (fun p => p.rows.isNone)
    let rs := if idle then ([], false, s) else s.readSources o ws first
    let b := if rs.2.1 || !rs.1.isEmpty || idle then (true, rs.2.2) else rs.2.2.collCharge first
    if !b.1 then held
    else if rs.2.1 then b.2
    else if !rs.1.isEmpty then b.2.failAll here rs.1
    else
      match b.2.farOutcome is with
      | (some (some (c, d)), s1) => fail s1 c d
      | (some none, s1) => here.foldl (fun a p => match a.collOp? p.iss.die p.ctx p.iss.num with
          | some q => a.setCollOp { q with absent := true }
          | none => a) s1
      | (none, s1) =>
        let now := is.map (fun x => x.bind (fun p => s1.collOp? p.iss.die p.ctx p.iss.num))
        match s1.hearFar o now with
        | (none, _) => s1
        | (some heard, s2) =>
          let r := s2.allRows o now heard
          r.2.combine o now r.1

/-- COLL_SEGMENT: the inputs of an operation are combined in one segment that covers it whole, once every member has started
(R388-R391, R398), and each issue then writes its destination, granule by granule; or an issue learns of a partner's failure
(R395); or what could not be made undefined before is (log 60, DESIGN CHOICE). -/
def execCollSegment (die : Nat) (ctx : Nat) (num : Nat) (s : State) : Out :=
  match s.collOp? die ctx num with
  | none => .next s
  | some o =>
    let held := s.untilPeriod o.iss.part (.cycle die 0 (rankArrival (s.logDie o.iss.part die) 256 ctx)) (.collSegment die ctx num)
    if !o.due.isEmpty then
      .next (o.due.foldl (fun a r => a.spoilRange o r.1 r.2) (s.setCollOp { o with due := [] }))
    else if !o.started || o.moved then .next s
    else if o.isWrite then
      let b := s.collCharge [o]
      .next (if o.out.isSome then s.collWrite o else if b.1 then b.2.collWrite o else held)
    else
      match s.partnerFail o, o.out with
      | some (code, r), _ => .next (s.failColl o acProtection (BitVec.ofNat 32 (code + r * 2 ^ 16)) 0)
      | none, some _ => .next (s.putColl o)
      | none, none =>
        match s.gathered o with
        | none => .next s
        | some is => .next (s.gather o is held)

/-- COLL_COMPLETE: an issue completes at its member (R283, R393, R394), or its fault enters the record; what has come for its
operation is then no longer kept. -/
def execCollComplete (die : Nat) (ctx : Nat) (num : Nat) (s : State) : Out :=
  match s.collOp? die ctx num with
  | none => .next s
  | some o0 =>
    let m := (s.membersOf o0.iss.part o0.group).length
    let s0 := if o0.fault.isNone then s.noteSources (s.issuesOf o0) m else s
    let o := (s0.collOp? die ctx num).getD o0
    let s1 := (s0.onColl die ctx (fun k => { k with
      queue := k.queue.filter (fun q => q.iss.num != num)
      arrived := if o.fault.isSome then k.arrived.filter (fun x => x.group != o.group) else k.arrived })).collOpen.relDone
      (.coll die ctx) o.iss o.mask
    match o.fault with
    | some (c, d, a) => .next (s1.faultOp (.coll die ctx) { s1.mkFault o.iss 4 ctx c 0 a d with flags := o.flags })
    | none => .next ((s1.flagsTo o.iss.tid o.flags).completeOp (.coll die ctx) num)

/-- CANCEL of a collective (R396): one that has not started. -/
def State.cancelColl (s : State) (d x num : Nat) : State :=
  match s.collOp? d x num with
  | none => s
  | some o =>
    if o.started then s
    else
      let s1 := (s.onColl d x (fun k => { k with queue := k.queue.filter (fun q => q.iss.num != num) })).collOpen.noteFail o 0x11
      s1.faultOp (.coll d x) (s1.mkFault o.iss 4 x acCancelled 0 0 0)

/-- An issue can go on: a partner has failed, every member has started, or it is to write its destination; a WRITE waits for
its target's partition to run, and for its bytes to be acknowledged (R390, R397). -/
def State.collReady (s : State) (o : CollOp) : Bool :=
  if o.isWrite then
    !s.hasFlights o && (match (s.targetOf o).bind s.home with | some h => !(s.getDie h.2.1).stopped | none => true)
  else (s.partnerFail o).isSome || o.out.isSome || (!o.absent && (s.gathered o).isSome)

/-- An issue whose fate is fixed can complete: at once with a fault of its own, else when no issue of its operation can fault
any more (R393, R395). -/
def State.collOver (s : State) (o : CollOp) : Bool :=
  o.moved && o.due.isEmpty && (o.fault.isSome || (s.issuesOf o).all (fun q => q.moved && !s.hasFlights q))

/-- What the contexts of a die can do next. -/
def State.collHouse (s : State) (d : Nat) : State :=
  (List.range 16).foldl (fun a x =>
    let k := a.collCtx d x
    let a1 :=
      if k.queue.any k.canStart &&
          !a.pending (fun e => match e with | .collStart d' x' => d' == d && x' == x | _ => false) then
        let r := a.freeDelay
        r.2.schedIn d (r.1 + 1) rankEngine (.collStart d x)
      else a
    k.queue.foldl (fun b o =>
      if ((o.started && !o.moved && b.collReady o) || !o.due.isEmpty) &&
          !b.pending (fun e => match e with | .collSegment d' x' n => d' == d && x' == x && n == o.iss.num | _ => false) then
        let r := b.freeDelay
        r.2.schedIn d (r.1 + 1) (rankArrival (b.logDie o.iss.part d) 256 x) (.collSegment d x o.iss.num)
      else if b.collOver o &&
          !b.pending (fun e => match e with | .collComplete d' x' n => d' == d && x' == x && n == o.iss.num | _ => false) then
        let r := b.freeDelay
        r.2.schedIn d (r.1 + 1) rankEngine (.collComplete d x o.iss.num)
      else b) a1) s

end Sys2Proof.Machine
end

