-- ==== Sys2Proof/Machine/Flit.lean ====
section
/-! DEFINITION. The flits of a Dziaris link (R404): their header, check and parity, and a port's sending of one. -/

namespace Sys2Proof.Machine

/-- Fields of a header (R404): SEQ, ACK, chip, physical die, context and group. -/
def flitSeq (h : W64) : BitVec 12 := h.extractLsb' 48 12
def flitAck (h : W64) : BitVec 12 := h.extractLsb' 36 12
def flitChip (h : W64) : Nat := (h.extractLsb' 16 16).toNat
def flitDie (h : W64) : Nat := (h.extractLsb' 12 4).toNat

def flitCtx (h : W64) : Nat := (h.extractLsb' 8 4).toNat
def flitGroup (h : W64) : Nat := (h.extractLsb' 0 8).toNat

/-- The header of a flit of a kind, with the sequence and acknowledgement of its port, and what `low` says of its
destination. -/
def flitHeader (kind : Nat) (seq ack : BitVec 12) (low : Nat) : W64 :=
  BitVec.ofNat 64 (kind * 2 ^ 60 + seq.toNat * 2 ^ 48 + ack.toNat * 2 ^ 36 + low % 2 ^ 32)

/-- Bytes of a number, from the low end. -/
def octets (v : Nat) : Nat → List Nat
  | 0 => []
  | n + 1 => v % 256 :: octets (v / 256) n
/-- The number that bytes make, from the low end. -/
def ofBytes : List Nat → Nat
  | [] => 0
  | b :: r => b + 256 * ofBytes r

/-- One bit of a CRC-64 with the ECMA-182 polynomial (log 40, DESIGN CHOICE). -/
def crcBit (c : W64) : W64 := if c.getLsbD 63 then (c <<< 1) ^^^ 0x42F0E1EBA9EA3693#64 else c <<< 1
def crcByte (c : W64) (b : Nat) : W64 :=
  (List.range 8).foldl (fun a _ => crcBit a) (c ^^^ BitVec.ofNat 64 (b * 2 ^ 56))
/-- The CRC of bytes in order. -/
def crc64 (l : List Nat) : W64 := l.foldl crcByte 0

/-- Product in GF(2^8) with the field polynomial x^8 + x^4 + x^3 + x^2 + 1, over the bits of b from bit n − 1 down. -/
def gfMul (a b : Nat) : Nat → Nat
  | 0 => 0
  | n + 1 =>
    let d := 2 * gfMul a (b / 2) n
    let e := if 256 ≤ d then d ^^^ 0x11D else d
    if b % 2 = 1 then e ^^^ a else e
/-- α^i. -/
def gfAlpha : Nat → Nat
  | 0 => 1
  | n + 1 => gfMul (gfAlpha n) 2 8

/-- A monic polynomial, its lower coefficients from the high end, times x − r. -/
def gfTimesRoot (g : List Nat) (r : Nat) : List Nat :=
  let ones := 1 :: g
  ((g ++ [0]).zip ones).map (fun (p : Nat × Nat) => p.1 ^^^ gfMul p.2 r 8)
/-- The generator of the parity: roots α^0 to α^3. -/
def fecGenerator : List Nat := (List.range 4).foldl (fun g i => gfTimesRoot g (gfAlpha i)) []

/-- The parity register after one symbol. -/
def fecStep (reg : List Nat) (b : Nat) : List Nat :=
  let f := (reg.headD 0) ^^^ b
  ((reg.drop 1 ++ [0]).zip fecGenerator).map (fun (p : Nat × Nat) => p.1 ^^^ gfMul f p.2 8)
/-- The four parity symbols of 124 symbols, in order. -/
def fecParity (l : List Nat) : List Nat := l.foldl fecStep [0, 0, 0, 0]

/-- Symbols of one half of a flit: its even or its odd bytes. -/
def halfRoot (odd : Nat) (l : List Nat) : List Nat :=
  (List.range (l.length / 2)).map (fun i => l[2 * i + odd]?.getD 0)

/-- A whole flit of 256 bytes (R404): the CRC over bytes 0 to 239, the parity of its even bytes and of its odd bytes. -/
def makeFlit (hdr : W64) (payload : BitVec 1856) : BitVec 2048 :=
  let body := octets (hdr.toNat + 2 ^ 64 * payload.toNat) 240
  let msg := body ++ octets (crc64 body).toNat 8
  let even := fecParity (halfRoot 0 msg)
  let odd := fecParity (halfRoot 1 msg)
  BitVec.ofNat 2048 (ofBytes (msg ++ (List.range 8).map (fun i => (if i % 2 = 0 then even else odd)[i / 2]?.getD 0)))

/-! ### Correction and check of a received flit (R404, R405) -/

/-- a^n in GF(2^8), and the inverse of a nonzero element. -/
def gfPow (a : Nat) : Nat → Nat
  | 0 => 1
  | n + 1 => gfMul (gfPow a n) a 8
def gfInv (a : Nat) : Nat := gfPow a 254

/-- Syndrome j of a half, whose first symbol has the highest power: its value at α^j. -/
def syndrome (l : List Nat) (j : Nat) : Nat := l.foldl (fun v b => gfMul v (gfAlpha j) 8 ^^^ b) 0

/-- The locator α^(n − 1 − i) of symbol i of n. -/
def locatorOf (n i : Nat) : Nat := gfAlpha (n - 1 - i)

/-- A half of 128 symbols with up to two symbol errors corrected; a half with more stays as it came. -/
def correctHalf (l : List Nat) : List Nat :=
  let s := fun (j : Nat) => syndrome l j
  let m := fun (a b : Nat) => gfMul a b 8
  let locator := locatorOf l.length
  let fix := fun (w : List Nat) (i y : Nat) => w.set i (w[i]?.getD 0 ^^^ y)
  let s0 := s 0
  let s1 := s 1
  let s2 := s 2
  let s3 := s 3
  if s0 = 0 && s1 = 0 && s2 = 0 && s3 = 0 then l
  else
    let det := m s1 s1 ^^^ m s0 s2
    if det = 0 then
      -- one error of value S0 at the locator S1/S0
      match (List.range l.length).find? (fun i => s0 ≠ 0 && m (locator i) s0 == s1 && m (locator i) s1 == s2 && m (locator i) s2 == s3) with
      | some i => fix l i s0
      | none => l
    else
      let a := m (m s1 s2 ^^^ m s0 s3) (gfInv det)
      let b := m (m s2 s2 ^^^ m s1 s3) (gfInv det)
      match (List.range l.length).filter (fun i => (m (locator i) (locator i) ^^^ m a (locator i) ^^^ b) == 0) with
      | [i, j] =>
        let y := m (s1 ^^^ m s0 (locator i)) (gfInv (locator i ^^^ locator j))
        fix (fix l j y) i (s0 ^^^ y)
      | _ => l

/-- A received flit after its FEC. -/
def fecCorrect (flit : BitVec 2048) : BitVec 2048 :=
  let l := octets flit.toNat 256
  let even := correctHalf (halfRoot 0 l)
  let odd := correctHalf (halfRoot 1 l)
  BitVec.ofNat 2048 (ofBytes ((List.range 256).map (fun i => (if i % 2 = 0 then even else odd)[i / 2]?.getD 0)))

/-- The CRC of a flit fits its first 240 bytes. -/
def crcPasses (flit : BitVec 2048) : Bool := crc64 (octets flit.toNat 240) == flit.extractLsb' 1920 64

/-- The payload of a data flit: the offset word, with the byte count in its top byte, and the bytes. -/
def dataPayload (off n : Nat) (data : BitVec 1792) : BitVec 1856 :=
  data ++ BitVec.ofNat 64 (off % 2 ^ 56 + n * 2 ^ 56)

/-- The port's silence timer starts again: 10 µs (R405). -/
def State.armSilence (s : State) (port : Nat) : State :=
  (s.unsched (fun e => match e with | .linkSilenceTimeout p => p == port | _ => false)).schedWall (10000 * Config.ns)
    (.linkSilenceTimeout port)

/-- A port comes up: its silence timer runs from now on (R405). -/
def State.portUp (s : State) (port : Nat) : State :=
  (s.setPort { s.getPort port with up := true }).armSilence port

/-- A flit leaves a port: it takes the next sequence, and the port keeps its last 64 flits (R404, R405; log 81, DEDUCED). -/
def State.sendFlit (s : State) (port kind low : Nat) (payload : BitVec 1856) : State :=
  let p := s.getPort port
  let flit := makeFlit (flitHeader kind p.sendSeq (p.expect - 1) low) payload
  let kept := p.replay ++ [(p.sendSeq, flit, 0)]
  s.setPort { p with sendSeq := p.sendSeq + 1, replay := kept.drop (kept.length - 64) }

/-- A flit of another kind than data: what its payload holds, and what it names beyond its kind, the link control rules give,
which are no part of the manual. -/
def State.sendControl (s : State) (port kind : Nat) : State :=
  let u := Config.freeBits 1888 s.free
  { s with free := s.free + 1 }.sendFlit port kind (u.extractLsb' 0 32).toNat (u.extractLsb' 32 1856)

end Sys2Proof.Machine
end

