-- ==== Sys2Proof/Machine/Fabric.lean ====
section
/-! DEFINITION. Send windows and the Dziaris links (R401-R405): data sent and received, replays, and a link that goes
down. -/

namespace Sys2Proof.Machine

/-! ### Sending under the window (R401) -/

/-- Two flights belong to one pair of source die and destination. -/
def Flight.samePair (a b : Flight) : Bool := a.die == b.die && a.chip == b.chip && a.mdie == b.mdie

/-- Data bytes of a pair that are not acknowledged. -/
def State.unacked (s : State) (f : Flight) : Nat :=
  ((s.flights.filter (fun g => g.samePair f && g.port.isSome)).map (·.n)).foldl (· + ·) 0

/-- The window between a die and a package, in bytes. Between dies of one package the bytes that leave are applied in the same
event, so that none is unacknowledged (log 41, DEDUCED). -/
def State.windowOf (s : State) (part : Nat) : Nat :=
  match s.getPart? part with
  | some p => 4096 * p.window[1]
  | none => 0

/-- The physical die of a member on another package, which only that package knows: a fixed free number. -/
def farDie (f : Flight) : Nat := (Config.freeBits 4 (2 ^ 220 + f.chip * 16 + f.mdie)).toNat

/-- The issue that a flight belongs to. -/
def State.flightOp (s : State) (f : Flight) : Option CollOp := s.collOp? f.die f.ctx f.num

/-- Flights that cannot reach their destination: every issue that they belong to completes with this fault of its own, and every
other issue of its operation with that of R395. -/
def State.loseFlights (s : State) (lost : List Flight) (c : BitVec 8) (d : W32) : State :=
  let mine := fun (o : CollOp) (f : Flight) => f.die == o.iss.die && f.ctx == o.ctx && f.num == o.iss.num
  let s1 := { s with flights := s.flights.filter (fun g => !lost.any (fun f => g.die == f.die && g.ctx == f.ctx && g.num == f.num)) }
  (lost.filterMap s.flightOp).foldl (fun (a : State) o0 =>
    match a.collOp? o0.iss.die o0.ctx o0.iss.num with
    | none => a
    | some o =>
      if o.fault.isSome then a
      else if o.isWrite then a.failColl o c d 0
      else
        let is := a.issuesOf o
        a.failAll is ((is.filter (fun p => lost.any (mine p))).map (fun p => (p, c, d, 0)))) s1

/-- Send what the windows of a die let go, in order within each pair; a chip without a port left fails what needs it
(R403, R405). -/
def State.pumpDie (s : State) (d : Nat) : State :=
  let todo := s.flights.filter (fun f => f.die == d && f.port.isNone)
  (todo.foldl (fun (a : List Flight × State) f =>
    if a.1.any (fun g => g.samePair f) || !a.2.flights.contains f then a
    else
      match a.2.routePort f.part f.die f.chip f.mdie with
      | none =>
        (a.1, a.2.loseFlights (a.2.flights.filter (fun g => g.port.isNone &&
          (a.2.routePort g.part g.die g.chip g.mdie).isNone)) acProtection 0x12)
      | some port =>
        if a.2.windowOf f.part < a.2.unacked f + f.n then (f :: a.1, a.2)
        else
          let s1 := { a.2 with flights := updFirst (fun g => g == f) (fun (g : Flight) => { g with port := some port }) a.2.flights }
          (a.1, s1.sendFlit port 0 (f.chip * 2 ^ 16 + farDie f * 2 ^ 12 + f.ctx * 2 ^ 8 + f.group)
            (dataPayload f.off f.n f.data))) ([], s)).2

/-! ### Receiving (R402, R404, R405) -/

/-- Flits that the far end has received in order are no longer kept. -/
def DzPort.acknowledge (p : DzPort) (ack : BitVec 12) : DzPort :=
  { p with replay := p.replay.filter (fun e => !decide ((ack - e.1).toNat < 2048)) }

/-- One replay request carries the last good sequence (R405). -/
def State.askReplay (s : State) (port : Nat) : State :=
  let p := s.getPort port
  (s.setPort { p with discarding := true, asked := some (p.expect - 1) }).sendControl port 3

/-- A flit that passed its check: in sequence it is accepted, out of sequence discarded (R405). -/
def State.flitIn (s : State) (port : Nat) (hdr : W64) (accept : State → State) : State :=
  let p := s.getPort port
  if !p.up then s
  else
    let s1 := s.armSilence port
    if flitSeq hdr = p.expect then
      accept (s1.setPort { p.acknowledge (flitAck hdr) with expect := p.expect + 1, discarding := false })
    else if p.discarding then s1
    else s1.askReplay port

/-- The atomic add at the signal word of a WRITE that has ended here (R390), which may have to wait. -/
def State.signalFar (s : State) (p : Nat) (w : Incoming) : Bool × State :=
  match s.getPart? p with
  | none => (true, s)
  | some p =>
    let g : Agent := ⟨p.num, w.die, noCore, 0, true, 0⟩
    if w.failed || w.signal = 0 || w.signal.toNat % 8 ≠ 0 || addrForm w.signal = 3 || !s.targetHeld g w.signal 8 then (true, s)
    else
      match s.atomicMem g w.signal 8 [{ part := p.num, mask := 1#16 <<< p.dies.idxOf w.die, ids := s.liveIds p.farIds }]
          (fun old => some ((old + 1) % 2 ^ 64)) with
      | (.wait, s1) => (false, s1)
      | (_, s1) => (true, s1)

/-- The WRITEs under way of a partition are put back without one, or with what it has become. -/
def State.setIncoming (s : State) (p : Nat) (f : List Incoming → List Incoming) : State :=
  match s.getPart? p with
  | none => s
  | some p => s.setPart { p with incoming := f p.incoming }

/-- One flit of a WRITE from another package (R390): its bytes go to their offset from the address of the WRITE, checked and
applied as an access of the target's partition; which flit is the last, its sender says by other means, so that it is free.
It is not taken while a page or a stack must be waited for, which it asks for. -/
def State.farWrite (s : State) (p : Partition) (w : Incoming) (n : Nat) (data : BitVec 1792) : Bool × State :=
  let dst := w.dst + BitVec.ofNat 64 w.next
  let g : Agent := ⟨p.num, w.die, noCore, 0, true, s.nextId⟩
  let k := { s with nextId := s.nextId + 1 }.freeUpTo 1
  let r : Access Bool × State :=
    if w.failed || n = 0 then (.done w.failed, k.2)
    else if !k.2.targetHeld g dst n then (.done true, k.2)
    else match k.2.writeMem g dst n (data.toNat % 2 ^ (8 * n)) with
      | (.done _, t) => (.done false, t)
      | (.fail _ _, t) => (.done true, t)
      | (.wait, t) => (.wait, t)
  match r.1 with
  | .done bad =>
    let s1 := match r.2.getPart? p.num with
      | some q => r.2.setPart { q with farIds := r.2.liveIds (s.nextId :: q.farIds) }
      | none => r.2
    let w1 := { w with next := w.next + n, failed := bad, last := k.1 = 1 }
    if !w1.last then (true, s1.setIncoming p.num (fun l => l ++ [w1]))
    else
      let t := s1.signalFar p.num w1
      (true, if t.1 then t.2 else t.2.setIncoming p.num (fun l => l ++ [w1]))
  | _ => (false, r.2)

/-- The state that a die's data leaves when it is placed in the receiving context (R401). -/
def State.placeData (s : State) (hdr : W64) (off n : Nat) (data : BitVec 1792) : State :=
  s.onColl (flitDie hdr) (flitCtx hdr) (fun k => { k with
    arrived := k.arrived ++ [{ group := flitGroup hdr, off := off, n := n, data := data }] })

/-- Data reaches its die: it is placed in the receiving context, or applied at its home as a part of a WRITE, and acknowledged
(R401). Its flit says neither which of the two it is, nor where a WRITE that begins goes: both are free, and a WRITE that has
begun goes on at its own address (log 17, DESIGN CHOICE). A chip that names no partition here takes nothing. It is not taken
while a page or a stack must be waited for. -/
def State.deliver (s : State) (port : Nat) (hdr off : W64) (data : BitVec 1792) : Bool × State :=
  let n := Nat.min 224 (off.extractLsb' 56 8).toNat
  let at' := (off.extractLsb' 0 56).toNat
  let r : Bool × State := match s.parts.find? (fun p => p.chip == flitChip hdr && p.dies.contains (flitDie hdr)) with
    | none => (true, s)
    | some p =>
      let mine := p.incoming.zipIdx.filter (fun (x : Incoming × Nat) =>
        x.1.die == flitDie hdr && x.1.ctx == flitCtx hdr && x.1.group == flitGroup hdr && x.1.next == at' && !x.1.last)
      let u := Config.freeBits 192 s.free
      let new : Incoming := { die := flitDie hdr, ctx := flitCtx hdr, group := flitGroup hdr, dst := u.extractLsb' 0 64
                              signal := u.extractLsb' 64 64, next := 0, failed := false, last := false }
      let k := { s with free := s.free + 1 }.freeUpTo (mine.length + (if at' = 0 then 1 else 0))
      if k.1 = 0 then (true, k.2.placeData hdr at' n data)
      else match mine[k.1 - 1]? with
        | some x => (k.2.setIncoming p.num (fun l => l.eraseIdx x.2)).farWrite p x.1 n data
        | none => k.2.farWrite p new n data
  if r.1 then (true, r.2.sendControl port 1) else (false, { r.2 with parts := s.parts })

/-- The die that data is for stands still: its traffic waits (R397). -/
def State.farWaits (s : State) (hdr : W64) : Bool :=
  s.parts.any (fun p => p.chip == flitChip hdr && p.dies.contains (flitDie hdr)) && (s.getDie (flitDie hdr)).stopped

/-- What waited for a die is delivered once it can be, in the order of arrival (R397, R402). -/
def State.deliverRx (s : State) (port d : Nat) : State :=
  let p := s.getPort port
  let mine := fun (e : BitVec 64 × BitVec 64 × BitVec 1792) => flitDie e.1 == d && !s.farWaits e.1
  let l := p.rx.filter mine
  if l.isEmpty then s
  else
    let r := l.foldl (fun (a : List (BitVec 64 × BitVec 64 × BitVec 1792) × State) e =>
      if !a.1.isEmpty then (a.1 ++ [e], a.2)
      else match a.2.deliver port e.1 e.2.1 e.2.2 with
        | (true, t) => (a.1, t)
        | (false, t) => ([e], t)) ([], s)
    r.2.setPort { r.2.getPort port with rx := p.rx.filter (fun e => !mine e) ++ r.1 }

/-- The traffic of a die that waited: flits, and the signals of WRITEs that have ended. -/
def State.deliverLate (s : State) (d : Nat) : State :=
  let s1 := (List.range 16).foldl (fun (a : State) port => a.deliverRx port d) s
  s1.parts.foldl (fun (a : State) p =>
    (p.incoming.filter (fun w => w.last && w.die == d)).foldl (fun b w =>
      let r := b.signalFar p.num w
      if r.1 then r.2.setIncoming p.num (fun l => l.erase w) else r.2) a) s1

/-- FLIT_DATA: a data flit in sequence goes to its die, or waits for it (R397, R402). -/
def execFlitData (port : Nat) (hdr : BitVec 64) (off : BitVec 64) (data : BitVec 1792) (s : State) : Out :=
  .next (s.flitIn port hdr (fun t =>
    let p := t.getPort port
    let queue := fun (u : State) => u.setPort { u.getPort port with rx := (u.getPort port).rx ++ [(hdr, off, data)] }
    if t.farWaits hdr || p.rx.any (fun e => flitDie e.1 == flitDie hdr) then queue t
    else
      let r := t.deliver port hdr off data
      if r.1 then r.2 else queue r.2))

/-- FLIT_WINDOW_ACK: bytes sent over the port are acknowledged (R401), the oldest of each pair first. How many, its payload
says, which R404 leaves open. -/
def execFlitWindowAck (port : Nat) (hdr : BitVec 64) (s : State) : Out :=
  .next (s.flitIn port hdr (fun t =>
    let out := t.flights.filter (fun f => f.port == some port)
    let pairs := out.foldl (fun (l : List Flight) f => if l.any (fun g => g.samePair f) then l else l ++ [f]) []
    pairs.foldl (fun (a : State) f =>
      let mine := a.flights.filter (fun g => g.samePair f && g.port.isSome)
      let k := a.freeUpTo mine.length
      let gone := mine.take k.1
      { k.2 with flights := k.2.flights.filter (fun g => !gone.contains g) }) t))

/-- FLIT_IDLE. -/
def execFlitIdle (port : Nat) (hdr : BitVec 64) (s : State) : Out := .next (s.flitIn port hdr id)
/-- FLIT_LINK_CONTROL. -/
def execFlitLinkControl (port : Nat) (hdr : BitVec 64) (s : State) : Out := .next (s.flitIn port hdr id)

/-- FLIT_RESERVED_KIND: discarded and counted as an error (R404). -/
def execFlitReservedKind (port : Nat) (hdr : BitVec 64) (s : State) : Out :=
  .next (s.flitIn port hdr (fun t =>
    let p := t.getPort port
    t.setPort { p with errors := p.errors + 1 }))

/-- FLIT_FAILS_CHECK: the flit and those after it are discarded, and one replay request goes out (R405). -/
def execFlitFailsCheck (port : Nat) (s : State) : Out :=
  let p := s.getPort port
  .next (if !p.up then s
    else
      let s1 := (s.armSilence port).setPort { p with errors := p.errors + 1 }
      if p.discarding then s1 else s1.askReplay port)

/-- FLIT_REPLAY_REQUEST: the flits kept after the sequence that the request carries are sent again (R405). -/
def execFlitReplayRequest (port : Nat) (hdr : BitVec 64) (s : State) : Out :=
  .next (s.flitIn port hdr (fun t =>
    let p := t.getPort port
    let again := p.replay.map (fun e => (e.1, e.2.1, e.2.2 + 1))
    let t1 := t.setPort { p with replay := again }
    if again.any (fun e => decide (16 ≤ e.2.2)) then t1.schedWall 0 (.linkReplayLimit port) else t1))

/-- A link is declared down (R405): every operation with bytes outstanding on it completes with ECC, and the front end
reports it. -/
def State.linkDown (s : State) (port : Nat) : State :=
  let p := s.getPort port
  if !p.up then s
  else
    let s1 := (s.setPort { p with up := false, replay := [], discarding := false }).unsched
      (fun e => match e with | .linkSilenceTimeout q => q == port | .linkReplayLimit q => q == port | _ => false)
    let s2 := { s1 with reports := s1.reports ++ [(1, port)] }
    s2.loseFlights (s2.flights.filter (fun f => f.port == some port)) acEcc 0

/-- FLIT_RECEIVED: 256 bytes arrive at a port (R404, R405). Their FEC corrects up to two symbols in each half, which counts as a
corrected error of the I/O die's links (R486); what then fails its CRC fails the check, and the rest is taken by its kind. -/
def execFlitReceived (port : Nat) (flit : BitVec 2048) (s : State) : Out :=
  let good := fecCorrect flit
  let s1 := if good = flit then s
            else s.onDie (16 + port / 8) (fun k => { k with corrected := k.corrected.setIfInBounds 2 (k.corrected[2] + 1) })
  if !(s.getPort port).up then .next s
  else if !crcPasses good then execFlitFailsCheck port s1
  else
    let hdr := good.extractLsb' 0 64
    match (hdr.extractLsb' 60 4).toNat with
    | 0 => execFlitData port hdr (good.extractLsb' 64 64) (good.extractLsb' 128 1792) s1
    | 1 => execFlitWindowAck port hdr s1
    | 2 => execFlitIdle port hdr s1
    | 3 => execFlitReplayRequest port hdr s1
    | 4 => execFlitLinkControl port hdr s1
    | _ => execFlitReservedKind port hdr s1

/-- LINK_SILENCE_TIMEOUT: no flit for 10 µs. -/
def execLinkSilenceTimeout (port : Nat) (s : State) : Out := .next (s.linkDown port)
/-- LINK_REPLAY_LIMIT: a flit replayed 16 times. -/
def execLinkReplayLimit (port : Nat) (s : State) : Out := .next (s.linkDown port)

end Sys2Proof.Machine
end

