-- ==== Sys2Proof/Machine/Stack.lean ====
section
/-! DEFINITION. The stack engine (R406-R425): handovers, translation invalidation, and pages that move between host and
device. -/

namespace Sys2Proof.Machine

/-! ### HANDOFF (R409, R410) -/

/-- The two dies of a physical stack, port 0 first (R14). -/
def stackDies (st : Nat) : Nat × Nat := (st, (st + 1) % 16)

/-- HANDOFF (R410): its issue releases everything that the thread has sent (R153). -/
def execHandoff (src : BitVec 3) (h : BitVec 3) (s : State) : Out :=
  s.notPlugin 4 (fun s =>
    let e := s.re src.toNat
    let part := s.partOf s.pre
    let d := s.pre.die
    let granted := match s.getPart? part with
      | some p => p.memcfg.getLsbD (48 + (e.extractLsb' 0 4).toNat)
      | none => false
    let inside := match s.getPart? part, s.stackOf part e with
      | some p, some st => p.dies.contains (stackDies st).1 && p.dies.contains (stackDies st).2
      | _, _ => false
    let k := s.getDie d
    if s.pre.priv = .user && !granted then s.trapSyl .trap 4 tcPrivilege 0 0
    else if !inside then s.trapSyl .trap 4 tcOutside 0 0
    else if 16 ≤ k.handQ.length + k.hand.held.length then s.trapSyl .trap 4 tcQueueFull 0 0
    else
      let num := k.hand.next
      let i := { s.issueInfo num 4 e 0 0 0 with after := s.covers }
      let s1 := s.onDie d (fun k => { k with
        hand := k.hand.issue
        handQ := k.handQ ++ [{ iss := i, operand := e, part := part, draining := false, place := none, phys := none }] })
      s1.ordered.wh h.toNat (mkHandle 6 0 s.pre.turn num))

def State.handOp? (s : State) (d num : Nat) : Option HandOp := (s.getDie d).handQ.find? (fun q => q.iss.num == num)
def State.dropHand (s : State) (d num : Nat) : State :=
  s.onDie d (fun k => { k with handQ := k.handQ.filter (fun q => q.iss.num != num) })
def State.failHand (s : State) (d : Nat) (o : HandOp) (cause : BitVec 8) (faddr : W64) (detail : W32) : State :=
  (s.dropHand d o.iss.num).faultOp (.hand d) (s.mkFault o.iss 6 0 cause 0 faddr detail)

/-- Handovers of a stack that wait at its owner, by their place in the order of arrival (R413). -/
def State.handWaiting (s : State) (st : Nat) : List (Nat × Nat × Nat) :=
  s.dies.flatMap (fun k => k.handQ.filterMap (fun o =>
    if s.stackOf o.part o.operand = some st then o.place.map (fun w => (w, k.die, o.iss.num)) else none))

/-- A handover is the first in the order of arrival at its stack's owner. -/
def State.handFirst (s : State) (st : Nat) (o : HandOp) : Bool :=
  match o.place with
  | some w => (s.handWaiting st).all (fun x => decide (w ≤ x.1))
  | none => (s.handWaiting st).isEmpty

/-- A handover completes, and its completion releases to every die of the partition (R411, R153). -/
def State.endHand (s : State) (d : Nat) (o : HandOp) : State :=
  ((s.dropHand d o.iss.num).relDone (.hand d) o.iss allDies).completeOp (.hand d) o.iss.num

/-- HANDOVER_START (R411): the operation reaches the stack's owner. One that moves nothing completes at once; any other
parks new requests for the stack and drains it. One that finds its stack draining, or others waiting, waits for its place in
the order of arrival (R413). -/
def execHandoverStart (die : Nat) (num : Nat) (s : State) : Out :=
  match s.handOp? die num with
  | none => .next s
  | some o =>
    match s.stackOf o.part o.operand with
    | none => .next (s.failHand die o acProtection 0 0)
    | some st =>
      let side := o.operand.getLsbD 4
      let m := if side then (stackDies st).2 else (stackDies st).1
      let mark := fun (f : HandOp → HandOp) => s.onDie die (fun k => { k with
        handQ := k.handQ.map (fun q => if q.iss.num = num then f q else q) })
      if o.draining then .next s
      else if s.heldBack o.iss then
        let r := s.freeDelay
        .next (r.2.schedIn die (r.1 + 1) rankEngine (.handoverStart die num))
      else if s.stackDraining st || !s.handFirst st o then
        .next (if o.place.isSome then s else { mark (fun q => { q with place := some s.nextId }) with nextId := s.nextId + 1 })
      else if o.operand.extractLsb' 5 59 ≠ 0 then .next (s.failHand die o acProtection 0 1)
      else if (s.getDie m).dead then .next (s.failHand die o acProtection 0 2)
      else if s.ownerDie st = m then .next (s.endHand die o)
      else
        let s1 := (mark (fun q => { q with draining := true, place := none, phys := some st })).see die o.iss.after
        -- at most 25 µs of wall time (R412)
        let r := s1.freeUpTo (25000 * Config.ns)
        .next (r.2.schedWall r.1 (.handoverFlip die num))

/-- The uncorrectable granules of a stack that a write-back may meet (R414): whether the line of each was dirty is free (log 83,
DESIGN CHOICE). -/
def State.dirtyErrors (s : State) (st : Nat) : List Nat :=
  s.ecc.filter (fun g => decide (stackKey st 0 ≤ 8 * g) && decide (8 * g < stackKey st 0 + Config.stackSize) &&
    s.choice 2 (8 * g / 128))

/-- The line of a granule becomes undefined (R414). -/
def State.spoilLine (s : State) (g : Nat) : State :=
  { s with free := s.free + 1 }.store (8 * g / 128 * 128) 128 (Config.freeBits 1024 s.free)

/-- What the old owner of a stack served happens before what the new one serves (R153): every write that some die could not see
yet is handed on with the whole stack (log 38, DESIGN CHOICE). -/
def State.handStack (s : State) (part st : Nat) : State :=
  let ids := (s.late.map (·.id)).eraseDups
  let late := s.late.filter (fun e => keyStack (8 * e.gran) != some st)
  let left := ids.filter (fun i => late.any (fun e => e.id == i))
  { s with
    late := late
    msgs := if left.isEmpty then s.msgs
            else s.msgs ++ [{ key := stackKey st 0, n := Config.stackSize, items := [{ part := part, mask := BitVec.allOnes 16, ids := left }] }] }

/-- HANDOVER_FLIP (R411): ownership and routing move, the parked requests go on, and the operation completes. -/
def execHandoverFlip (die : Nat) (num : Nat) (s : State) : Out :=
  match s.handOp? die num with
  | none => .next s
  | some o =>
    match o.phys with
    | none => .next s
    | some st =>
      let mine := s.parked
      let s1 := { s.handStack o.part st with
        stackPort := if o.operand.getLsbD 4 then s.stackPort ||| (1#16 <<< st) else s.stackPort &&& ~~~(1#16 <<< st)
        parked := [] }
      let s2 := s1.releaseParked mine
      match s.dirtyErrors st with
      | [] => .next (s2.endHand die o)
      | g :: r =>
        let s3 := (g :: r).foldl State.spoilLine s2
        let pa := (o.operand.extractLsb' 0 4).toNat * 2 ^ 36 + (8 * g / 128 * 128 - stackKey st 0)
        .next (s3.failHand die o acEcc (BitVec.ofNat 64 pa) 0)

/-- CANCEL of a HANDOFF that has not reached step 1 (R414). -/
def State.cancelHand (s : State) (d num : Nat) : State :=
  match s.handOp? d num with
  | none => s
  | some o => if o.draining then s else s.failHand d o acCancelled 0 0

/-! ### XLINV (R423) -/

/-- XLINV: its issue releases everything that the thread has sent. -/
def execXlinv (h : BitVec 3) (l : BitVec 1) (e : BitVec 3) (s : State) : Out :=
  s.notPlugin 4 (fun s =>
    if s.pre.priv = .user then s.noPriv 4
    else
      let d := s.pre.die
      let num := (s.getDie d).xl.next
      let w := if l = 1 then 0 else s.re e.toNat
      let i := { s.issueInfo num 4 w 0 0 0 with after := s.covers }
      let s1 := s.onDie d (fun k => { k with
        xl := k.xl.issue, xlQ := k.xlQ ++ [{ iss := i, all := l == 1, operand := w, part := s.partOf s.pre }] })
      s1.ordered.wh h.toNat (mkHandle 7 0 s.pre.turn num))

/-- The range of an XLINV: first page and number of pages, if it obeys R423. -/
def xlRange (w : W64) : Option (Nat × Nat) :=
  let first := (w.extractLsb' 12 45).toNat
  let n := (w.extractLsb' 0 6).toNat
  if 45 < n || w.extractLsb' 57 7 ≠ 0 || w.extractLsb' 6 6 ≠ 0 || first % 2 ^ n ≠ 0 then none else some (first, 2 ^ n)

/-- A cached entry serves a page of a range: its leaf maps 2^(9 × level) pages. -/
def TlbEntry.hits (e : TlbEntry) (first n : Nat) : Bool :=
  let span := 2 ^ (9 * e.level)
  let base := e.page / span * span
  decide (base < first + n) && decide (first < base + span)

/-- Drop the cached translations of a partition that serve a range of pages. -/
def State.dropTlb (s : State) (part : Nat) (hit : TlbEntry → Bool) : State :=
  { s with dies := s.dies.map (fun d => { d with tlb := d.tlb.filter (fun e => !(e.part == part && hit e)) }) }

/-- XLINV_COMPLETE: every slice of the partition has dropped what the range used (R423). -/
def execXlinvComplete (die : Nat) (num : Nat) (s : State) : Out :=
  match (s.getDie die).xlQ.find? (fun q => q.iss.num == num) with
  | none => .next s
  | some o =>
    if s.heldBack o.iss then
      let r := s.freeDelay
      .next (r.2.schedIn die (r.1 + 1) rankEngine (.xlinvComplete die num))
    else
      let s1 := s.onDie die (fun k => { k with xlQ := k.xlQ.filter (fun q => q.iss.num != num) })
      if o.all then .next ((s1.dropTlb o.part (fun _ => true)).completeOp (.xl die) num)
      else
        match xlRange o.operand with
        | none => .next (s1.faultOp (.xl die) (s1.mkFault o.iss 7 0 acProtection 0 0 0))
        | some (first, n) => .next ((s1.dropTlb o.part (fun e => e.hits first n)).completeOp (.xl die) num)

/-- PAGE_WALK_COMPLETE: a slice of a die caches what a walk of the tables answers (R419, R420). -/
def execPageWalkComplete (die : Nat) (part : Nat) (va : BitVec 64) (s : State) : Out :=
  match s.getPart? part with
  | none => .next s
  | some p =>
    match s.freshWalk p va with
    | .fail _ => .next s
    | .leaf pte lv =>
      let page := va.toNat / 4096
      .next (s.onDie die (fun x => x.cacheLeaf { part := part, page := page, leaf := pte, level := lv }))

/-! ### Handovers and invalidations in progress -/

/-- What the handover and translation contexts of a die can start. -/
def State.stackHouse (s : State) (d : Nat) : State :=
  let k := s.getDie d
  let s1 := k.handQ.foldl (fun a o =>
    let waits := o.place.isSome && (match a.stackOf o.part o.operand with
      | some st => a.stackDraining st || !a.handFirst st o
      | none => false)
    if o.draining || waits || a.pending (fun e => match e with | .handoverStart d' n => d' == d && n == o.iss.num | _ => false) then a
    else
      let r := a.freeDelay
      r.2.schedIn d (r.1 + 1) rankEngine (.handoverStart d o.iss.num)) s
  k.xlQ.foldl (fun a o =>
    if a.pending (fun e => match e with | .xlinvComplete d' n => d' == d && n == o.iss.num | _ => false) then a
    else
      let r := a.freeDelay
      r.2.schedIn d (r.1 + 1) rankEngine (.xlinvComplete d o.iss.num)) s1

/-! ### Pages between host and device (R424, R425) -/

/-- The key of the leaf entry that maps a page at level 0, with the entry and the key slot of its table. -/
def State.leafKey (s : State) (p : Partition) (va slot : Nat) : Nat → Bool → Nat → Option (Nat × W64 × Nat)
  | 0, _, _ => none
  | l + 1, placed, table =>
    match s.physAt p placed (table + 8 * (va / 2 ^ (12 + 9 * l) % 512)) with
    | none => none
    | some (st, off) =>
      let e := s.entryUnder (logKey p st off) (p.keyOf slot)
      if pteBad e l then none
      else if pteLeaf e then (if l = 0 then some (logKey p st off, e, slot) else none)
      else s.leafKey p va (pteKey e) l (pteP e) (pteFrame e)
/-- The entry that maps a page of a partition. -/
def State.pageLeaf (s : State) (p : Partition) (va : Nat) : Option (Nat × W64 × Nat) := s.leafKey p va 0 5 true p.root

/-- A leaf rewritten through the key of its table, its translations dropped (R424). -/
def State.putLeaf (s : State) (p : Partition) (key slot va : Nat) (e : W64) : State :=
  ((s.unlock key (p.keyOf slot) true).store key 8 e).dropTlb p.num (fun t => t.hits (va / 4096) 1)

/-- A leaf with another frame, H and P. -/
def leafWith (e : W64) (frame : Nat) (h p : Bool) : W64 :=
  (e &&& ~~~(0x000FFFFFFFFFF030#64)) ||| BitVec.ofNat 64 (frame / 4096 * 4096 % 2 ^ 52 + bit h 5 + bit p 4)

/-- A frame of a pool (R424): its address, placed unless bit 0 marks it striped. -/
def poolFrame (placed : Bool) (frame : Nat) : W64 := BitVec.ofNat 64 (frame / 4096 * 4096 + bit (!placed) 0)
def framePlaced (w : W64) : Bool := !w.getLsbD 0
def frameAddr (w : W64) : Nat := w.toNat / 4096 * 4096

/-- A move that cannot be made ends, and the accesses that waited go on. -/
def State.endMove (s : State) (m : PageMove) : State := (s.dropMove m.part m.va).releaseParked m.parked
/-- A move has been made: where the other side's fault came later, a window opens for it (R425). -/
def State.madeMove (s : State) (p : Partition) (m : PageMove) : State := if m.lost then s.openWindow p m else s.endMove m

/-- 4 KiB move between keys, with the order of their accesses (R424, R142). -/
def State.copyPage (s : State) (old new : Nat) : State :=
  (s.moveOrder old new 4096).store new 4096 (s.load old 4096 32768 : BitVec 32768)

/-- PAGE_MIGRATE_IN: the stack engine takes a frame and copies a host page in (R424; log 82, DESIGN CHOICE). -/
def execPageMigrateIn (part : Nat) (va : BitVec 64) (s : State) : Out :=
  match s.getPart? part, s.moveOf? part va.toNat with
  | some p, some m =>
    match p.home, s.pageLeaf p va.toNat with
    | some h, some (key, e, slot) =>
      let f := s.getFunc h
      match f.pool with
      | [] => .next (s.endMove m)
      | fr :: rest =>
        if !pteH e || !pteM e || m.window || m.byHost then .next (s.endMove m)
        else
          match s.physAt p (framePlaced fr) (frameAddr fr) with
          | none => .next (s.endMove m)
          | some (st, off) =>
            let b := s.charge part 3 4096
            if !b.1 then .next (s.untilPeriod part (.wall 0) (.pageMigrateIn part va))
            else
              let s1 := (b.2.setFunc { f with pool := rest }).unlockAll (logKey p st off) 4096 (p.keyOf (pteKey e)) true
              let s2 := s1.copyPage (hostKey (fnPort h) (pteFrame e)) (logKey p st off)
              let s3 := s2.putLeaf p key slot va.toNat (leafWith e (frameAddr fr) false (framePlaced fr))
              .next (s3.madeMove p m)
    | _, _ => .next (s.endMove m)
  | _, _ => .next s

/-- The page of a host fault that won goes to host memory, and its frame to the pool (R424). An uncorrectable granule keeps the
page where it is (log 82, DESIGN CHOICE). -/
def State.moveOut (s : State) (p : Partition) (m : PageMove) : State :=
  match p.home, s.pageLeaf p m.va with
  | some h, some (key, e, slot) =>
    let f := s.getFunc h
    if pteH e || !pteM e then s.endMove m
    else
      match s.physAt p (pteP e) (pteFrame e) with
      | none => s.endMove m
      | some (st, off) =>
        let k := logKey p st off
        if s.eccRead k 4096 then (s.reportEcc true p.num 4 k).endMove m
        else
          let b := s.charge p.num 3 4096
          if !b.1 then s.untilPeriod p.num (.wall 0) (.pageMigrateOut p.num (BitVec.ofNat 64 m.va) (BitVec.ofNat 64 m.target))
          else
            let s1 := (b.2.unlockAll k 4096 (p.keyOf (pteKey e)) false).copyPage k (hostKey (fnPort h) m.target)
            let s2 := s1.setFunc { f with pool := f.pool ++ [poolFrame (pteP e) (pteFrame e)] }
            (s2.putLeaf p key slot m.va (leafWith e m.target true false)).madeMove p m
  | _, _ => s.endMove m

/-- PAGE_MIGRATE_OUT: a host access reaches a page (R424, R425). `host` is where the page goes in host memory. The first fault
at the directory wins; a host fault in the directory cycle of a device fault wins too, and one that finds the page in host
memory wins over a device fault of the same cycle. The move itself is the same event, when it comes again after its time. -/
def execPageMigrateOut (part : Nat) (va : BitVec 64) (host : BitVec 64) (s : State) : Out :=
  match s.getPart? part with
  | none => .next s
  | some p =>
    match s.moveOf? part va.toNat with
    | some m =>
      .next (if m.window || m.idle then s
        else if m.byHost then (if m.since = s.wall then s else s.moveOut p m)
        else if m.asked then s
        else if m.since = s.wall then
          (s.unsched (fun e => match e with | .pageMigrateIn q a => q == part && a == va | _ => false)).openWindow p m
        else s.setMove { m with lost := true })
    | none =>
      match p.home, s.pageLeaf p va.toNat with
      | some h, some (_, e, _) =>
        if !pteM e || (s.getFunc h).pagm then .next s
        else
          let m := { newMove part va.toNat false s.wall with byHost := true, idle := pteH e, target := host.toNat / 4096 * 4096 }
          if pteH e then .next (s.addMove m)
          else
            let r := (s.addMove m).freeDelay
            .next (r.2.schedWall (r.1 + 1) (.pageMigrateOut part va host))
      | _, _ => .next s

/-- MIGRATION_EVENT_ANSWER: in host-assisted mode the host has moved the page and names its new leaf (R424). -/
def execMigrationEventAnswer (part : Nat) (va : BitVec 64) (leaf : BitVec 64) (s : State) : Out :=
  match s.getPart? part, s.moveOf? part va.toNat with
  | some p, some m =>
    if !m.asked then .next s
    else
      match s.pageLeaf p va.toNat with
      | some (key, _, slot) => .next ((s.putLeaf p key slot va.toNat leaf).endMove m)
      | none => .next (s.endMove m)
  | _, _ => .next s

/-- HYSTERESIS_EXPIRY (R425): the window ends, and what still waits for the page goes on. -/
def execHysteresisExpiry (part : Nat) (va : BitVec 64) (s : State) : Out :=
  match s.moveOf? part va.toNat with
  | some m => .next (if m.window then s.endMove m else s)
  | none => .next s

end Sys2Proof.Machine
end

