-- ==== Sys2Proof/Machine/Handles.lean ====
section
/-! DEFINITION. Handles (R278-R282), WAIT, TEST, CANCEL, TLWAIT, TLRD (R290, R291, R300-R305) and FENCE (R306). -/

namespace Sys2Proof.Machine

/-! ### Finding a context (R278-R280) -/

/-- What a handle's class and context, with its location, come to. -/
inductive Found where
  | malformed
  | trap (cause : BitVec 8)
  | at (r : TlRef) (foreign : Bool)
  deriving DecidableEq, Repr, Inhabited

def handleClass (h : W64) : Nat := (h.extractLsb' 60 4).toNat
def handleCtx (h : W64) : Nat := (h.extractLsb' 56 4).toNat
def handleSeq (h : W64) : Nat := (h.extractLsb' 0 48).toNat

/-- Contexts of a class (R278, R367). -/
def ctxCount (cls : Nat) : Nat := ([4, 1, 1, 1, 16, 9, 1, 1] : List Nat)[cls]?.getD 0

/-- The context of a class at a die and core. -/
def refOf (cls x tid d c : Nat) : TlRef :=
  match cls with
  | 0 => .copy d c x
  | 1 => .remote tid
  | 2 => .matrix d c
  | 3 => .prism d c
  | 4 => .coll d x
  | 5 => .task d x
  | 6 => .hand d
  | _ => .xl d

/-- The context that thread t finds for a handle, with or without a location (R280). -/
def State.findCtx (s : State) (t : Thread) (h : W64) (loc : Option W64) : Found :=
  let cls := handleClass h
  let x := handleCtx h
  if ctxCount cls ≤ x then .malformed
  else
    match loc with
    | none => .at (refOf cls x t.tid t.die t.core) false
    | some l =>
      if cls = 1 || l.extractLsb' 4 4 ≠ 0 || l.extractLsb' 16 48 ≠ 0 then .malformed
      else
        match s.physDie? (s.partOf t) (l.extractLsb' 0 4).toNat with
        | none => .trap tcOutside
        | some d =>
          let c := (l.extractLsb' 8 8).toNat
          if 4 ≤ cls then .at (refOf cls x t.tid d c) (d != t.die)
          else if !s.coreHeld d c t.lid then .trap tcPeerAbsent
          else .at (refOf cls x t.tid d c) (!(d == t.die && c == t.core))

/-- The location operand of a syllable. -/
def locOf (a : BitVec 1) (v : W64) : Option W64 := if a = 1 then some v else none

/-- HANDLE_FAULT of a malformed handle (R281). -/
def State.badHandle (s : State) (h : W64) : State := s.trapSyl .trap 4 tcHandleFault 0 h

/-- Resolve a handle for a syllable; `k` takes the context. A blocking syllable (`why` is `check`) makes the checks of its
location at every attempt, another as it takes effect (R75, R280; log 75, DESIGN CHOICE). -/
def State.withCtx (s : State) (why : Stop) (h : W64) (loc : Option W64) (k : TlRef → Bool → State) : State :=
  match s.findCtx s.pre h loc with
  | .malformed => s.badHandle h
  | .trap c => s.trapSyl why 4 c 0 0
  | .at r f => k r f
/-- Resolve a handle and its operation. -/
def State.withOp (s : State) (why : Stop) (h : W64) (loc : Option W64) (k : TlRef → Bool → Nat → State) : State :=
  s.withCtx why h loc (fun r f =>
    match (s.getTl r).opOf (handleSeq h) with
    | none => s.badHandle h
    | some n => k r f n)

/-! ### The condition of a WAIT (R290, R301) -/

/-- The record of a context is reportable to a thread's WAIT on operation n. -/
def Timeline.reportable (tl : Timeline) (tid n : Nat) : Option FaultRec :=
  match tl.frec with
  | some r => if !r.reported && (r.num = n || (r.num < n && r.tid = tid)) then some r else none
  | none => none

/-- Notice of completion has reached a waiting thread (R301): in free mode it is an event of its own, at a stamp the
choice is free (log 84, DESIGN CHOICE). -/
def State.noticed (s : State) (t : Thread) (foreign : Bool) : Bool :=
  !foreign || (if t.stamped then s.choice 3 t.tid else t.notice == 2)

/-- A WAIT or TLWAIT is held. -/
def State.holdWait (s : State) : State := s.holdSyl 4

/-- The record of a context is sent out: written at %trec and freed (R290, R291). -/
def State.report (s : State) (ref : TlRef) (r : FaultRec) : State :=
  let sent := { r with reported := true, more := !(s.getTl ref).held.isEmpty }
  (s.writeRec s.pre 64 96 sent.image).freeFault ref

/-- The bytes of an asynchronous read as they are now, in its units from the low end, with what they bring; `none` where their
place can no longer be read. -/
def State.readAnew (s : State) (g : Agent) (u : Nat) (a : W64) : Nat → Option (Nat × List MsgItem × List Nat × State)
  | 0 => some (0, [], [], s)
  | k + 1 =>
    match s.placeOf g a u .read with
    | (.ok key _, s1) =>
      let w := s1.readSeen g.die key u
      (w.2.2.readAnew g u (a + BitVec.ofNat 64 u) k).map (fun q =>
        (w.1 + 2 ^ (8 * u) * q.1, s1.broughtTo g.die key u ++ q.2.1, w.2.1 ++ q.2.2.1, q.2.2.2))
    | _ => none

/-- An asynchronous read takes its place in program order at the WAIT or TEST that finds it complete (R144, R302): where an
acquire or an access of the thread has come since its issue, an RLD reads anew, if its place can still be read (log 42,
DEDUCED). -/
def State.takeRead (s : State) (r : AsyncRead) : State :=
  let s0 := { s with me := { s.me with reads := s.me.reads.filter (fun q => q.num != r.num) } }
  let bring := fun (t : State) (items : List MsgItem) (ids : List Nat) =>
    { t with me := { t.me with got := t.liveItems (t.me.got ++ items), seen := t.liveIds (t.me.seen ++ ids) } }
  let u := if r.size = 4 then 4 else 8
  let anew := if r.load && r.stale then s0.readAnew (s0.agentOf s0.me) u r.addr (r.size / u) else none
  let s1 := match anew with
    | some (v, items, ids, t) =>
      bring (if r.dead then t else { t with me := t.me.putFile r.file r.reg (BitVec.ofNat 2048 v) }) items ids
    | none => bring s0 r.got r.ids
  if r.acq then s1.acquire ((r.got.filter s1.names).flatMap (·.ids)) else s1

/-- The asynchronous reads that a WAIT or TEST for operation n of a context finds complete. -/
def Thread.readsUpTo (t : Thread) (ref : TlRef) (n : Nat) : List AsyncRead :=
  if ref = .remote t.tid then t.reads.filter (fun r => decide (r.num ≤ n)) else []

/-- A page on the move, or a stack in handover, keeps an address from being read now. -/
def State.waitsFor (s : State) (g : Agent) (u : Nat) (a : W64) : Nat → Bool
  | 0 => false
  | k + 1 =>
    (match s.placeOf g a u .read with
     | (.wait, _) => true
     | _ => false) || s.waitsFor g u (a + BitVec.ofNat 64 u) k

/-- An RLD that must read anew cannot do so yet (R144): its place is on the move, or a write to it that happens before has still
to be applied there. -/
def State.readHeld (s : State) (r : AsyncRead) : Bool :=
  let g := s.agentOf s.me
  let u := if r.size = 4 then 4 else 8
  let keys := (List.range (r.size / u)).filterMap (fun i => match s.placeOf g (r.addr + BitVec.ofNat 64 (u * i)) u .read with
    | (.ok k _, _) => some k
    | _ => none)
  r.load && r.stale && (s.waitsFor g u r.addr (r.size / u) ||
    s.reqs.any (fun q => !q.applied && q.kind != .load && (s.me.before.contains q.rid || q.iss.tid == s.me.tid) &&
      (s.scanUnits q q.units).1.ok.any (fun p => keys.any (fun k => decide (p.key < k + u) && decide (k < p.key + p.n)))))

/-- A WAIT, TLWAIT or TEST that finds operation n of a context complete (R144, R145, R152, R302). -/
def State.waited (s : State) (ref : TlRef) (n : Nat) : State :=
  ((s.me.readsUpTo ref n).foldl (fun (a : State) r =>
    match a.me.reads.find? (fun q => q.num == r.num) with
    | some q => a.takeRead q
    | none => a) s).acquireOps ref n

/-- The pages that the reads of operation n of a context have to read anew are asked for (R424). -/
def State.askReads (s : State) (ref : TlRef) (n : Nat) : State :=
  ((s.me.readsUpTo ref n).filter (fun r => r.load && r.stale)).foldl (fun (a : State) r =>
    let u := if r.size = 4 then 4 else 8
    (List.range (r.size / u)).foldl (fun (b : State) i => (b.placeOf (b.agentOf b.me) (r.addr + BitVec.ofNat 64 (u * i)) u .read).2) a) s

/-- The reads that a WAIT or TEST for operation n takes up can be made now. -/
def State.readsReady (s : State) (ref : TlRef) (n : Nat) : Bool := !(s.pre.readsUpTo ref n).any s.readHeld

/-- WAIT (R290, R291, R301). -/
def execWait (h : BitVec 3) (c : BitVec 3) (a : BitVec 1) (e : BitVec 3) (q : BitVec 1) (s : State) : Out :=
  s.notPlugin 4 (fun s =>
    let hd := s.rh h.toNat
    let flag := fun (t : State) (v : Bool) => if q = 1 then t.wc c.toNat v else t
    if hd = 0 then flag s s.pre.reportedOne
    else
      s.withOp .check hd (locOf a (s.re e.toNat)) (fun ref foreign n =>
        let tl := s.getTl ref
        let rep := tl.reportable s.pre.tid n
        let done := decide (n ≤ tl.c)
        if !((done && s.readsReady ref n) || rep.isSome) || !s.noticed s.pre foreign then
          (if done && !s.readsReady ref n then s.askReads ref n else s).holdWait
        else
          match rep with
          | none => flag (s.waited ref n) s.pre.reportedOne
          | some r =>
            if q = 0 && r.cause ≠ acCancelled then
              let sent := { r with reported := true, more := !tl.held.isEmpty }
              let info : TrapInfo := ⟨tcHandleFault, 4, r.cause.setWidth 32 ||| (r.cls.setWidth 32 <<< 8), r.handle,
                rd s.bun.words 4⟩
              let t := s.takeTrap .trap info (some sent)
              t.freeFault ref
            else if done then flag ((s.report ref r).waited ref n) true
            else if s.pre.stamped then s.holdWait
            else
              -- the record is freed although nothing else of the bundle takes effect
              let t := { s with me := s.pre }.report ref r
              let u := { t with pre := { t.me with reportedOne := true } }.block
              { u with bun := { u.bun with stop := .report } }))

/-- TEST (R302): one that writes 1 acquires as WAIT does, and in stamped mode an operation that is not complete overruns
(R58). -/
def execTest (h : BitVec 3) (c : BitVec 3) (a : BitVec 1) (e : BitVec 3) (s : State) : Out :=
  s.notPlugin 4 (fun s =>
    let hd := s.rh h.toNat
    if hd = 0 then s.wc c.toNat true
    else
      s.withOp .trap hd (locOf a (s.re e.toNat)) (fun ref _ n =>
        let done := decide (n ≤ (s.getTl ref).c) && s.readsReady ref n
        let asks := if n ≤ (s.getTl ref).c then s.askReads ref n else s
        if s.pre.stamped && !done then s.holdSyl 4
        else if done then (s.waited ref n).wc c.toNat true
        else asks.wc c.toNat false))

/-! ### CANCEL (R303, R319, R346, R367, R396, R414) -/

/-- CANCEL of a copy operation: one that waits completes at once, a running one after its current unit. -/
def State.cancelCopy (s : State) (d c x n : Nat) : State :=
  match (s.copyCtx d c x).queue.find? (fun o => o.iss.num == n) with
  | none => s
  | some o =>
    if o.started then
      s.onCopy d c x (fun k => { k with queue := k.queue.map (fun q => if q.iss.num = n then { q with cancel := true } else q) })
    else
      let s1 := s.onCopy d c x (fun k => { k with queue := k.queue.filter (fun q => q.iss.num != n) })
      s1.faultOp (.copy d c x) { s1.mkFault o.iss 0 x acCancelled 0 0 0 with cmd := o.record.setWidth 1024 }

/-- CANCEL of a SPAWN whose record has not been dispatched (R367). -/
def State.cancelSpawn (s : State) (d x n : Nat) : State :=
  let mine := fun (r : TaskRec) => r.ctxDie == d && r.ctx == x && r.num == n
  match s.records.find? mine with
  | none => s
  | some r =>
    let s1 := s.takeRecords mine
    s1.faultOp (.task d x) (s1.mkFault r.iss 5 x acCancelled 0 0 0)

/-- The effect of CANCEL on operation n of a context; a completed or held operation is in no queue. -/
def State.cancelOp (s : State) (r : TlRef) (n : Nat) : State :=
  match r with
  | .copy d c x => s.cancelCopy d c x n
  | .remote _ => s
  | .matrix d c => s.cancelMat d c n
  | .prism d c => s.cancelPrism d c n
  | .coll d x => s.cancelColl d x n
  | .task d x => if x < 8 then s.cancelSpawn d x n else s
  | .hand d => s.cancelHand d n
  | .xl _ => s

/-- CANCEL (R303). -/
def execCancel (h : BitVec 3) (a : BitVec 1) (e : BitVec 3) (s : State) : Out :=
  s.notPlugin 4 (fun s =>
    let hd := s.rh h.toNat
    if hd = 0 then s
    else s.withOp .trap hd (locOf a (s.re e.toNat)) (fun ref _ n => s.cancelOp ref n))

/-! ### TLWAIT, TLRD, FENCE -/

/-- TLWAIT (R304). -/
def execTlwait (h : BitVec 3) (n : BitVec 3) (a : BitVec 1) (e : BitVec 3) (s : State) : Out :=
  s.notPlugin 4 (fun s =>
    s.withCtx .check (s.rh h.toNat) (locOf a (s.re e.toNat)) (fun ref foreign =>
      let k := (s.re n.toNat).toNat
      if k ≤ (s.getTl ref).c && s.readsReady ref k && s.noticed s.pre foreign then s.waited ref k
      else (if k ≤ (s.getTl ref).c && !s.readsReady ref k then s.askReads ref k else s).holdWait))

/-- TLRD (R305). -/
def execTlrd (h : BitVec 3) (f : BitVec 1) (n : BitVec 4) (d : BitVec 3) (a : BitVec 1) (e : BitVec 3) (s : State) :
    Out :=
  s.notPlugin 4 (fun s =>
    s.withCtx .trap (s.rh h.toNat) (locOf a (s.re e.toNat)) (fun ref _ =>
      let tl := s.getTl ref
      s.we d.toNat (if f = 1 then elem 64 tl.recImage n.toNat
        else if n = 0 then BitVec.ofNat 64 tl.c else BitVec.ofNat 64 tl.i)))

/-- FENCE.rel (R306, R145): a release to the dies of its mask. -/
def execFenceRel (e : BitVec 3) (s : State) : Out :=
  s.notPlugin 4 (fun s => s.release ((s.re e.toNat).extractLsb' 0 16))
/-- FENCE.acq (R306, R145): an acquire of what every read before it brought. -/
def execFenceAcq (s : State) : Out := s.notPlugin 4 (fun s => s.acquireAll)
/-- FENCE.sc (R306, R149): both, in one order with every other FENCE.sc. -/
def execFenceSc (e : BitVec 3) (s : State) : Out :=
  s.notPlugin 4 (fun s => s.fenceSc ((s.re e.toNat).extractLsb' 0 16))

/-- COMPLETION_NOTICE (R301): notice of a foreign completion reaches the waiting core. -/
def execCompletionNotice (tid : Nat) (s : State) : Out := .next (s.onThread tid (fun t => { t with notice := 2 }))

end Sys2Proof.Machine
end

