-- ==== Sys2Proof/Machine/Bundle.lean ====
section
/-! DEFINITION. From a fetch packet to a bundle: its words, the form rules (R63-R72, R84), the syllables in address
order with the encodings that are none (R64, R67-R69, R75, R77, R87), and the first-attempt checks of R58. -/

namespace Sys2Proof.Machine

/-! ### Words (R63, R67) -/

/-- CLASS. -/
def wordClass (w : W32) : Nat := (w.extractLsb' 28 3).toNat
/-- OPCODE. -/
def wordOp (w : W32) : Nat := (w.extractLsb' 21 7).toNat
/-- The kind of an X syllable. -/
def wordKind (w : W32) : Nat := (w.extractLsb' 26 2).toNat
/-- A field of a word as a number. -/
def wordField (w : W32) (lo n : Nat) : Nat := (w.extractLsb' lo n).toNat

/-- Syllables that a high-immediate X syllable extends (R68). -/
def takesHigh (w : W32) : Bool :=
  (wordClass w = 0 && (wordOp w = 0x38 || wordOp w = 0x41 || wordOp w = 0x43)) || (wordClass w = 1 && wordOp w = 0x21)
/-- Syllables that an extra-operand X syllable extends (R69). -/
def takesExtra (w : W32) : Bool := wordClass w = 1 && (wordOp w = 0x28 || wordOp w = 0x32)

/-! ### Destinations (R84): file (0 x, 1 a, 2 v, 3 k, 4 c, 5 q, 6 e, 7 h) and register, from the encoded fields -/

/-- CALL counts x31 among its destinations, though no field of its word names it (log 24, DESIGN CHOICE). -/
def destsS (w : W32) : List (Nat × Nat) :=
  let op := wordOp w
  if (0x01 ≤ op && op ≤ 0x1D) || (0x21 ≤ op && op ≤ 0x35) || op = 0x38 || op = 0x50 || (0x58 ≤ op && op ≤ 0x5A) then
    [(0, wordField w 16 5)]
  else if op = 0x3A || op = 0x3B then [(4, wordField w 18 3)]
  else if op = 0x43 then [(0, 31)]
  else []

def destsA (w : W32) : List (Nat × Nat) :=
  let op := wordOp w
  let data := wordField w 16 5
  let base := wordField w 12 4
  let post : List (Nat × Nat) := if wordField w 10 2 = 2 && op ≠ 0x14 && op ≠ 0x15 then [(1, base)] else []
  let size := wordField w 7 2
  if op = 0x03 || op = 0x06 then (1, data) :: post
  else if op ≤ 0x05 then (0, data) :: post
  else if 0x08 ≤ op && op ≤ 0x0B then post
  else if op = 0x10 || op = 0x12 || op = 0x14 then (2, data) :: post
  else if op = 0x16 then (3, data) :: post
  else if 0x11 ≤ op && op ≤ 0x17 then post
  else if op = 0x20 || op = 0x21 then [(1, wordField w 17 4)]
  else if op = 0x22 || op = 0x23 then [(1, base)]
  else if op = 0x28 then
    (if wordField w 2 1 = 0 then [(0, data)] else if data = 16 then [] else [(1, data)])
  else if op = 0x30 then [(7, wordField w 9 3), (size, data)]
  else if op = 0x31 then [(7, wordField w 9 3)]
  else if op = 0x32 then (7, wordField w 9 3) :: (if wordField w 4 1 = 1 then [] else [(size, data)])
  else []

def destsV (w : W32) : List (Nat × Nat) :=
  let op := wordOp w
  if op = 0x60 then [(1, wordField w 17 4), (1, wordField w 13 4), (1, wordField w 9 4)]
  else if op = 0x0A || op = 0x2D || op = 0x50 || op = 0x52 || op = 0x53 then [(3, wordField w 17 4)]
  else if op ≤ 0x09 || (0x10 ≤ op && op ≤ 0x15) || (0x20 ≤ op && op ≤ 0x2F) || (0x40 ≤ op && op ≤ 0x4C) || op = 0x51 ||
      (0x70 ≤ op && op ≤ 0x74) then [(2, wordField w 17 4)]
  else []

def destsM (w : W32) : List (Nat × Nat) :=
  let op := wordOp w
  if op = 0x00 || op = 0x01 then [(5, wordField w 18 3)]
  else if (0x10 ≤ op && op ≤ 0x15) || (0x20 ≤ op && op ≤ 0x24) then [(7, wordField w 8 3)]
  else []

def destsN (w : W32) : List (Nat × Nat) :=
  let op := wordOp w
  if op = 0x01 || op = 0x08 then [(6, wordField w 18 3)]
  else if (0x10 ≤ op && op ≤ 0x13) || op = 0x21 || op = 0x30 then [(7, wordField w 7 3)]
  else if op = 0x18 then (if wordField w 0 1 = 1 then [(4, wordField w 15 3)] else [])
  else if op = 0x19 || op = 0x2C then [(4, wordField w 15 3)]
  else if op = 0x1C then [(6, wordField w 5 3)]
  else if op = 0x28 then [(7, wordField w 1 3)]
  else if op = 0x29 || op = 0x39 then [(7, wordField w 18 3)]
  else if op = 0x38 then [(7, wordField w 9 3)]
  else []

/-- Destinations of a word; x0 and k0 are none (R79, R84). -/
def destsOf (w : W32) : List (Nat × Nat) :=
  (match wordClass w with
   | 0 => destsS w
   | 1 => destsA w
   | 2 => destsV w
   | 3 => destsM w
   | 4 => destsN w
   | _ => []).filter (fun d => !(d.2 = 0 && (d.1 = 0 || d.1 = 3)))

/-- Two words name one register as destination. -/
def clash (a b : W32) : Bool := (destsOf a).any (fun d => (destsOf b).contains d)
def anyClash : List W32 → Bool
  | [] => false
  | w :: r => r.any (clash w) || anyClash r

/-! ### Form (R64-R72) -/

/-- Classes 0-4 come at most once and in ascending order (R66). -/
def ascending : List Nat → Bool
  | a :: b :: r => decide (a < b) && ascending (b :: r)
  | _ => true

/-- Every X syllable stands where R68-R70 place it; `prev` is the word before. -/
def placedX (prev : W32) : List W32 → Bool
  | [] => true
  | w :: r =>
    (wordClass w ≠ 5 ||
      (match wordKind w with
       | 0 => takesHigh prev
       | 1 => takesExtra prev
       | 3 => r.isEmpty
       | _ => true)) && placedX w r

/-- The words of the bundle at an address of a packet (R65). -/
def bundleWords (p : BitVec 256) (a : W64) : List W32 :=
  (List.range (bundleLen p a)).map (fun k => elem 32 p (a.toNat / 4 % 8 + k))

/-- A non-PAD word stands after PAD behind the bundle (R71). -/
def brokenPad (p : BitVec 256) (a : W64) : Bool :=
  let j := a.toNat / 4 % 8 + bundleLen p a
  decide (j < 8) && decide (elem 32 p j = padWord) &&
    (List.range (8 - j)).any (fun k => decide (elem 32 p (j + k) ≠ padWord))

/-- Issue stamps of a bundle. -/
def stampsOf (ws : List W32) : List W32 := ws.filter (fun w => wordClass w = 5 && wordKind w = 3)

/-- BUNDLE_FORM (R66). A branch to a later word of a packet whose word 0 has B = 0 is judged by its target word alone (R71; log 108,
DESIGN CHOICE). -/
def badForm (p : BitVec 256) (a : W64) : Bool :=
  let ws := bundleWords p a
  let syls := ws.filter (fun w => wordClass w ≤ 4)
  (match ws with
   | [] => true
   | w :: r => !w.getLsbD 31 || decide (4 < wordClass w) || !placedX w r) ||
  decide (7 < ws.length) || brokenPad p a || !ascending (syls.map wordClass) ||
  decide (2 < (ws.filter (fun w => wordClass w = 5)).length) || anyClash syls ||
  (syls.any (fun w => wordClass w = 0 && wordOp w = 0x52) && !(stampsOf ws).isEmpty)

/-! ### Syllables -/

/-- What stands at a word of a bundle. -/
inductive Item where
  /-- A syllable of a class, its X syllable taken in. -/
  | syl (cls : Nat) (i : Instr)
  /-- No instruction: the SLOT and the word that ILLEGAL_SYLLABLE reports. -/
  | bad (slot : Nat) (word : W32)
  deriving DecidableEq, Repr

/-- The X syllable after a word. -/
def extensionOf (w : W32) : List W32 → Option W32
  | [] => none
  | x :: _ => if wordClass x = 5 && ((wordKind x = 0 && takesHigh w) || (wordKind x = 1 && takesExtra w)) then some x
              else none

/-- A syllable with an X syllable that is wrong even with the payloads that its own fields allow. Which of the two words
offends, where they are illegal only together, is the model's choice (log 25, DESIGN CHOICE): the syllable when neither payload 0 nor
DET alone makes it legal, and the X syllable otherwise. -/
def badAlone (w x : W32) : Bool :=
  let tryX := fun (p : W32) => match decode [w, (x &&& 0xFC000000#32) ||| p] with
    | .ok _ => true
    | .error _ => false
  !tryX 0 && !tryX 0x80

/-- The items of a bundle's words in address order. SLOT of an offending X syllable, or of a word of class 6 or 7, is 7: the
model's choice (log 26, DESIGN CHOICE), since R175 gives SLOT only the classes 0 to 4, and 7 for the bundle as a whole. -/
def itemsOf : List W32 → List Item
  | [] => []
  | w :: r =>
    let c := wordClass w
    (if c ≤ 4 then
       match extensionOf w r with
       | none => (match decode [w] with
         | .ok i => [.syl c i]
         | .error _ => [.bad c w])
       | some x => (match decode [w, x] with
         | .ok i => [.syl c i]
         | .error _ => if badAlone w x then [.bad c w] else [.bad 7 x])
     else if c = 5 then
       (if wordKind w = 2 || (wordKind w = 3 && w.extractLsb' 21 5 ≠ 0) then [.bad 7 w] else [])
     else [.bad 7 w]) ++ itemsOf r

/-- A bundle as it was read. -/
structure Parsed where
  form : Bool
  items : List Item
  stamp : Option W32
  next : W64
  words : Vector W32 5
  deriving DecidableEq, Repr

/-- The bundle at an address of a packet. -/
def parseBundle (p : BitVec 256) (a : W64) : Parsed :=
  let ws := bundleWords p a
  { form := badForm p a, items := itemsOf ws, stamp := (stampsOf ws).head?, next := bundleNext p a
    words := ws.foldl (fun v w => if wordClass w ≤ 4 then v.setIfInBounds (wordClass w) w else v)
      (Vector.replicate 5 0) }

/-- The instructions of a bundle, with their classes. -/
def Parsed.instrs (b : Parsed) : List (Nat × Instr) :=
  b.items.filterMap (fun x => match x with
    | .syl c i => some (c, i)
    | .bad _ _ => none)

/-- The bundle that a thread stands at, if it can be read and is well formed: one that the thread has attempted is the one
it fetched then (R75). -/
def State.bundleOf (s : State) (t : Thread) : Option Parsed :=
  let q := match t.packet with
    | some p => some p
    | none => (match (s.fetchPacket t (packetAddr t.pc)).1 with
      | .error _ => none
      | .ok p => some p)
  match q with
  | none => none
  | some p =>
    let b := parseBundle p t.pc
    if b.form then none else some b

/-! ### The first-attempt checks of a stamped thread (R57-R60) -/

def isMigr : Instr → Bool
  | .migr _ => true
  | .migrHome _ => true
  | _ => false
def isBar : Instr → Bool
  | .bar _ => true
  | _ => false

/-- DETAIL of FRAME_OVERRUN but for its kind. -/
def stampDetail : Option W32 → Nat
  | some w => 2 ^ 21 + wordField w 0 21
  | none => 0

/-- The cause and DETAIL of a failed first-attempt check; z is %cycle. -/
def Thread.firstCheck (t : Thread) (b : Parsed) (z : Nat) : Option (BitVec 8 × W32) :=
  let is := b.instrs
  if !t.stamped then none
  else if is.any (fun x => isMigr x.2) then some (tcMigrate, 1)
  else
    let past : Option (BitVec 8 × W32) := some (tcOverrun, BitVec.ofNat 32 (stampDetail b.stamp))
    match b.stamp with
    | none => if is.any (fun x => 3 ≤ x.1 || isBar x.2) then past else none
    | some w =>
      if t.frLen ≤ wordField w 0 20 || !t.frRun then past
      else
        match t.target with
        | some g => if g < z then past else none
        | none => none

end Sys2Proof.Machine
end

