-- ==== Sys2Proof/Machine/Condition.lean ====
section
/-! DEFINITION. The conditions of a blocked thread (R34, R36), notice of completions (R301), wait edges and probes
(R272-R274). -/

namespace Sys2Proof.Machine

/-! ### Conditions -/

/-- The condition of a WAIT on a handle, for a thread that is blocked on it; a handle that would trap holds nothing
(R280, R290, R301). `seen` asks for the notice too. -/
def State.waitHolds (s : State) (t : Thread) (h : W64) (loc : Option W64) (seen : Bool) : Bool :=
  if h = 0 then true
  else
    match s.findCtx t h loc with
    | .at r f =>
      let tl := s.getTl r
      (match tl.opOf (handleSeq h) with
       | none => true
       | some n => (decide (n ≤ tl.c) || (tl.reportable t.tid n).isSome) && (!seen || s.noticed t f))
    | _ => true

/-- The condition of a TLWAIT (R304). -/
def State.tlHolds (s : State) (t : Thread) (h n : W64) (loc : Option W64) (seen : Bool) : Bool :=
  match s.findCtx t h loc with
  | .at r f => decide (n.toNat ≤ (s.getTl r).c) && (!seen || s.noticed t f)
  | _ => true

/-- The condition of a SEND: a credit, or a check that traps (R263, R267). -/
def State.sendHolds (s : State) (t : Thread) (p : Nat) : Bool :=
  let q := s.portOf t.die t.core p
  decide (q.bound ≠ some t.tid) || s.portAbsent t.die t.core p t.lid true || q.torn || decide (1 ≤ q.credits)
/-- The condition of a RECV: an envelope, or a check that traps (R262, R267). -/
def State.recvHolds (s : State) (t : Thread) (p : Nat) : Bool :=
  let q := s.portOf t.die t.core p
  decide (q.bound ≠ some t.tid) || s.portAbsent t.die t.core p t.lid false || q.torn || !q.inbox.isEmpty

/-- The condition of an instruction of the bundle that a thread is blocked on. -/
def State.condOf (s : State) (t : Thread) (seen : Bool) : Instr → Bool
  | .bar l => levelShift t.widf l.toNat = 0 ||
      (match s.arrivedAt? t .barrier l.toNat with
       | some g => g.complete
       | none => false)
  | .frame l =>
      (match s.arrivedAt? t .frame l.toNat with
       | some g => (match g.starts.find? (fun x => x.1 == t.die) with
         | some (_, z) => decide (z ≤ s.cycleReg t.die + 1)
         | none => false)
       | none => false)
  | .wait h _ a e _ => s.waitHolds t (rd t.h h.toNat) (locOf a (rd t.e e.toNat)) seen
  | .tlwait h n a e => s.tlHolds t (rd t.h h.toNat) (rd t.e n.toNat) (locOf a (rd t.e e.toNat)) seen
  | .send _ p => s.sendHolds t p.toNat
  | .recv _ p => s.recvHolds t p.toNat
  | _ => true

/-- The off-core access that a thread waits for has been answered (R208). -/
def State.offHolds (s : State) (t : Thread) : Bool :=
  match t.offReq.bind s.getReq? with
  | some r => s.answered t r
  | none => true

/-- Every condition of the bundle that a thread is blocked on holds (R34). -/
def State.conditionHolds (s : State) (t : Thread) : Bool :=
  s.offHolds t &&
  (match s.bundleOf t with
   | some b => b.instrs.all (fun x => s.condOf t true x.2)
   | none => true)

/-- A WAIT or TLWAIT on a context of another core or die. -/
def State.foreignWait (s : State) (t : Thread) : Instr → Bool
  | .wait h _ a e _ =>
      (match s.findCtx t (rd t.h h.toNat) (locOf a (rd t.e e.toNat)) with
       | .at _ f => f && rd t.h h.toNat != 0
       | _ => false)
  | .tlwait h _ a e =>
      (match s.findCtx t (rd t.h h.toNat) (locOf a (rd t.e e.toNat)) with
       | .at _ f => f
       | _ => false)
  | _ => false

/-- Notices set out to the threads of a die whose foreign operations are complete (R301); they take a free time. -/
def State.noticeHouse (s : State) (d : Nat) : State :=
  (s.allThreads.filter (fun t => t.die == d && t.st == .blocked && t.notice == 0)).foldl (fun a t =>
    match a.bundleOf t with
    | none => a
    | some b =>
      if b.instrs.any (fun x => a.foreignWait t x.2 && a.condOf t false x.2) then
        let r := (a.setThread { t with notice := 1 }).freeDelay
        r.2.schedIn d (r.1 + 1) 0 (.completionNotice t.tid)
      else a) s

/-! ### Wait edges (R272) -/

/-- The N instruction of a bundle that waits on a port: the port, and whether it is a SEND. -/
def portWait : Instr → Option (Nat × Bool)
  | .send _ p => some (p.toNat, true)
  | .recv _ p => some (p.toNat, false)
  | _ => none

/-- The SEND or RECV of the bundle that a thread stands at. -/
def State.portWaitOf (s : State) (t : Thread) : Option (Nat × Bool) :=
  (s.bundleOf t).bind (fun b => b.instrs.findSome? (fun x => portWait x.2))

/-- The thread that a blocked thread waits for, and whether on a SEND (R272). -/
def State.waitEdge (s : State) (t : Thread) : Option (Nat × Bool) :=
  if t.st ≠ .blocked || t.stamped || !s.offHolds t then none
  else
    match s.bundleOf t with
    | none => none
    | some b =>
      match b.instrs.findSome? (fun x => portWait x.2) with
      | none => none
      | some (p, snd) =>
        let others := b.instrs.all (fun x => (portWait x.2).isSome || s.condOf t true x.2)
        let own := if snd then s.sendHolds t p else s.recvHolds t p
        let here : PortRef := ⟨t.die, t.core, p, 0⟩
        let flying := s.pending (if snd then isCredit here else isEnvelope here)
        if !others || own || flying then none
        else
          match (if snd then s.farEnd t.die t.core p else s.feeder t.die t.core p) with
          | none => none
          | some r => ((s.portOf r.die r.core r.port).bound).map (fun u => (u, snd))

/-- The members of the cycle through `origin`, from thread `cur` on: each with whether it waits on a SEND. At most 32
are recorded (R273). -/
def State.walkEdges (s : State) (origin : Nat) : Nat → Nat → List (Nat × Bool) → Option (List (Nat × Bool))
  | 0, _, _ => none
  | fuel + 1, cur, seen =>
    match (s.getThread? cur).bind s.waitEdge with
    | none => none
    | some (nxt, snd) =>
      let seen' := seen ++ [(cur, snd)]
      if nxt = origin then some seen'
      else if seen'.any (fun m => m.1 == nxt) then none
      else s.walkEdges origin fuel nxt seen'

/-- The key (die, core, turn) of R274 as a number, and the entry of a member. A spilled one holds no turn, and its key has the one it held last (log 114,
DESIGN CHOICE). -/
def State.memberKey (s : State) (tid : Nat) : Nat :=
  match s.getThread? tid with
  | some t => s.logDie t.part t.die * 2 ^ 12 + t.core * 2 ^ 4 + t.turn * 2
  | none => 0
def State.memberEntry (s : State) (m : Nat × Bool) : BitVec 16 := BitVec.ofNat 16 (s.memberKey m.1 + bit m.2 0)

/-- A cycle from its least member on (R274). -/
def State.fromLeast (s : State) (ms : List (Nat × Bool)) : List (Nat × Bool) :=
  let least := ms.foldl (fun b m => if s.memberKey m.1 < s.memberKey b.1 then m else b) (ms.headD (0, false))
  let k := ms.idxOf least
  ms.drop k ++ ms.take k

/-- DEADLOCK of a thread (R274): n members, its own position, and the cycle list. -/
def State.deadlock (s : State) (t : Thread) (n pos : Nat) (l : BitVec 512) : State :=
  let syl : W32 := match s.bundleOf t with
    | some b => rd b.words 4
    | none => 0
  s.trapThread { t with dlk := none, stale := (t.stale || t.spilled.isSome) }
    { cause := tcDeadlock, slot := 4, detail := BitVec.ofNat 32 (n + pos * 2 ^ 16), addr := l.extractLsb' 0 64, syl := syl }
    t.pc false none l

/-- PROBE_LAUNCH (R273): the count of a blocked RECV reaches 65,536, and the probe takes a free time. -/
def execProbeLaunch (tid : Nat) (s : State) : Out :=
  match s.getThread? tid with
  | none => .next s
  | some t =>
    if t.st ≠ .blocked then .next s
    else
      let r := s.freeDelay
      .next (r.2.schedIn t.die (r.1 + 1) rankLate (.probe tid))

/-- PROBE (R273): both passes at one moment. Every member of a confirmed cycle takes DEADLOCK, a spilled one at once
and a resident one at its next issue cycle (log 53, DESIGN CHOICE). -/
def execProbe (tid : Nat) (s : State) : Out :=
  match s.getThread? tid with
  | none => .next s
  | some t =>
    if t.st ≠ .blocked || t.dlk.isSome || s.cyc t.die < t.recvFrom + 65536 then .next s
    else
      match s.walkEdges tid 32 tid [] with
      | none => .next s
      | some ms =>
        if ms.any (fun m => ((s.getThread? m.1).bind (·.dlk)).isSome) then .next s
        else
          let order := s.fromLeast ms
          let l : BitVec 512 := packElems 512 16 (fun i => ((order[i]?).map s.memberEntry).getD 0) 32
          .next (order.zipIdx.foldl (fun a m =>
            match a.getThread? m.1.1 with
            | none => a
            | some u =>
              if u.spilled.isSome && !u.spilling then a.deadlock u order.length m.2 l
              else a.setThread { u with dlk := some (order.length, m.2, l) }) s)

/-- The probes that the threads of a die launch in this cycle (R273). -/
def State.probeHouse (s : State) (d : Nat) : State :=
  let c := s.cyc d
  let ts := s.allThreads.filter (fun t => t.die == d && t.st == .blocked && !t.stamped && t.dlk.isNone &&
    decide (c = t.recvFrom + 65536) && ((s.portWaitOf t).map (·.2) == some false))
  ts.foldl (fun a t => a.schedIn d 0 rankLate (.probeLaunch t.tid)) s

end Sys2Proof.Machine
end

