-- ==== Sys2Proof/Machine/Image.lean ====
section
/-! DEFINITION. Images in die memory (R429): their bytes, the thread image (R430-R433), and reading one back. -/

namespace Sys2Proof.Machine

/-! ### Images as bytes -/

/-- The nonzero bytes of an image of n bytes, with their offsets from `off`. -/
def imageBytes {w : Nat} (off n : Nat) (v : BitVec w) : List (Nat × Byte) :=
  (List.range n).filterMap (fun i => let b : Byte := elem 8 v i; if b = 0 then none else some (off + i, b))

/-- The rest of the page at a virtual address of a save area or a spill pool, which is placed die memory (R429): its
length, and the key of its first byte. A striped page is taken a KiB at a time. -/
def State.areaRun (s : State) (p : Partition) (va : Nat) : Nat × Option Nat :=
  match s.freshWalk p (BitVec.ofNat 64 va) with
  | .leaf pte lv =>
    let size := if pteP pte then 2 ^ (12 + 9 * lv) else 1024
    (size - va % size,
      if pteH pte then none
      else (s.physAt p (pteP pte) (leafPhys pte lv (BitVec.ofNat 64 va))).map (fun x => logKey p x.1 x.2))
  | .fail _ => (4096 - va % 4096, none)

/-- The mapped parts of the n bytes at a virtual address, page by page: offset from `off`, length and key. -/
def State.areaParts (s : State) (p : Partition) (va off n : Nat) : Nat → List (Nat × Nat × Nat)
  | 0 => []
  | fuel + 1 =>
    if n = 0 then []
    else
      let r := s.areaRun p va
      let len := Nat.min r.1 n
      (match r.2 with | some k => [(off, len, k)] | none => []) ++
        s.areaParts p (va + len) (off + len) (n - len) fuel

/-- Write an image of n bytes at a virtual address: everything zero but the listed bytes. -/
def State.writeImage (s : State) (p : Partition) (va n : Nat) (bytes : List (Nat × Byte)) : State :=
  (s.areaParts p va 0 n (n / 1024 + 2)).foldl (fun a x =>
    a.splice x.2.2 x.2.1 (bytes.filterMap (fun b => if x.1 ≤ b.1 && b.1 < x.1 + x.2.1 then some (b.1 - x.1, b.2) else none))) s

/-- The listed bytes of the n bytes at a virtual address, with their offsets. -/
def State.readImage (s : State) (p : Partition) (va n : Nat) : List (Nat × Byte) :=
  (s.areaParts p va 0 n (n / 1024 + 2)).flatMap (fun x =>
    (s.mem.filter (fun c => decide (x.2.2 ≤ c.1) && decide (c.1 < x.2.2 + x.2.1))).map
      (fun c => (x.1 + (c.1 - x.2.2), c.2)))

/-- The listed bytes of a part of an image, by offset in the part. -/
def imagePart (l : List (Nat × Byte)) (off n : Nat) : List (Nat × Byte) :=
  (l.filter (fun b => decide (off ≤ b.1) && decide (b.1 < off + n))).map (fun b => (b.1 - off, b.2))

/-- Their number, little-endian (R3). -/
def imageNum (l : List (Nat × Byte)) (off n : Nat) : Nat :=
  (imagePart l off n).foldl (fun v b => v + b.2.toNat * 256 ^ b.1) 0

/-! ### The thread image (R430-R433) -/

/-- Long results that a snapshot entry holds, in ascending register order, x before v, each with REM (R433). -/
def Thread.snapshots (t : Thread) : List (Long × Nat) :=
  let live := (t.longs.filter (fun g => !g.cancelled)).map (fun g => (g, if g.latched then g.left else g.left - 1))
  let key := fun (g : Long) => g.file.code * 32 + g.reg
  (live.mergeSort (fun a b => decide (key a.1 ≤ key b.1))).take 4

/-- The tag of a snapshot entry (R433). -/
def snapTag (g : Long) (rem : Nat) : Nat :=
  g.flags.toNat * 2 ^ 16 + rem * 2 ^ 8 + (match g.file with | .x => 0 | .v => 1) * 2 ^ 5 + g.reg

/-- TARGET of the header (R431): the frame number and position of a fixed stamp target. -/
def Thread.targetWord (t : Thread) : Nat :=
  match t.target with
  | some z => 2 ^ 31 + (t.frameAt z).1 * 2 ^ 20 + (t.frameAt z).2
  | none => 0

def ThreadState.imageCode : ThreadState → Nat
  | .blocked => 1
  | .trapped => 2
  | _ => 0

/-- BIND of the system area: ports bound, and ownership of the engines (R432). -/
def State.bindWord (s : State) (t : Thread) : Nat :=
  let k := s.getCore t.die t.core
  (List.range 8).foldl (fun a p => a + bit ((k.ports[p]?.getD Port.init).bound == some t.tid) p) 0 +
    bit (k.mat.owner == some t.tid) 8

/-- The 6,144-byte image of a thread (R430-R432); z is %cycle of the first cycle that was not executed. -/
def State.threadImage (s : State) (t : Thread) (z : Nat) : BitVec 49152 :=
  let n := 49152
  let f32 := fun (off v : Nat) => place n off (BitVec.ofNat 32 v)
  let file := fun (off w k : Nat) (g : Nat → Nat) =>
    (List.range k).foldl (fun (a : BitVec 49152) i => a ||| place n (off + w / 8 * i) (BitVec.ofNat w (g i))) 0
  let snaps := t.snapshots
  let head := place n 0 t.pc ||| place n 8 (BitVec.ofNat 64 z) ||| place n 0x10 t.wid |||
    place n 0x18 (t.frameReg (z - 1)) ||| place n 0x1C t.rnd ||| place n 0x20 t.fflags ||| place n 0x24 t.seed |||
    f32 0x28 t.targetWord ||| place n 0x2C t.c ||| place n 0x2E (BitVec.ofNat 8 t.turn) |||
    place n 0x2F (BitVec.ofNat 8 (t.st.imageCode + bit t.stamped 2 + bit t.priv.isSys 3)) |||
    place n 0x30 (BitVec.ofNat 64 t.frStart) ||| f32 0x38 (if t.vkept = 0 then t.vdly else t.vkept) ||| f32 0x3C (2 ^ snaps.length - 1)
  let files := file 0x40 32 32 (fun i => if i = 0 then 0 else (rd t.x i).toNat) |||
    file 0xC0 64 16 (fun i => (rd t.a i).toNat) |||
    file 0x140 64 8 (fun i => if i = 0 then 2 ^ 64 - 1 else (rd t.k i).toNat) |||
    file 0x180 256 8 (fun i => (rd t.q i).toNat) ||| file 0x280 64 8 (fun i => (rd t.e i).toNat) |||
    file 0x2C0 64 8 (fun i => (rd t.h i).toNat) ||| file 0x800 2048 16 (fun i => (rd t.v i).toNat)
  let snapPart := snaps.zipIdx.foldl (fun (a : BitVec 49152) x =>
    let v : VReg := match x.1.1.file with
      | .x => (x.1.1.value.setWidth 32).setWidth 2048
      | .v => x.1.1.value
    a ||| place n (0x300 + 256 * x.2) v ||| f32 (0x7F0 + 4 * x.2) (snapTag x.1.1 x.1.2)) 0
  let sys := file 0x700 32 6 (fun i => (rd t.ext i).toNat) ||| f32 0x718 (t.frLen % 2 ^ 20) |||
    file 0x720 32 8 (fun i => (rd t.dscale i).toNat) ||| file 0x740 32 2 (fun i => (rd t.lc i).toNat) |||
    file 0x748 64 4 (fun i => (if i % 2 = 0 then rd t.ls (i / 2) else rd t.le (i / 2)).toNat) |||
    place n 0x768 t.tvec ||| place n 0x76C t.tcause ||| place n 0x770 t.tpc ||| place n 0x778 t.trec |||
    f32 0x77C (s.bindWord t) ||| place n 0x780 (BitVec.ofNat 64 t.rc.c) ||| place n 0x788 (BitVec.ofNat 64 t.rc.i) |||
    place n 0x790 t.rc.recImage
  head ||| files ||| snapPart ||| sys

/-! ### Where an image lies -/

/-- Where the image of a spilled thread lies, as a virtual address: in its slot of the pool, or in the core image of the save
area of an evicted partition (R429, R436). -/
def State.poolAddr (s : State) (t : Thread) (slot : Nat) : Option (Partition × Nat) :=
  (s.getPart? t.part).bind (fun p =>
    (p.pools.find? (fun q => q.1 == s.logDie t.part t.die)).map (fun q =>
      (p, if slot = saveSlot then q.2.2.toNat + 442368 * t.core + 6144 * t.turn else q.2.1.toNat + 6144 * slot)))

/-! ### Reading an image back (R433, R442) -/

/-- An image of n bytes as a number's bits. -/
def State.loadImage (s : State) (p : Partition) (va n w : Nat) : BitVec w := BitVec.ofNat w (imageNum (s.readImage p va n) 0 n)

/-- Register i of w bits of a file at an offset of an image. -/
def imageReg {n : Nat} (img : BitVec n) (off w i : Nat) : BitVec w := img.extractLsb' (8 * off + w * i) w

/-- A fault record from its 96 bytes (R287); the number and the thread are those that its handle and its WID name. -/
def FaultRec.ofImage (r : BitVec 768) (num tid : Nat) : Option FaultRec :=
  if !r.getLsbD 24 then none
  else some {
    cause := imageReg r 0 8 0, cls := imageReg r 1 8 0, turn := imageReg r 2 8 0, reported := r.getLsbD 25, more := r.getLsbD 26
    syl := imageReg r 4 32 0, pc := imageReg r 8 64 0, wid := imageReg r 0x10 64 0, handle := imageReg r 0x18 64 0
    op0 := imageReg r 0x20 64 0, op1 := imageReg r 0x28 64 0, op2 := imageReg r 0x30 64 0, op3 := imageReg r 0x38 64 0
    progress := imageReg r 0x40 64 0, faddr := imageReg r 0x48 64 0, cycle := imageReg r 0x50 64 0, loc := imageReg r 0x58 32 0
    detail := imageReg r 0x5C 32 0, flags := 0, num := num, tid := tid, cmd := 0 }

/-- A context from its counters and its record. One that the image leaves as it was keeps what an image has no place for:
the numbers completed above C, and the held entries. -/
def Timeline.ofImage (old : Timeline) (c i : Nat) (r : BitVec 768) (who : W64 → Nat) : Timeline :=
  if c = old.c && i = old.i && r = old.recImage then old
  else
    let t : Timeline := { c := c, i := i, done := [], frec := none, held := [], rel := old.rel }
    let seq := (imageReg r 0x18 48 0).toNat
    { t with frec := FaultRec.ofImage r ((t.opOf seq).getD 0) (who (imageReg r 0x10 64 0)) }

/-- A long result from entry k of the snapshot area (R433). `held` is its standing in an entry until the thread resumes or
its handler returns; else it lands REM rotations after the next bundle. -/
def longOfImage (img : BitVec 49152) (held : Bool) (k : Nat) : Long :=
  let tag := imageReg img 0x7F0 32 k
  let rem := (tag.extractLsb' 8 3).toNat
  { file := if tag.getLsbD 5 then .v else .x, reg := (tag.extractLsb' 0 5).toNat
    value := imageReg img 0x300 2048 k, left := if held then rem else rem + 1, flags := tag.extractLsb' 16 7
    latched := held, snap := false, cancelled := false }

/-- A thread from its image (R430 to R433); `old` gives what no field of the image holds: its launch and identity, its
groups' standing and its priority (log 105, DESIGN CHOICE). -/
def Thread.ofImage (img : BitVec 49152) (old : Thread) : Thread :=
  let w32 := fun (off : Nat) => imageReg img off 32 0
  let w64 := fun (off : Nat) => imageReg img off 64 0
  let st := (imageReg img 0x2F 8 0)
  let code := (st.extractLsb' 0 2).toNat
  let z := (w64 8).toNat
  let fr := w32 0x18
  let flen := if w32 0x718 = 0 then 2 ^ 20 else (w32 0x718).toNat
  let num := (fr.extractLsb' 20 11).toNat
  let pos := (fr.extractLsb' 0 20).toNat
  let frZ := (z - 1) / 8 * 8
  let turn := (imageReg img 0x2E 3 0).toNat
  let tg := w32 0x28
  let ahead := ((tg.extractLsb' 20 11).toNat + 2048 - num) % 2048 * flen + (tg.extractLsb' 0 20).toNat
  let tc := w32 0x76C
  let held := decide (code = 2) || tc.getLsbD 31
  let vd := (w32 0x38).toNat % 8
  { old with
    pc := w64 0, wid := w64 0x10, rnd := w32 0x1C, fflags := w32 0x20, seed := w32 0x24, c := imageReg img 0x2C 8 0, turn := turn
    st := (if code = 1 then .blocked else if code = 2 then .trapped else .running), stamped := st.getLsbD 2
    priv := if st.getLsbD 3 then (if old.priv.isSys then old.priv else .system) else .user
    frRun := fr.getLsbD 31, frNum := num, frOff := pos, frZ := frZ, frStart := (w64 0x30).toNat, frLen := flen
    target := if tg.getLsbD 31 then some (frZ + 8 * ahead - 8 * pos + turn) else none
    vdly := if held then 0 else vd, vkept := if held then vd else 0
    x := wr (Vector.ofFn (fun i => imageReg img 0x40 32 i.val)) 0 0, a := Vector.ofFn (fun i => imageReg img 0xC0 64 i.val)
    k := wr (Vector.ofFn (fun i => imageReg img 0x140 64 i.val)) 0 0, q := Vector.ofFn (fun i => imageReg img 0x180 256 i.val)
    e := Vector.ofFn (fun i => imageReg img 0x280 64 i.val), h := Vector.ofFn (fun i => imageReg img 0x2C0 64 i.val)
    v := Vector.ofFn (fun i => imageReg img 0x800 2048 i.val), ext := Vector.ofFn (fun i => imageReg img 0x700 32 i.val)
    dscale := Vector.ofFn (fun i => imageReg img 0x720 32 i.val), lc := Vector.ofFn (fun i => imageReg img 0x740 32 i.val)
    ls := Vector.ofFn (fun i => imageReg img 0x748 64 (2 * i.val)), le := Vector.ofFn (fun i => imageReg img 0x748 64 (2 * i.val + 1))
    tvec := w32 0x768, tcause := tc, tpc := w64 0x770, trec := w32 0x778
    longs := ((List.range 4).filter (fun k => (w32 0x3C).getLsbD k)).map (longOfImage img held)
    rc := Timeline.ofImage old.rc (w64 0x780).toNat (w64 0x788).toNat (imageReg img 0x790 768 0) (fun _ => old.tid)
    rcOps := [], rcStores := 0, offReq := none, packet := none, again := false, notice := 0, reportedOne := false, stale := false
    undefs := old.undefs + 16 }

/-- What a spilled thread reads back: an image that is the one its context gives leaves it as it is. -/
def State.reload (s : State) (t : Thread) (img : BitVec 49152) : Thread :=
  let z := (imageReg img 8 64 0).toNat
  if img = s.threadImage t z then t else Thread.ofImage img t

/-- A thread spilled to a slot of the pool reads its image back, from an area that is mapped (R433). -/
def State.reloadPool (s : State) (t : Thread) : Thread :=
  match t.spilled.bind (s.poolAddr t) with
  | none => t
  | some (p, va) =>
    if ((s.areaParts p va 0 6144 8).map (·.2.1)).foldl (· + ·) 0 < 6144 then t
    else { s.reload t (s.loadImage p va 6144 49152) with turn := t.turn }

/-- The image of a thread in its slot of the pool is written again, because its saved context has changed (R122). -/
def State.resave (s : State) (t : Thread) : State :=
  let s1 := s.setThread { t with stale := false }
  match (if t.spilling then none else t.spilled.bind (s.poolAddr t)) with
  | some (p, va) => s1.writeImage p va 6144 (imageBytes 0 6144 (s.threadImage t (s.loadImage p (va + 8) 8 64 : W64).toNat))
  | none => s1

end Sys2Proof.Machine
end

