-- ==== Sys2Proof/Machine/Task.lean ====
section
/-! DEFINITION. The task engine (R27-R42, R356-R380): launches, placement, task records, dispatch, stealing, triggers,
migration, and the release and scrub of buffers (R37, R261, R264). -/

namespace Sys2Proof.Machine

/-! ### Turns and new threads -/

/-- A thread occupies its turn (R32): not once it is spilled, exited, or has left by MIGR. -/
def Thread.occupies (t : Thread) : Bool :=
  t.st ≠ .exited && (t.spilled.isNone || t.spilling) && !(t.st = .moving && t.dest.isNone)

/-- The free turns of a core, lowest first. -/
def State.freeTurns (s : State) (d c : Nat) : List Nat :=
  let us := s.allThreads.filter (fun t => t.die == d && t.core == c && t.occupies)
  (List.range 8).filter (fun k => !us.any (fun t => t.turn == k))

/-- Frame length of a frame word: 0 encodes 2^20 (R54). -/
def frameLen (fw : W64) : Nat := if fw.extractLsb' 0 20 = 0 then 2 ^ 20 else (fw.extractLsb' 0 20).toNat

/-- A thread of a launch at its start, every register zero (R80), in the launch's mode, privilege and priority. -/
def Launch.thread (l : Launch) (tid d c turn : Nat) (wid : W64) (ext : RegFile 6 32) (x : RegFile 32 32) (pc : W64) :
    Thread :=
  { Thread.init with
    tid := tid, lid := l.lid, part := l.part, die := d, core := c, turn := turn, st := .running
    priv := if l.flags.getLsbD 1 then .system else .user
    stamped := l.flags.getLsbD 0
    prio := (l.flags.extractLsb' 2 2).toNat
    x := x, pc := pc, wid := wid, widf := l.fields, ext := ext, frLen := frameLen l.framew }

/-! ### The launch header (R27-R30, R356-R359) -/

def Launch.dieSet (l : Launch) : BitVec 16 := l.place.extractLsb' 0 16
def Launch.row0 (l : Launch) : Nat := (l.place.extractLsb' 16 8).toNat
def Launch.col0 (l : Launch) : Nat := (l.place.extractLsb' 24 8).toNat
def Launch.rows (l : Launch) : Nat := (l.place.extractLsb' 32 8).toNat
def Launch.cols (l : Launch) : Nat := (l.place.extractLsb' 40 8).toNat
/-- Logical dies of the set, ascending. -/
def Launch.logDies (l : Launch) : List Nat := (List.range 16).filter (fun d => l.dieSet.getLsbD d)
/-- Fields of a placement code, ascending. -/
def placedFields (f : W64) (code : Nat) : List Nat := (List.range 6).filter (fun i => fieldPlace f i == code)
/-- Threads of a core: 2^w for a TURN field of width w, else 1 (R358). -/
def Launch.turns (l : Launch) : Option Nat :=
  match placedFields l.fields 1 with
  | [] => none
  | i :: _ => some (2 ^ fieldWidth l.fields i)

/-- The largest value that a field takes at launch (R28, R29). -/
def Launch.maxValue (l : Launch) (i : Nat) : Nat :=
  match fieldPlace l.fields i with
  | 1 => 2 ^ fieldWidth l.fields i - 1
  | 2 =>
    match placedFields l.fields 2 with
    | [_] => l.rows * l.cols - 1
    | j :: _ => if i = j then l.cols - 1 else l.rows - 1
    | [] => 0
  | 3 => l.logDies.length - 1
  | 4 => l.chip.toNat
  | _ => 0

/-- The first reason of R359 that rejects a header, 0 for none. -/
def Launch.reject (l : Launch) (reserved : Bool) (dieCount : Nat) : Nat :=
  let f := l.fields
  let w64 := f.getLsbD 63
  let w64f := (f.extractLsb' 60 3).toNat
  let sum := levelShift f 6
  let placed := (List.range 6).filter (fun i => 1 ≤ fieldPlace f i && fieldPlace f i ≤ 4)
  if 64 < sum || (w64 && (f.extractLsb' 0 36 ≠ 0 || 5 < w64f)) || (!w64 && w64f ≠ 0) then 1
  else if (List.range 6).any (fun i => 6 ≤ fieldPlace f i) || 1 < (placedFields f 1).length ||
      (placedFields f 1).any (fun i => 3 < fieldWidth f i) || 2 < (placedFields f 2).length ||
      1 < (placedFields f 3).length || 1 < (placedFields f 4).length then 2
  else if placed.any (fun i => 2 ^ fieldWidth f i ≤ l.maxValue i) then 3
  else if placed.any (fun i => rd l.tile i = 0) then 4
  else if l.dieSet = 0 || l.logDies.any (fun d => dieCount ≤ d) then 5
  else if l.rows = 0 || l.cols = 0 || 16 < l.row0 + l.rows || 16 < l.col0 + l.cols then 6
  else if reserved then 7
  else if l.entry.extractLsb' 0 2 ≠ 0 || l.done.extractLsb' 0 3 ≠ 0 then 8
  else 0

/-- Reserved bits of a header's words (R7): the FIELDS word, FLAGS, PLACE, FRAMEW and the last 8 bytes. -/
def headerReserved (h : BitVec 1024) : Bool :=
  let f : W64 := h.extractLsb' 128 64
  f.extractLsb' 54 6 ≠ 0 || h.extractLsb' (0x3C * 8 + 4) 28 ≠ 0 || h.extractLsb' (0x40 * 8 + 48) 16 ≠ 0 ||
  h.extractLsb' (0x48 * 8 + 48) 16 ≠ 0 || h.extractLsb' (0x48 * 8 + 20) 12 ≠ 0 || h.extractLsb' (0x78 * 8) 64 ≠ 0

/-- The launch with the fields of its 128-byte header (R356). -/
def Launch.withHeader (l : Launch) (h : BitVec 1024) : Launch :=
  { l with
    entry := h.extractLsb' 0 64, fields := h.extractLsb' (0x10 * 8) 64
    ext := Vector.ofFn (fun i => h.extractLsb' ((0x18 + 4 * i.val) * 8) 32)
    tile := Vector.ofFn (fun i => h.extractLsb' ((0x30 + 2 * i.val) * 8) 16)
    flags := h.extractLsb' (0x3C * 8) 32, place := h.extractLsb' (0x40 * 8) 64
    framew := h.extractLsb' (0x48 * 8) 64
    xinit := Vector.ofFn (fun i => h.extractLsb' ((0x50 + 4 * i.val) * 8) 32)
    done := h.extractLsb' (0x70 * 8) 64 }

/-- The value that field i takes for a thread (R28). -/
def Launch.fieldValue (l : Launch) (dieRank c turn i : Nat) : Nat :=
  let row := c / 16 - l.row0
  let col := c % 16 - l.col0
  match fieldPlace l.fields i with
  | 1 => turn
  | 2 =>
    match placedFields l.fields 2 with
    | [_] => row * l.cols + col
    | j :: _ => if i = j then col else row
    | [] => 0
  | 3 => dieRank
  | 4 => l.chip.toNat
  | _ => 0

/-- The identifier of a thread (R27, R28) and its extents (R30). -/
def Launch.widOf (l : Launch) (dieRank c turn : Nat) : W64 :=
  (List.range 6).foldl (fun a i =>
    a ||| (BitVec.ofNat 64 (l.fieldValue dieRank c turn i) <<< levelShift l.fields i)) 0
def Launch.extOf (l : Launch) (dieRank c turn : Nat) : RegFile 6 32 :=
  Vector.ofFn (fun i =>
    let e := (rd l.ext i.val).toNat
    let t := (rd l.tile i.val).toNat
    if 1 ≤ fieldPlace l.fields i.val && fieldPlace l.fields i.val ≤ 4 then
      BitVec.ofNat 32 (Nat.min t (e - l.fieldValue dieRank c turn i.val * t))
    else rd l.ext i.val)

/-! ### FANOUT (R359-R362, R377) -/

/-- A launch that FANOUT or the start stub of a command begins: number n of context 8 of a die (R367). -/
def State.newLaunch (s : State) (part fanDie n : Nat) (i : Issue) (hdr : W64) (chip : BitVec 16) (cid : Option Nat)
    (deps : List (Nat × Nat)) : Nat × State :=
  let l : Launch := { lid := s.nextId, part := part, hdr := hdr, entry := 0, fields := 0, ext := Vector.replicate 6 0,
                      tile := Vector.replicate 6 0, flags := 0, place := 0, framew := 0, xinit := Vector.replicate 8 0,
                      done := 0, chip := chip, fanDie := fanDie, fanNum := n, fanIss := i, accepted := false, owed := 0,
                      rejected := 0, reached := [], pending := [], placed := [], finished := false, killed := none,
                      cid := cid, deps := deps, trigLevels := 0 }
  let s1 := { s with nextId := s.nextId + 1, launches := s.launches ++ [l] }
  if deps.isEmpty then
    let r := s1.freeDelay
    (l.lid, r.2.schedIn fanDie (r.1 + 1) rankEngine (.fanoutHeaderRead l.lid))
  else (l.lid, s1)

/-- The command whose start stub a thread is (R360). -/
def State.stubCmd? (s : State) (t : Thread) : Option Cmd :=
  if t.stub then s.cmds.find? (fun c => c.stub == some t.tid) else none

/-- A launch that a start stub has begun takes its place among those of its command. -/
def Cmd.begun (c : Cmd) (lid : Nat) : Cmd := { c with stub := none, lids := updFirst (· == 0) (fun _ => lid) c.lids }

/-- FANOUT (R377): PRIVILEGE at user privilege, ALIGN for a header address that is not a multiple of 128 (log 85, DEDUCED). -/
def execFanout (h : BitVec 3) (x : BitVec 5) (a : BitVec 4) (s : State) : Out :=
  if !s.pre.priv.isSys then .next (s.noPriv 4)
  else
    let hdr := s.ra a.toNat
    if hdr.extractLsb' 0 7 ≠ 0 then .next (s.trapSyl .trap 4 tcAlign 0 hdr)
    else
      let d := s.pre.die
      let ref := TlRef.task d 8
      let n := (s.getTl ref).next
      let s1 := s.setTl ref (s.getTl ref).issue
      let i := s1.issueInfo n 4 hdr 0 0 0
      let c := s.stubCmd? s.pre
      let r := s1.newLaunch (s.partOf s.pre) d n i hdr ((s.rx x.toNat).extractLsb' 0 16) (c.map (·.cid))
        ((c.map (·.deps')).getD [])
      let s2 := match c with
        | some c => r.2.setCmd (c.begun r.1)
        | none => r.2
      .next (s2.wh h.toNat (mkHandle 5 8 s.pre.turn n))

/-- What the TRIGs and EXITs of a launch have released (R145, R371): writes that some die cannot see yet. -/
def State.releasedBy (s : State) (lid : Nat) : List Nat :=
  let gone := match s.getLaunch? lid with
    | some l => if l.finished then l.fanIss.after else []
    | none => []
  s.liveIds (gone ++ (s.allThreads.filter (fun t => t.lid == lid)).flatMap (fun t =>
    if t.st = .exited then t.seen ++ t.overIds else t.trigIds))

/-- The 8-byte atomic add at a launch's DONE word (R359, R363), made at the word's home with system privilege: whether it
has been made, or needs none. It is a release of what the launch's threads wrote, and waits for a page on the move. An
add whose word cannot be reached is dropped, and counts as made (log 116, DESIGN CHOICE). -/
def State.addDone (s : State) (l : Launch) (v : Nat) : Bool × State :=
  if v = 0 || l.done = 0 || l.done.extractLsb' 0 3 ≠ 0 then (true, s)
  else
    let g : Agent := ⟨l.part, l.fanDie, noCore, 0, true, 0⟩
    let host := match (s.placeOf g l.done 8 .atomic).1 with | .ok _ h => h | _ => false
    let dropped := (l.cid.bind s.getCmd?).any (·.dropped)
    -- a signal in host memory passes the I/O die: the reset of its command's function has dropped it (R449), or it is charged (R469)
    let b := if host then s.charge l.part 5 8 else (true, s)
    if host && dropped then (true, s)
    else if !b.1 then (false, s)
    else match b.2.atomicMem g l.done 8 [{ part := l.part, mask := allDies, ids := s.releasedBy l.lid }]
        (fun old => some ((old + v) % 2 ^ 64)) with
    | (.wait, _) => (false, (s.placeOf g l.done 8 .atomic).2)
    | (_, s1) => (true, s1)

/-- A launch counts as finished for dependencies (R370). -/
def State.launchOver (s : State) (lid : Nat) : Bool :=
  match s.getLaunch? lid with
  | some l => l.finished || l.rejected ≠ 0
  | none => true

/-- The command of a launch that has finished, been killed or been rejected completes (R453). -/
def State.tellCommand (s : State) (l : Launch) : State :=
  match l.cid with
  | some c => s.schedWall 0 (.commandComplete c)
  | none => s

/-- Every core of a set of dies drops its instruction cache (R74). -/
def State.dropIcache (s : State) (dies : List Nat) : State :=
  { s with cores := s.cores.map (fun k => if dies.contains k.die then { k with icache := [] } else k) }

/-- The physical dies of a launch. -/
def State.physDies (s : State) (l : Launch) : List Nat := l.logDies.filterMap (s.physDie? l.part)

/-- FANOUT_HEADER_READ (R359, R377): the header is read and checked. A header that cannot be read faults the FANOUT;
a rejected one faults it PROTECTION with the code in DETAIL and owes code × 2^32 at DONE. -/
def execFanoutHeaderRead (lid : Nat) (s : State) : Out :=
  match s.getLaunch? lid with
  | none => .next s
  | some l =>
    let ref := TlRef.task l.fanDie 8
    let g : Agent := ⟨l.part, l.fanDie, noCore, 0, false, 0⟩
    if s.heldBack l.fanIss then .next (s.schedIn l.fanDie 1 rankEngine (.fanoutHeaderRead lid))
    else
      match s.readMem g l.hdr 128 with
      | (.wait, s1) =>
        let r := s1.freeDelay
        .next (r.2.schedIn l.fanDie (r.1 + 1) rankEngine (.fanoutHeaderRead lid))
      | (.fail c a, s1) =>
        let s2 := s1.faultOp ref (s1.mkFault l.fanIss 5 8 c 0 a 0)
        .next ((s2.setLaunch { l with rejected := 256 + c.toNat, finished := true }).tellCommand l)
      | (.done v, s1) =>
        let h := BitVec.ofNat 1024 v
        let l1 := l.withHeader h
        let code := l1.reject (headerReserved h) (s1.dieCount l.part)
        if code ≠ 0 then
          let s2 := s1.faultOp ref (s1.mkFault l.fanIss 5 8 acProtection 0 0 (BitVec.ofNat 32 code))
          .next ((s2.setLaunch { l1 with rejected := code, owed := code * 2 ^ 32 }).schedIn l.fanDie 0 rankEngine
            (.launchFinish lid))
        else
          let s2 := (s1.dropIcache (s1.physDies l1)).setLaunch { l1 with accepted := true }
          .next (s2.schedIn l.fanDie 1 rankEngine (.fanoutForward lid))

/-- Cores of a launch's rectangle, by index (R361). -/
def Launch.coreAt (l : Launch) (n : Nat) : Nat := (l.row0 + n / l.cols) * 16 + l.col0 + n % l.cols
def Launch.size (l : Launch) : Nat := l.rows * l.cols
/-- The nodes that a node of the spanning tree forwards to (R361): the first core of a die also forwards to two more
dies. -/
def Launch.children (l : Launch) (x : Nat × Nat) : List (Nat × Nat) :=
  ([2 * x.2 + 1, 2 * x.2 + 2].filter (fun n => n < l.size)).map (fun n => (x.1, n)) ++
  (if x.2 = 0 then ([2 * x.1 + 1, 2 * x.1 + 2].filter (fun r => r < l.logDies.length)).map (fun r => (r, 0)) else [])
/-- Nodes that the launch can reach next: the root first. -/
def Launch.frontier (l : Launch) : List (Nat × Nat) :=
  (if l.reached.isEmpty then [(0, 0)] else l.reached.flatMap l.children).filter (fun x => !l.reached.contains x)
/-- Every core of every die is reached. -/
def Launch.allReached (l : Launch) : Bool := l.reached.length == l.logDies.length * l.size

/-- FANOUT_FORWARD (R361, R362): the launch reaches the next node of its tree, one of those that a reached node forwards
to, in an order that wall time decides. With the first core of a die it reaches the die, and every core of the rectangle
there is reserved, in index order. -/
def execFanoutForward (lid : Nat) (s : State) : Out :=
  match s.getLaunch? lid with
  | none => .next s
  | some l =>
    let q := s.freeUpTo (l.frontier.length - 1)
    match l.frontier[q.1]? with
    | none => .next s
    | some (r, n) =>
      let d := ((l.logDies[r]?).bind (q.2.physDie? l.part)).getD 0
      let s1 := if n ≠ 0 then q.2 else (List.range l.size).foldl (fun a k => a.onCore d (l.coreAt k)
        (fun c => { c with reserved := c.reserved ++ [lid] })) q.2
      let s2 := s1.setLaunch { l with reached := l.reached ++ [(r, n)], pending := l.pending ++ [(d, l.coreAt n)] }
      .next ((l.children (r, n)).foldl (fun a _ =>
        let w := a.freeDelay
        w.2.schedIn l.fanDie (w.1 + 1) rankEngine (.fanoutForward lid)) s2)

/-- A core as the first thread of a launch finds it (R261, R275, R313, R335). Channels of ports 4-7 that a pipeline has
set up stay; their credit counts start at the allowance again, which R261 says of ports 0-3 only (log 110, DESIGN CHOICE). -/
def Core.takenBy (k : Core) (lid : Nat) : Core :=
  { k with
    owner := some lid, copy := Vector.replicate 4 CopyCtx.init, mat := Matrix.init, prism := Prism.init, fwd := []
    ports := k.ports.map (fun p => { Port.init with out := p.out, inn := p.inn, allow := p.allow, credits := p.allow }) }

/-- Start stubs on a core that are blocked on the FANOUT of a launch. Such a stub does not hold its turn against the
placement that it waits for: it gives the turn up and takes another one once its handle is complete (the model's choice,
log 29, DESIGN CHOICE). -/
def State.waitingStubs (s : State) (l : Launch) (d c : Nat) : List Thread :=
  s.allThreads.filter (fun t => t.stub && t.tid == l.fanIss.tid && t.die == d && t.core == c && t.st == .blocked &&
    t.spilled.isNone)
/-- Where a stub that has given its turn up stands: in no slot of a pool. -/
def stubSlot : Nat := 4097

/-- A core can place a launch now (R362): the launch waits there, the buffers are free and scrubbed, and so are the turns it
needs. -/
def State.canPlace (s : State) (l : Launch) (d c : Nat) : Bool :=
  let k := s.getCore d c
  let free := s.freeTurns d c
  l.accepted && l.deps.isEmpty && l.pending.contains (d, c) && k.reserved.contains l.lid && k.owner.isNone &&
  !k.scrubbing &&
  (match l.turns with
   | none => !free.isEmpty
   | some n => (List.range n).all (fun t => free.contains t || (s.waitingStubs l d c).any (fun u => u.turn == t)))

/-- LAUNCH_PLACEMENT (R362, R80): all the threads of one core are placed in one cycle; the last core placed completes
the FANOUT. -/
def execLaunchPlacement (lid die core : Nat) (s : State) : Out :=
  match s.getLaunch? lid with
  | none => .next s
  | some l =>
    if !s.canPlace l die core then .next s
    else
      let rank := l.logDies.idxOf (s.logDie l.part die)
      let turns := match l.turns with
        | some n => List.range n
        | none => (s.freeTurns die core).take 1
      let x : RegFile 32 32 := (List.range 8).foldl (fun f i => wr f (i + 1) (rd l.xinit i)) (Vector.replicate 32 0)
      let ts := turns.zipIdx.map (fun p =>
        let v := if l.turns.isSome then p.1 else 0
        l.thread (s.nextId + p.2) die core p.1 (l.widOf rank core v) (l.extOf rank core v) x l.entry)
      let out := (s.waitingStubs l die core).filter (fun u => turns.contains u.turn)
      let s0 := out.foldl (fun a u => a.setThread { u with spilled := some stubSlot }) s
      let s1 := { s0 with threads := s0.threads ++ ts, nextId := s.nextId + ts.length }.onCore die core
        (fun k => { k.takenBy lid with reserved := k.reserved.filter (· != lid) })
      let l1 := { l with pending := l.pending.filter (· != (die, core)), placed := l.placed ++ [(die, core)] }
      let s2 := ts.foldl (fun a t => a.join t.tid l.fanIss.after) (s1.setLaunch l1)
      if l1.pending.isEmpty && l1.allReached then
        let s3 := s2.completeOp (.task l.fanDie 8) l.fanNum
        -- the next lower stage of a pipeline may start (R462)
        .next (match l.cid with
          | some c => s3.schedWall 0 (.pipeStageStart c)
          | none => s3)
      else .next s2

/-- A launch is over (R363): every thread has exited with its asynchronous operations complete, no record waits and no
core holds its buffers. -/
def State.launchDone (s : State) (l : Launch) : Bool :=
  l.accepted && !l.finished && l.pending.isEmpty && l.allReached &&
  s.allThreads.all (fun t => t.lid != l.lid || (t.st = .exited && !s.asyncPending t.tid)) &&
  !s.records.any (fun r => r.lid == l.lid) && !s.cores.any (fun k => k.owner == some l.lid)

/-- LAUNCH_FINISH (R359, R363): the root die adds 1 at DONE, or the code of a rejection; an add that must wait for a page
is made later. -/
def execLaunchFinish (lid : Nat) (s : State) : Out :=
  match s.getLaunch? lid with
  | none => .next s
  | some l =>
    let done := s.launchDone l
    if !done && l.owed = 0 then .next s
    else
      let r := s.addDone l (if done then 1 else l.owed)
      let ids := s.releasedBy lid
      let l1 := { l with
        fanIss := if done then { l.fanIss with after := ids } else l.fanIss, finished := l.finished || done, owed := if r.1 then 0 else if done then 1 else l.owed }
      let s1 := r.2.setLaunch l1
      let s2 := if done then
          { s1 with threads := s1.threads.filter (fun t => t.lid != lid || t.tid == s1.me.tid)
                    groups := s1.groups.filter (fun g => g.lid != lid) }
        else s1
      .next (if r.1 then s2.tellCommand l1 else s2)

/-! ### Early triggers (R369-R371, R378) -/

/-- TRIG (R378): a second one has no further effect. -/
def execTrig (s : State) : Out :=
  s.notPlugin 4 (fun s =>
    if s.me.triggered then s
    else
      let s1 := s.ordered
      { s1 with me := { s1.me with triggered := true, trigIds := s.liveIds (s.me.trigIds ++ s.covers) } })

/-- The groups of a launch at a level that have begun and are triggered now are marked, for good (R370). -/
def State.markTriggered (s : State) (pid level : Nat) : State :=
  let ts := s.allThreads.filter (fun t => t.lid == pid)
  let keys := (ts.map (fun t => groupKey t.widf t.wid level)).eraseDups
  keys.foldl (fun a key =>
    let done := (ts.filter (fun t => groupKey t.widf t.wid level == key)).all
        (fun t => t.triggered || t.st = .exited) &&
      !a.records.any (fun r => a.recInGroup r pid level key)
    let known := a.groups.any (fun g => g.kind == .trigger && g.lid == pid && g.level == level && g.key == key)
    if done && !known then
      { a with nextId := a.nextId + 1
               groups := a.groups ++ [{ gid := a.nextId, lid := pid, level := level, key := key, kind := .trigger,
                                        arrived := [], complete := true, starts := [], lastDie := 0, ids := [] }] }
    else a) s

/-- A dependency on (P, T) is satisfied (R370): every group of P at level T that has begun is marked, once P has begun,
or P is over (log 101, DEDUCED). -/
def State.depMet (s : State) (pid level : Nat) : Bool :=
  s.launchOver pid ||
  (let ts := s.allThreads.filter (fun t => t.lid == pid)
   let keys := (ts.map (fun t => groupKey t.widf t.wid level)) ++
     (s.records.filter (fun r => r.lid == pid)).map (fun r => groupKey (s.fieldsOf pid) r.wid level)
   -- the release of an EXIT follows the last asynchronous operation of the thread (R194)
   let busy := ts.any (fun t => t.st == .exited && s.asyncPending t.tid)
   !busy && !keys.isEmpty && keys.all (fun k =>
     s.groups.any (fun g => g.kind == .trigger && g.lid == pid && g.level == level && g.key == k)))

/-- DEPENDENCY_SATISFIED (R370): a launch with no dependency left is carried to its dies. What the other launch has released
happens before it (R371): the launch goes on once those writes have been applied, and every thread of it sees them. -/
def execDependencySatisfied (lid pid level : Nat) (s : State) : Out :=
  match s.getLaunch? lid with
  | none => .next s
  | some l =>
    if !l.deps.contains (pid, level) then .next s
    else
      let ids := s.releasedBy pid
      let l1 := { l with
        deps := l.deps.filter (· != (pid, level)), fanIss := { l.fanIss with after := s.liveIds (l.fanIss.after ++ ids) } }
      let s1 := (s.setLaunch l1).expedite ids
      if l1.deps.isEmpty then .next (s1.schedIn l.fanDie 1 rankEngine (.fanoutHeaderRead lid)) else .next s1

/-! ### SPAWN and task records (R364-R368, R376) -/

/-- Records and threads charged to a core's arrival list. -/
def State.listLen (s : State) (d c : Nat) : Nat := (s.getCore d c).arrivals.length

/-- The extents of a record (R364): the TASK fields take the copied registers in order. -/
def taskExt (f : W64) (ext : RegFile 6 32) (xs : List W32) : RegFile 6 32 :=
  Vector.ofFn (fun i =>
    if fieldPlace f i.val = 5 then
      (xs[(placedFields f 5).idxOf i.val]?).getD (rd ext i.val)
    else rd ext i.val)

/-- A task has arrived in a die's queue: its steal back-off is over (R41). -/
def State.queued (s : State) (d : Nat) : State :=
  s.onDie d (fun k => if k.ready.isEmpty then k else { k with stealBack := 0 })

/-- Threads that a MIGR of this cycle charges to a core's arrival list before a SPAWN of the issuing thread does (R365):
their moves are due, and their sources come first in the order of (logical die, core). -/
def State.moversFirst (s : State) (d c : Nat) : Nat :=
  let key := fun (t : Thread) => s.logDie t.part t.die * 512 + t.core
  (s.allThreads.filter (fun t => t.st == .moving && t.dest == some (d, c) && t.rcStores == 0 && decide (key t < key s.pre) &&
    s.agenda.any (fun e => e.ev == .migrationDepart t.tid && (match e.due with
      | .cycle x n _ => decide (n ≤ (s.getDie x).cyc)
      | .wall _ => true)))).length

/-- SPAWN (R376): its checks rank as cause 6, and on any failure nothing is charged. -/
def execSpawn (a : BitVec 4) (f : BitVec 5) (n y : BitVec 4) (h : BitVec 3) (d : BitVec 1) (s : State) : Out :=
  s.notPlugin 4 (fun s =>
    let direct := d == 1
    let raw := s.ra a.toNat
    let id := s.ra (a.toNat + 1)
    let core := (raw.extractLsb' 56 8).toNat
    let entry : W64 := if direct then (raw.extractLsb' 0 56).setWidth 64 else raw
    let own := s.logDie s.pre.part s.pre.die
    let ld := if y = 15 then own else y.toNat
    let l := (s.getLaunch? s.pre.lid)
    let dies : BitVec 16 := match l with | some q => q.dieSet | none => 0
    let fields := s.pre.widf
    let top := levelShift fields 6
    let trap := fun (c : BitVec 8) (det : W32) (ad : W64) => s.trapSyl .trap 4 c det ad
    if entry.extractLsb' 0 2 ≠ 0 then trap tcAlign 0 entry
    else if s.dieCount s.pre.part ≤ ld then trap tcOutside 0 0
    else if !dies.getLsbD ld then trap tcSpawn 3 0
    else if id >>> top ≠ 0 then trap tcSpawn 4 0
    else
      let pd := (s.physDie? s.pre.part ld).getD 0
      if direct && !s.coreHeld pd core s.pre.lid then trap tcPeerAbsent 0 (BitVec.ofNat 64 core)
      else if !direct && Config.readyMax ≤ (s.getDie pd).ready.length then trap tcSpawn 1 0
      else if direct && Config.arrivalMax ≤ s.listLen pd core + s.moversFirst pd core then trap tcSpawn 2 0
      else
        let xs := (List.range (n.toNat + 1)).map (fun k => s.rx (f.toNat + k))
        let t := s.pre.turn
        let ref := TlRef.task s.pre.die t
        let num := (s.getTl ref).next
        let s1 := s.setTl ref (s.getTl ref).issue
        let near := pd == s.pre.die
        let r : TaskRec := { id := s.nextId, lid := s.pre.lid, part := s.pre.part, entry := entry, wid := id,
                             xf := f.toNat, xs := xs, ext := taskExt fields s.pre.ext xs, prio := s.pre.prio,
                             since := s.cyc pd, ctxDie := s.pre.die, ctx := t, num := num, iss := s1.issueInfo num 4 raw id 0 0, here := near }
        let s2 := { s1 with nextId := s1.nextId + 1 }
        let s3 := if direct then s2.onCore pd core (fun k => { k with arrivals := k.arrivals ++ [.record r] })
                  else s2.onDie pd (fun k => { k with ready := k.ready ++ [r] })
        let s4 := if near then (if s3.groupGone r then s3.dropRecords (fun q => q.id == r.id) else s3.queued pd) else
          let q := s3.freeDelay
          q.2.schedIn pd (q.1 + 1) rankEngine (.spawnRecordArrival r.id)
        s4.wh h.toNat (mkHandle 5 t t num))

/-- SPAWN_RECORD_ARRIVAL (R365, R368): a record reaches the queue or the list that it is charged to, at the tail of its
priority. One whose group has been exited is removed there. -/
def execSpawnRecordArrival (rid : Nat) (s : State) : Out :=
  match s.records.find? (fun r => r.id == rid) with
  | none => .next s
  | some r =>
    if s.groupGone r then .next (s.dropRecords (fun q => q.id == rid))
    else
      .next { s with
        dies := s.dies.map (fun d => match d.ready.find? (fun q => q.id == rid) with
          | some q => { d with ready := d.ready.filter (fun z => z.id != rid) ++ [{ q with here := true, since := d.now }]
                               stealBack := 0 }
          | none => d)
        -- a list is served in the order of arrival (R39)
        cores := s.cores.map (fun k => { k with
          arrivals := k.arrivals.filter (keepArrival (fun q => q.id == rid)) ++ k.arrivals.filterMap (fun a => match a with
            | .record q => if q.id == rid then some (.record { q with here := true }) else none
            | .thread _ _ => none) }) }

/-! ### Dispatch (R36, R39, R40) -/

/-- A spilled thread of a core is restorable (R36): trapped ones are not, and a blocked one only once its condition
holds. -/
def State.restorable (s : State) (t : Thread) : Bool :=
  t.spilled.isSome && t.spilled != some saveSlot && !t.spilling &&
  match t.st with
  | .running => true
  | .blocked => s.conditionHolds t
  | _ => false

/-- The restorable threads of a core, oldest spill first: those that have yielded their turn to a source that still
waits for it (R380), or the others. -/
def State.restorablesOf (s : State) (yielded : Bool) (d c : Nat) : List Thread :=
  let ts := s.allThreads.filter (fun t => t.die == d && t.core == c && t.yielded == yielded && s.restorable t)
  ts.mergeSort (fun a b => decide (a.spillSeq ≤ b.spillSeq))
def State.restorables (s : State) (d c : Nat) : List Thread := s.restorablesOf false d c

/-- The first entry of a core's arrival list that has arrived. -/
def State.arrival? (s : State) (d c : Nat) : Option Arrival :=
  (s.getCore d c).arrivals.find? (fun a => match a with
    | .record r => r.here && !s.heldBack r.iss
    | .thread _ here => here)

/-- A core is eligible for a task and has a free turn (R39). -/
def State.eligible (s : State) (r : TaskRec) (d c : Nat) : Bool :=
  s.coreHeld d c r.lid && !(s.freeTurns d c).isEmpty

/-- The records of a queue in order of priority, and within a priority from the head (R39, R40). -/
def byPriority (q : List TaskRec) : List TaskRec :=
  let at' := fun p => q.filter (fun r => r.here && r.prio == p)
  at' 3 ++ at' 2 ++ at' 1 ++ at' 0

/-- The eligible core with the fewest occupied turns, ties to the lower core number (R39). -/
def State.bestCore (s : State) (r : TaskRec) (d : Nat) : Option Nat :=
  let cs := (s.cores.filter (fun k => k.die == d && s.eligible r d k.core)).map (fun k => (k.core, (s.freeTurns d k.core).length))
  (cs.foldl (fun (b : Option (Nat × Nat)) x => match b with
    | none => some x
    | some y => if y.2 < x.2 || (x.2 = y.2 && x.1 < y.1) then some x else some y) none).map (·.1)

/-- The ready-queue task that the engine takes next, with its core (R39). -/
def State.nextTask (s : State) (d : Nat) : Option (TaskRec × Nat) :=
  (byPriority (s.getDie d).ready).findSome? (fun r => if s.heldBack r.iss then none else (s.bestCore r d).map (fun c => (r, c)))

/-- A task of the die's queue waits for which a core is eligible (R39, R380). -/
def State.wantsCore (s : State) (d c : Nat) : Bool :=
  (s.getDie d).ready.any (fun r => r.here && !s.heldBack r.iss && s.coreHeld d c r.lid)

/-- A thread starts from a record (R80, R364): its SPAWN completes (R367). -/
def State.startTask (s : State) (r : TaskRec) (d c turn : Nat) : State :=
  match s.getLaunch? r.lid with
  | none => s
  | some l =>
    let x := (r.xs.zipIdx).foldl (fun (f : RegFile 32 32) p => if r.xf + p.2 = 0 then f else wr f (r.xf + p.2) p.1)
      (Vector.replicate 32 0)
    let t := { l.thread s.nextId d c turn r.wid r.ext x r.entry with prio := (l.flags.extractLsb' 2 2).toNat }
    let s1 := { s with nextId := s.nextId + 1, threads := s.threads ++ [t] }.join t.tid r.iss.after
    s1.completeOp (.task r.ctxDie r.ctx) r.num

/-- THREAD_RESTORE (R36, R433): a spilled thread reads its image back and takes a turn of its core, its pool slot becomes
free, and latched results land as a resumption lands them unless a handler is running. -/
def State.restore (s : State) (t : Thread) (turn : Nat) : State :=
  let s1 := match t.spilled with
    | some k => s.onDie t.die (fun d => { d with pool := d.pool &&& ~~~(1#4096 <<< k) })
    | none => s
  s1.setThread { s.reloadPool t with spilled := none, turn := turn, yielded := false }

/-- A source has taken a turn of a core: the threads that yielded to it wait as any other restorable thread (R380). -/
def State.turnTaken (s : State) (d c : Nat) : State :=
  { s with threads := s.threads.map (fun t => if t.die == d && t.core == c then { t with yielded := false } else t) }

/-- TASK_DISPATCH (R39): a free turn of a core is filled from the first non-empty source; the die's ready queue gives
at most one task, to its best core. -/
def execTaskDispatch (die core : Nat) (s : State) : Out :=
  match s.freeTurns die core with
  | [] => .next s
  | turn :: _ =>
    match s.restorables die core with
    | t :: _ => .next (s.restore t turn)
    | [] =>
      match s.arrival? die core with
      | some (.thread tid h) =>
        let s1 := s.onCore die core (fun k => { k with arrivals := k.arrivals.filter (fun a => a != .thread tid h) })
        .next ((s1.onThread tid (fun t => { t with st := .running, die := die, core := core, turn := turn, dest := none })).turnTaken die core)
      | some (.record r) =>
        let s1 := s.onCore die core (fun k => { k with arrivals := k.arrivals.filter (fun a => a != .record r) })
        if s.groupGone r then .next (s1.completeOp (.task r.ctxDie r.ctx) r.num)
        else .next ((s1.startTask r die core turn).turnTaken die core)
      | none =>
        match (if s.wantsCore die core then s.nextTask die else none) with
        | none =>
          match s.restorablesOf true die core with
          | t :: _ => .next (s.restore t turn)
          | [] => .next s
        | some (r, c) =>
          let s1 := s.onDie die (fun d => { d with ready := d.ready.filter (fun q => q.id != r.id) })
          if s.groupGone r then .next (s1.completeOp (.task r.ctxDie r.ctx) r.num)
          else .next ((s1.startTask r die c ((s.freeTurns die c).headD 0)).turnTaken die c)

/-- TASK_AGEING (R40): tasks that have waited 2^20 cycles at a priority below 3 move to the tail of the next one. -/
def execTaskAgeing (die : Nat) (s : State) : Out :=
  .next (s.onDie die (fun d =>
    let old := fun (r : TaskRec) => r.here && decide (r.prio < 3) && decide (r.since + 2 ^ 20 ≤ d.now)
    { d with ready := d.ready.filter (fun r => !old r) ++
        (d.ready.filter old).map (fun r => { r with prio := r.prio + 1, since := d.now }) }))

/-! ### Stealing (R41, R42) -/

/-- The grid neighbours of a die in its partition, by increasing ring distance (R41). -/
def State.stealOrder (s : State) (die : Nat) : List Nat :=
  match s.parts.find? (fun p => p.dies.contains die) with
  | none => []
  | some p => ((List.range 15).map (fun k => (die + 1 + k) % 16)).filter
      (fun e => linkCount die e == 1 && p.dies.contains e)

/-- A die is idle (R41; log 92, DESIGN CHOICE). -/
def State.dieIdle (s : State) (die : Nat) : Bool :=
  (s.getDie die).ready.isEmpty && (List.range 256).any (fun c => !(s.freeTurns die c).isEmpty)

/-- STEAL_REQUEST (R41): an idle die asks its next neighbour. -/
def execStealRequest (die : Nat) (s : State) : Out :=
  let d := s.getDie die
  if d.stealing || !s.dieIdle die then .next s
  else
    match (s.stealOrder die)[d.stealRank]? with
    | none => .next (s.setDie { d with stealRank := 0, stealBack := d.now + 4096 } |>.schedIn die 4096 rankEngine
        (.stealBackoffExpiry die))
    | some nb =>
      let r := (s.setDie { d with stealing := true }).freeDelay
      .next (r.2.schedIn die (r.1 + 1) rankLate (.stealAnswer die nb))

/-- STEAL_ANSWER (R41, R42): the neighbour gives its oldest task at its highest priority among those whose launch holds
buffers on the requesting die, or nothing; a local dispatch of the same cycle came first. -/
def execStealAnswer (die nb : Nat) (s : State) : Out :=
  let s1 := s.onDie die (fun d => { d with stealing := false })
  match (byPriority (s1.getDie nb).ready).find? (fun r => s1.cores.any (fun k => k.die == die && s1.coreHeld die k.core r.lid)) with
  | some r =>
    let age := s1.cyc nb - r.since
    .next ((s1.onDie nb (fun d => { d with ready := d.ready.filter (fun q => q.id != r.id) })).onDie die
      (fun d => { d with ready := d.ready ++ [{ r with since := d.now - age }], stealRank := 0 }))
  | none =>
    let d := s1.getDie die
    if d.stealRank + 1 < (s1.stealOrder die).length then .next (s1.setDie { d with stealRank := d.stealRank + 1 })
    else .next ((s1.setDie { d with stealRank := 0, stealBack := d.now + 4096 }).schedIn die 4096 rankEngine
      (.stealBackoffExpiry die))

/-- STEAL_BACKOFF_EXPIRY (R41). -/
def execStealBackoffExpiry (die : Nat) (s : State) : Out :=
  .next (s.onDie die (fun d => if d.stealBack ≤ d.now then { d with stealBack := 0 } else d))

/-! ### MIGR (R372-R374, R379) -/

/-- The place of a move among the charges of a cycle (R365): by source die and core. -/
def State.moveRank (s : State) (t : Thread) : Nat := rankLate + s.logDie t.part t.die * 512 + t.core

/-- A MIGR that moves the thread: it leaves rotation, and departs 3 rotations on (R373). -/
def State.startMove (s : State) (d c : Nat) : State :=
  let s1 := { s with me := { s.me with st := .moving, dest := some (d, c), before := s.ahead } }
  s1.schedIn s.pre.die 25 (s.moveRank s.pre) (.migrationDepart s.pre.tid)

/-- The checks of MIGR that both forms make (R379): 0 for none. -/
def State.migrRefused (s : State) : Nat :=
  let k := s.getCore s.pre.die s.pre.core
  if s.pre.stamped then 1
  else if k.ports.toList.any (fun p => p.bound == some s.pre.tid) then 2
  else if k.mat.owner == some s.pre.tid then 3
  else 0

def State.refuseMigr (s : State) (n : Nat) : State := s.trapBundle .first tcMigrate (BitVec.ofNat 32 n) 0

/-- MIGR (R379): the target is a peer address. A target equal to the issuing core completes without a move (log 93, DEDUCED). -/
def execMigr (d : BitVec 4) (s : State) : Out :=
  s.notPlugin 4 (fun s =>
    let a := s.ra d.toNat
    if !s.bun.checked && s.migrRefused ≠ 0 then s.refuseMigr s.migrRefused
    else if !s.bun.checked && addrForm a ≠ 2 then s.refuseMigr 4
    else
      match s.physDie? s.pre.part (addrDie a) with
      | none => s.trapSyl .trap 4 tcOutside 0 a
      | some pd =>
        if !s.bun.checked && !s.coreHeld pd (addrCore a) s.pre.lid then s.refuseMigr 5
        else if pd = s.pre.die && addrCore a = s.pre.core then s
        else s.startMove pd (addrCore a))

/-- MIGR.HOME (R379): the lowest core of the clusters of the address's home slice that holds the launch's buffers, on
the owner die; without one, or without a translation, no move. -/
def execMigrHome (d : BitVec 4) (s : State) : Out :=
  s.notPlugin 4 (fun s =>
    let a := s.ra d.toNat
    if !s.bun.checked && s.migrRefused ≠ 0 then s.refuseMigr s.migrRefused
    else
      match s.getPart? s.pre.part with
      | none => s
      | some p =>
        if 2 ≤ addrForm a then s
        else
          match s.leafOf s.pre.die p a with
          | (.fail _, s1) => s1
          | (.leaf pte lv, s1) =>
            if pteH pte then s1
            else
              match s1.physAt p (pteP pte) (leafPhys pte lv a) with
              | none => s1
              | some (st, off) =>
                let sl := homeSlice st off
                let od := s1.ownerDie (p.stackList[st]?.getD 0)
                let cluster := fun (c : Nat) => (c / 16 / 2) * 8 + (c % 16) / 2
                match (List.range 256).find? (fun c =>
                    (cluster c = 2 * sl || cluster c = 2 * sl + 1) && s1.coreHeld od c s.pre.lid) with
                | none => s1
                | some c => if od = s.pre.die && c = s.pre.core then s1 else s1.startMove od c)

/-- MIGRATION_DEPART (R372, R373): once no RST and no no-return RAMO is outstanding and the target's arrival list has a
free entry, the portable state moves; every other register is undefined at the target (log 54, DEDUCED). -/
def execMigrationDepart (tid : Nat) (s : State) : Out :=
  match s.getThread? tid with
  | none => .next s
  | some t =>
    match t.dest with
    | none => .next s
    | some (d, c) =>
      if t.st ≠ .moving then .next s
      else if t.rcStores ≠ 0 || Config.arrivalMax ≤ s.listLen d c then
        .next (s.schedIn t.die 1 (s.moveRank t) (.migrationDepart tid))
      else
        let u := fun (k : Nat) => Config.freeBits 2048 (s.free + k)
        let t0 := t
        let t := (t0.longs.filter (fun g => !g.latched)).foldl Thread.putLong t0
        -- the frame counter goes on from where it stands, in the cycles of the target die (R55, log 30, DEDUCED)
        let f := t.frameAt (s.cycleReg t.die)
        let far := decide (d ≠ t.die)
        let t1 := { t with
          frNum := if far then f.1 else t.frNum, frOff := if far then f.2 else t.frOff
          frZ := if far then s.cycleReg d / 8 * 8 else t.frZ
          x := Vector.ofFn (fun i => if i.val < 16 then rd t.x i.val else elem 32 (u 0) i.val)
          a := Vector.ofFn (fun i => elem 64 (u 1) i.val), k := Vector.ofFn (fun i => elem 64 (u 2) i.val)
          q := Vector.ofFn (fun i => elem 256 (u 3) i.val), e := Vector.ofFn (fun i => elem 64 (u 4) i.val)
          v := Vector.ofFn (fun i => u (5 + i.val)), longs := t.longs.filter (·.latched), die := d, core := c, dest := none }
        let moved := fun (q : Req) => q.iss.tid == tid && (q.file != 0 || decide (16 ≤ q.reg))
        let s1 := { s with free := s.free + 21
                           reqs := s.reqs.map (fun q => if moved q then { q with noDeliver := true } else q) }.setThread t1
        let s2 := s1.onCore t.die t.core (fun k => { k with fwd := k.fwd ++ [(tid, d, c)] })
        let s3 := s2.schedIn t.die 4096 rankEngine (.forwardWindowExpiry t.die t.core tid)
        let s4 := s3.onCore d c (fun k => { k with arrivals := k.arrivals ++ [.thread tid false] })
        let r := s4.freeDelay
        .next (r.2.schedIn d (r.1 + 1) rankEngine (.migrationArrival tid d c))

/-- MIGRATION_ARRIVAL (R373): the thread waits in the target's arrival list for a turn, in the order of arrival. On a die
that has stopped for a pre-emption it takes a free turn at once, because the pre-emption waits for that; where no turn is
free it stays in the list, which the die record saves (log 31, DEDUCED). -/
def execMigrationArrival (tid die core : Nat) (s : State) : Out :=
  let there := fun (a : Arrival) => a == .thread tid false
  let s0 := s.join tid (((s.getThread? tid).map (·.before)).getD [])
  let s1 := s0.onCore die core (fun k => { k with
    arrivals := k.arrivals.filter (fun a => !there a) ++ (k.arrivals.filter there).map (fun _ => .thread tid true) })
  -- a group exit that reached the thread on its way has ended it (R373)
  if ((s.getThread? tid).map (·.st)) ≠ some .moving then .next (s.onCore die core (fun k => { k with arrivals := k.arrivals.filter (fun a => !there a) }))
  else
  match (s.getDie die).stopped, s1.freeTurns die core with
  | true, turn :: _ =>
    .next ((s1.onCore die core (fun k => { k with arrivals := k.arrivals.filter (· != .thread tid true) })).onThread tid
      (fun t => { t with st := .running, die := die, core := core, turn := turn, dest := none }))
  | _, _ => .next s1

/-- FORWARD_WINDOW_EXPIRY (R374, R224): the oldest entry of the thread ends; a later departure has one of its own. -/
def execForwardWindowExpiry (die core tid : Nat) (s : State) : Out :=
  .next (s.onCore die core (fun k => { k with fwd := k.fwd.eraseP (fun f => f.1 == tid) }))

/-! ### Spills for turn shortage and YIELD (R36, R380, R429) -/

/-- The lowest free slot of a die's spill pool (R429). -/
def State.poolSlot? (s : State) (t : Thread) : Option Nat :=
  match s.getPart? t.part with
  | none => none
  | some p =>
    if p.pools.any (fun q => q.1 == s.logDie t.part t.die) then
      (List.range 4096).find? (fun k => !(s.getDie t.die).pool.getLsbD k)
    else none

/-- A thread is being spilled to a slot: it stops at once, and long results that have not landed stand still with their
remaining rotations (R434, R174; log 98, DESIGN CHOICE). -/
def State.beginSpill (s : State) (t : Thread) (k : Nat) : State :=
  let s1 := s.onDie t.die (fun d => { d with pool := d.pool ||| (1#4096 <<< k) })
  let s2 := { s1 with nextId := s1.nextId + 1 }.setThread
    { t with
      spilled := some k, spilling := true, spillSeq := s1.nextId, recvFrom := s.cyc t.die
      -- a thread whose slot of this cycle has not been served does not execute the cycle
      spillZ := s.cycleReg t.die + (if s.slots.contains t.tid then 0 else 1) }
  let r := s2.freeDelay
  r.2.schedIn t.die (r.1 + 1) rankEngine (.spillComplete t.tid)

/-- The priority of the first source of R39 that waits for a free turn of a core: none waits while the core has one, and a
task of the queue waits only while no eligible core has one. -/
def State.sourcePrio (s : State) (d c : Nat) : Option Nat :=
  if !(s.freeTurns d c).isEmpty then none
  else
    match s.restorables d c with
    | t :: _ => some t.prio
    | [] =>
      match s.arrival? d c with
      | some (.thread tid _) => (s.getThread? tid).map (·.prio)
      | some (.record r) => some r.prio
      | none => ((byPriority (s.getDie d).ready).find? (fun r => !s.heldBack r.iss && s.coreHeld d c r.lid &&
          (s.bestCore r d).isNone)).map (·.prio)

/-- YIELD (R380; log 90, DESIGN CHOICE). -/
def execYield (c : BitVec 3) (s : State) : Out :=
  s.notPlugin 4 (fun s =>
    match s.sourcePrio s.pre.die s.pre.core, s.poolSlot? s.pre with
    | some p, some k =>
      if s.pre.prio ≤ p && !s.pre.stamped && !s.pre.onControl then
        let s1 := s.wc c.toNat true
        s1.beginSpill { s1.me with yielded := true } k
      else s.wc c.toNat false
    | _, _ => s.wc c.toNat false)

/-- The blocked thread that a shortage at priority p spills (R36): of lower priority, blocked longest, not on an
off-core access, with its condition false; ties go to the lower core and then the lower turn. -/
def State.victim (s : State) (d : Nat) (core : Option Nat) (p : Nat) : Option Thread :=
  let ts := s.allThreads.filter (fun t => t.die == d && t.st = .blocked && t.spilled.isNone && t.offReq.isNone && t.dlk.isNone && !t.exiting &&
    decide (t.prio < p) && (match core with | some c => t.core == c | none => decide (t.core < 256)) && !s.conditionHolds t)
  ts.foldl (fun b t => match b with
    | none => some t
    | some q => if t.since < q.since || (t.since = q.since && (t.core < q.core || (t.core = q.core && t.turn < q.turn)))
                then some t else some q) none

/-- A source of R36: its identity, the core whose turn it needs if that is one core, and its priority. -/
structure Shortage where
  src : Nat
  core : Option Nat
  prio : Nat
  deriving DecidableEq, Repr, Inhabited

/-- The sources of R36 that find no free turn: the head of the die's queue, and each restorable thread on its own core.
One for which a thread is being spilled is not counted again until the spill is over (log 72, DESIGN CHOICE). -/
def State.shortages (s : State) (d : Nat) : List Shortage :=
  let head := match byPriority (s.getDie d).ready with
    | r :: _ => if (s.bestCore r d).isNone then [⟨2 * r.id + 1, none, r.prio⟩] else []
    | [] => []
  let rest := (s.allThreads.filter (fun t => t.die == d && s.restorable t && (s.freeTurns d t.core).isEmpty)).map
    (fun t => (⟨2 * t.tid, some t.core, t.prio⟩ : Shortage))
  (head ++ rest).filter (fun x => !s.allThreads.any (fun t => t.spilling && t.roomFor == some x.src))

/-- The first source for which a thread can be spilled, with the thread and its pool slot. -/
def State.shortage (s : State) (d : Nat) : Option (Shortage × Thread × Nat) :=
  (s.shortages d).findSome? (fun x => (s.victim d x.core x.prio).bind (fun t => (s.poolSlot? t).map (fun k => (x, t, k))))

/-- TURN_SHORTAGE_SPILL (R36): one blocked thread for one source. -/
def execTurnShortageSpill (die : Nat) (s : State) : Out :=
  match s.shortage die with
  | none => .next s
  | some (x, t, k) => .next (s.beginSpill { t with roomFor := some x.src } k)

/-! ### Release and scrub (R37, R261, R264) -/

/-- BUFFER_SCRUB (R37): a core whose launch has left, and whose scrub has begun, zeroes its buffers and may then go to another launch; its inboxes
empty and its ports are unbound (R261). PORT_ABSENT (R264): envelopes on their way to it are discarded, and the
neighbours' credits toward it return to 4. -/
def execBufferScrub (die core : Nat) (s : State) : Out :=
  let k := s.getCore die core
  let stuck := fun (n o : Nat) =>
    match (s.portOf die n o).bound.bind s.getThread? with
    | some t => t.st == .blocked && ((s.portWaitOf t).map (·.1) == some o) && (s.portOf die n o).inbox.isEmpty
    | none => false
  match k.owner with
  | none => .next s
  | some lid =>
    if !k.scrubbing && s.coreInUse k lid then .next s
    else
      let s1 := ((s.clear (bufKey die core 0 0) Config.wbSize).clear (bufKey die core 1 0) Config.abSize).clear
        (bufKey die core 2 0) Config.cbSize
      -- the channels of a pipeline stand until its stages have finished (R462)
      let s2 := s1.setCore { Core.init die core with
        reserved := k.reserved, icache := k.icache, collCount := k.collCount, arrivals := k.arrivals
        ports := k.ports.map (fun p => { Port.init with out := p.out, inn := p.inn, allow := p.allow, credits := p.credits }) }
      let s3 := s2.unsched (fun e => match e with
        | .envelopeArrival d c _ _ => d == die && c == core
        | .creditArrival d c _ => d == die && c == core
        | _ => false)
      .next (s3.peersLeft die core (fun n o => stuck n o))

end Sys2Proof.Machine
end

