-- ==== Sys2Proof/Machine/Spill.lean ====
section
/-! DEFINITION. The spill engine and pre-emption (R428-R443, R490): thread images, core images and die records, the
stop and the quiesce of a partition, and the checks of a resumption. -/

namespace Sys2Proof.Machine

/-! ### Spilling one thread (R434) -/

/-- SPILL_COMPLETE (R434): once the remote operations of the thread have completed, its image is written and its turn
becomes free. -/
def execSpillComplete (tid : Nat) (s : State) : Out :=
  match s.getThread? tid with
  | none => .next s
  | some t =>
    if !t.spilling then .next s
    else if !t.inFlight.isEmpty then
      .next (s.schedIn t.die 1 rankEngine (.spillComplete tid))
    else
      let r := s.charge t.part 2 6144
      if !r.1 then .next (s.untilPeriod t.part (.cycle t.die 0 rankEngine) (.spillComplete tid))
      else
        let img := r.2.threadImage t t.spillZ
        let s1 := match t.spilled.bind (r.2.poolAddr t) with
          | some (p, va) => r.2.writeImage p va 6144 (imageBytes 0 6144 img)
          | none => r.2
        let s2 := s1.setThread { t with spilling := false, packet := none, roomFor := none, stale := false }
        -- a thread that was to take DEADLOCK takes it in its saved context (R273)
        .next (match t.dlk with
          | some (n, pos, l) => s2.deadlock { t with spilling := false, packet := none, roomFor := none } n pos l
          | none => s2)

/-! ### Core images (R436-R438, R440) -/

/-- The record of an operation whose fault waits behind the record of its context (R289): it has not completed, so it
keeps its slot of the queue, as it stood when it failed (log 97, DESIGN CHOICE). -/
def FaultRec.copyRecord (r : FaultRec) : BitVec 512 := r.cmd.setWidth 512

/-- The records of a copy context in number order: held operations come before those that still run or wait. -/
def CopyCtx.records (x : CopyCtx) : List (BitVec 512) := x.tl.held.map FaultRec.copyRecord ++ x.queue.map CopyOp.record

/-- The matrix command that started last, and the one before it that still writes (R440). -/
def Matrix.lastStarted (m : Matrix) : Option MatCmd := (m.queue.filter (fun c => c.start.isSome)).getLast?
def Matrix.earlier (m : Matrix) : Option MatCmd :=
  match m.queue.filter (fun c => c.start.isSome) with
  | c :: _ :: _ => some c
  | _ => none

/-- Groups that a command has completed at a number of elapsed cycles. -/
def MatCmd.groupsDone (c : MatCmd) (e : Nat) : Nat :=
  match c.kind with
  | .mul _ _ => Nat.min (e / c.group) c.groupCount
  | _ => 0

/-- The tile word (i, j) of a command as it was read, or as it stands. -/
def State.tileWord (s : State) (c : MatCmd) (i j : Nat) : W32 :=
  match c.rows[i / 2]? with
  | some ws => ws[(i % 2) * 32 + j]?.getD 0
  | none => BitVec.ofNat 32 (memRead s.mem (bufKey c.iss.die c.iss.core 2 (4096 * c.tile + 128 * i + 4 * j)) 4)

/-- The accumulator of the command started last (R437). -/
def State.accumulator (s : State) (now : Nat) (c : MatCmd) : List (Nat × Byte) :=
  let done := { c with groups := c.groups.take (c.groupsDone (elapsedOf now c.start) - c.base) }
  (List.range 1024).flatMap (fun n => imageBytes (4 * n) 4 (done.accumulate (n / 32) (n % 32) (s.tileWord c (n / 32) (n % 32))).1)

/-- The matrix area of a core in the die record (R440). -/
def State.matrixArea (s : State) (now : Nat) (m : Matrix) : List (Nat × Byte) :=
  let early := match m.earlier with
    | none => []
    | some c => (List.range 1024).flatMap (fun n =>
        if n / 64 < c.written then []
        else imageBytes (4 * n) 4 (c.accumulate (n / 32) (n % 32) (s.tileWord c (n / 32) (n % 32))).1)
  let late := match m.lastStarted with
    | none => []
    | some c =>
      match c.kind with
      | .mul _ _ =>
        if c.base + c.groups.length ≤ c.groupsDone (elapsedOf now c.start) then []
        else
          let f := fun (off n i : Nat) => imageBytes off n (BitVec.ofNat (8 * n) (c.cur[i]?.getD 0))
          f 0x1000 2048 0 ++ f 0x1800 2048 1 ++ f 0x2000 64 2 ++ f 0x2040 128 3
      | .zero => []
      | _ =>
        (List.range c.rows.length).flatMap (fun r =>
          if r < c.written then []
          else (c.rows[r]?.getD []).zipIdx.flatMap (fun w => imageBytes (0x1000 + 256 * (r % 2) + 4 * w.2) 4 w.1))
  early ++ late

/-- Envelopes of a port: in its inbox, and on their way to it within the die, with their arrival %cycle (R437). -/
def State.inboxImage (s : State) (d c p : Nat) : List (W64 × Nat) :=
  let reg := (s.getDie d).toReg
  let kept := (s.portOf d c p).inbox.map (fun e => (e.1, reg e.2))
  let coming := ((s.agenda ++ (s.getDie d).frozen).filterMap (fun e => match e.ev, e.due with
    | .envelopeArrival d' c' p' v, .cycle _ k _ => if d' = d && c' = c && p' = p then some (v, reg k) else none
    | _, _ => none))
  kept ++ coming.mergeSort (fun a b => decide (a.2 ≤ b.2))

/-- Arrival cycles of the credits on their way to a port. -/
def State.creditImage (s : State) (d c p : Nat) : List Nat :=
  let reg := (s.getDie d).toReg
  ((s.agenda ++ (s.getDie d).frozen).filterMap (fun e => match e.ev, e.due with
    | .creditArrival d' c' p', .cycle _ k _ => if d' = d && c' = c && p' = p then some (reg (k - 1)) else none
    | _, _ => none)).take 4

/-- Where slot n of the inbox of port p lies in the engine area. R437 puts it at 128p + 16n and gives the eight inboxes 512
bytes: ports 0 to 3 lie where it says, and ports 4 to 7 in the halves that those leave free (log 34, DESIGN CHOICE). -/
def inboxOff (p n : Nat) : Nat := 0x7A00 + 128 * (p % 4) + 64 * (p / 4) + 16 * (n % 4)

/-- The engine area of a core (R437), at offset 0x64000 of its image. -/
def State.engineArea (s : State) (d c : Nat) : List (Nat × Byte) :=
  let k := s.getCore d c
  let now := s.cyc d
  let f := fun (off n v : Nat) => imageBytes off n (BitVec.ofNat (8 * n) v)
  let pr := k.prism
  let win := match pr.window with
    | some (w, op, dir, kk) => w % 256 + op % 4 * 2 ^ 8 + bit dir 10 + (kk - 1) % 32 * 2 ^ 11
    | none => 0
  let prism :=
    (List.range 4).flatMap (fun b => imageBytes (4096 * b) 4096 (rd pr.delay b)) ++
    (List.range 4).flatMap (fun b => imageBytes (0x4000 + 1024 * b) 1024 (rd pr.mode b)) ++
    (List.range 4).flatMap (fun b => imageBytes (0x5000 + 128 * b) 128 (rd pr.capt b)) ++ imageBytes 0x5200 64 pr.list ++
    f 0x5240 8 (win + bit pr.window.isSome 16 + pr.dirty.toNat * 2 ^ 20) ++ f 0x5248 8 pr.tl.c ++ f 0x5250 8 pr.tl.i ++
    ((pr.tl.held.map (·.cmd) ++ pr.queue.map (fun q => q.record now)).zipIdx.flatMap (fun q =>
      imageBytes (0x5280 + 128 * q.2) 128 q.1)) ++
    imageBytes 0x5480 96 pr.tl.recImage
  let mown := match k.mat.owner.bind s.getThread? with
    | some t => 2 ^ 31 + k.mat.occupancy * 2 ^ 8 + t.turn
    | none => k.mat.occupancy * 2 ^ 8
  let mat :=
    f 0x5500 8 mown ++ f 0x5508 8 k.mat.tl.c ++ f 0x5510 8 k.mat.tl.i ++
    ((k.mat.tl.held.map (·.cmd) ++ k.mat.queue.map (s.matRecord now)).zipIdx.flatMap (fun q =>
      imageBytes (0x5540 + 128 * q.2) 128 q.1)) ++
    imageBytes 0x5740 96 k.mat.tl.recImage ++
    (match k.mat.lastStarted with
     | some m => (s.accumulator now m).map (fun b => (0x5800 + b.1, b.2))
     | none => [])
  let copy := k.copy.toList.zipIdx.flatMap (fun x =>
    f (0x6800 + 32 * x.2) 8 x.1.tl.c ++ f (0x6808 + 32 * x.2) 8 x.1.tl.i ++ imageBytes (0x6880 + 96 * x.2) 96 x.1.tl.recImage ++
    x.1.records.zipIdx.flatMap (fun q => imageBytes (0x6A00 + 1024 * x.2 + 64 * q.2) 64 q.1))
  let send := (List.range 8).flatMap (fun p =>
    let inb := s.inboxImage d c p
    inb.zipIdx.flatMap (fun e => imageBytes (inboxOff p e.2) 8 e.1.1 ++ f (inboxOff p e.2 + 8) 8 e.1.2) ++
    f (0x7C00 + 64 * p) 8 ((s.portOf d c p).credits % 256 + (s.portOf d c p).inbox.length % 256 * 2 ^ 8) ++
    (s.creditImage d c p).zipIdx.flatMap (fun z => f (0x7C08 + 64 * p + 8 * z.2) 8 z.1))
  prism ++ mat ++ copy ++ send

/-- The bytes of a core buffer that are not zero. -/
def State.bufferBytes (s : State) (d c b off : Nat) : List (Nat × Byte) :=
  let k := bufKey d c b 0
  (s.mem.filter (fun x => decide (k ≤ x.1) && decide (x.1 < k + bufSize b))).map (fun x => (off + (x.1 - k), x.2))

/-- The core image (R436), z being %cycle of the first cycle that was not executed. -/
def State.coreImage (s : State) (d c z : Nat) : List (Nat × Byte) :=
  let ts := s.allThreads.filter (fun t => t.die == d && t.core == c && t.occupies)
  ts.flatMap (fun t => imageBytes (0x1800 * t.turn) 6144 (s.threadImage t z)) ++ s.bufferBytes d c 0 0x0C000 ++
  s.bufferBytes d c 1 0x3C000 ++ s.bufferBytes d c 2 0x54000 ++ (s.engineArea d c).map (fun b => (0x64000 + b.1, b.2))

/-! ### The die record (R439, R490) -/

/-- Launches with any state on a die, in order of identity. -/
def State.launchesOn (s : State) (d : Nat) : List Launch :=
  let part := match s.parts.find? (fun p => p.dies.contains d) with | some p => p.num | none => 0
  s.launches.filter (fun l => l.part == part && !l.finished &&
    (s.allThreads.any (fun t => t.lid == l.lid && t.die == d && t.st != .exited) ||
     (s.getDie d).ready.any (fun r => r.lid == l.lid) ||
     s.cores.any (fun k => k.die == d && (k.owner == some l.lid ||
       k.arrivals.any (fun a => match a with | .record r => r.lid == l.lid | .thread _ _ => false)))))

/-- The trigger groups of a launch that have a triggered member on a die, one for each level that a dependent launch
names (R370, R490; log 89, DEDUCED). -/
def State.triggerGroups (s : State) (d : Nat) (l : Launch) : List Group :=
  let ts := s.allThreads.filter (fun t => t.lid == l.lid && t.die == d && (t.triggered || t.st == .exited))
  ((List.range 7).filter (fun v => l.trigLevels.getLsbD v)).flatMap (fun v =>
    (ts.map (fun t => groupKey t.widf t.wid v)).eraseDups.map (fun key =>
      { gid := 0, lid := l.lid, level := v, key := key, kind := .trigger, arrived := [], complete := false, starts := [],
        lastDie := 0, ids := [] }))

/-- Die control (R490). -/
def State.dieControl (s : State) (d e : Nat) : List (Nat × Byte) :=
  let k := s.getDie d
  let f := fun (off n v : Nat) => imageBytes off n (BitVec.ofNat (8 * n) v)
  let part := (s.parts.find? (fun p => p.dies.contains d))
  let ls := s.launchesOn d
  let gs := s.groups.filter (fun g => ls.any (fun l => l.lid == g.lid) && g.kind != .exited && g.kind != .trigger &&
    s.allThreads.any (fun t => t.die == d && t.inGroup g.lid g.level g.key)) ++ ls.flatMap (s.triggerGroups d)
  let entry := fun (l : Launch) (o : Nat) =>
    imageBytes o 8 l.hdr ++ imageBytes (o + 8) 8 l.fields ++ imageBytes (o + 0x10) 4 l.flags ++
    imageBytes (o + 0x14) 4 (l.dieSet.setWidth 32) ++ imageBytes (o + 0x18) 8 l.framew ++ imageBytes (o + 0x20) 8 l.done ++
    f (o + 0x28) 8 l.lid ++ f (o + 0x30) 4 l.trigLevels.toNat
  let group := fun (g : Group) (later : Bool) (o : Nat) =>
    let here := s.allThreads.filter (fun t => t.die == d && t.inGroup g.lid g.level g.key)
    let kind := match g.kind with | .barrier => 1 | .frame => 2 | .trigger => 3 | .exited => 0
    let live := here.filter (fun t => t.st != .exited)
    -- every member has arrived at an instance that is complete, whether it has left it or not
    let count := if g.kind = .trigger then (here.filter (fun t => t.triggered || t.st == .exited)).length
                 else if g.complete || !g.starts.isEmpty then live.length
                 else (live.filter (fun t => g.arrived.contains t.tid)).length
    let wait := match g.starts.find? (fun x => x.1 == d) with | some (_, z) => z - (e + 1) | none => 0
    imageBytes o 8 g.key ++ f (o + 8) 1 ((ls.map (·.lid)).idxOf g.lid) ++
    f (o + 9) 1 (g.level + kind * 8 + bit later 5) ++ f (o + 0x0A) 2 count ++ f (o + 0x0C) 4 (wait % 2 ^ 20)
  f 0 8 e ++
  (match part with
   | some p => f 8 4 (p.dies.idxOf d + p.dies.length * 2 ^ 4)
   | none => []) ++
  f 0xC 4 ((if s.cyc d < k.stealBack then k.stealBack - s.cyc d else 0) + k.stealRank * 2 ^ 16) ++ imageBytes 0x40 512 k.pool ++
  (k.task.toList.zipIdx.flatMap (fun x => f (0x240 + 16 * x.2) 8 x.1.c ++ f (0x248 + 16 * x.2) 8 x.1.i)) ++
  (ls.zipIdx.flatMap (fun x => entry x.1 (0x400 + 64 * x.2))) ++
  (gs.zipIdx.flatMap (fun x =>
    let later := (gs.take x.2).any (fun g => g.kind == x.1.kind && g.lid == x.1.lid && g.level == x.1.level && g.key == x.1.key)
    group x.1 later (0x4400 + 16 * x.2)))

/-- The die record (R439). The bytes of task records, of stack and translation contexts and of collective contexts have
no layout in the manual: they are free wherever there is one, and what they hold is kept beside them (log 35, DESIGN CHOICE). -/
def State.dieRecord (s : State) (d e : Nat) : List (Nat × Byte) :=
  let k := s.getDie d
  let rec' := fun (off n i : Nat) => imageBytes off n (Config.freeBits (8 * n) (s.free + i))
  s.dieControl d e ++
  (k.ready.zipIdx.flatMap (fun x => rec' (0x10000 + 128 * x.2) 128 x.2)) ++
  (List.range 256).flatMap (fun c => (s.getCore d c).arrivals.zipIdx.flatMap (fun x =>
    rec' (0x90000 + 2048 * c + 128 * x.2) 128 (4096 + 16 * c + x.2))) ++
  (if k.hand.i = 0 && k.xl.i = 0 then [] else rec' 0x110000 65536 8192) ++
  (k.coll.toList.zipIdx.flatMap (fun x => if x.1.tl.i = 0 then [] else rec' (0x120000 + 131072 * x.2) 131072 (8193 + x.2))) ++
  (List.range 256).flatMap (fun c => (s.matrixArea (s.cyc d) (s.getCore d c).mat).map (fun b => (0x320000 + 16384 * c + b.1, b.2)))

/-! ### Shapes (R25) -/

/-- The shape of a partition: its die count, the pairs of logical dies that are grid neighbours, and, for each stack whose
two dies both belong to it, the logical dies that it straddles, port 0 first, with the one that owns it. -/
structure Shape where
  count : Nat
  links : List (Nat × Nat)
  stackSet : List (Nat × Nat × Nat)
  deriving DecidableEq, Repr, Inhabited

def State.shape (s : State) (p : Partition) : Shape :=
  let ls := p.dies.zipIdx
  { count := p.dies.length
    links := ls.flatMap (fun x => (ls.filter (fun y => x.2 < y.2 && linkCount x.1 y.1 == 1)).map (fun y => (x.2, y.2)))
    stackSet := p.stackList.filterMap (fun st =>
      let d := stackDies st
      if p.dies.contains d.1 && p.dies.contains d.2 then
        some (p.dies.idxOf d.1, p.dies.idxOf d.2, p.dies.idxOf (s.ownerDie st))
      else none) }

/-- Two partitions of equal shape are interchangeable for images (R25). -/
def State.interchangeable (s : State) (p q : Partition) : Bool := s.shape p == s.shape q

/-- What is kept beside a die record that has just been written at a save area (log 35, DESIGN CHOICE). -/
def State.dieSave (s : State) (p : Partition) (d va : Nat) : DieSave :=
  let sh := s.shape p
  { part := p.num, index := p.dies.idxOf d, dies := p.dies, links := sh.links, straddles := sh.stackSet
    record := s.readImage p (va + 113246208) 8388608, die := s.getDie d, cores := s.cores.filter (fun k => k.die == d)
    threads := s.allThreads.filter (fun t => t.part == p.num && t.die == d && !t.onControl && t.st != .exited)
    groups := s.groups.filter (fun g => (s.getLaunch? g.lid).any (fun l => l.part == p.num))
    launches := s.launches.filter (fun l => l.part == p.num) }

/-- The save area of a die of a partition (R429). -/
def State.saveArea (s : State) (p : Partition) (d : Nat) : Option Nat :=
  (p.pools.find? (fun q => q.1 == s.logDie p.num d)).map (fun q => q.2.2.toNat)

/-- The spill engine writes a die's core images and its die record (R435). -/
def State.writeDie (s : State) (p : Partition) (d : Nat) : State :=
  match s.saveArea p d with
  | none => s
  | some va =>
    let e := s.cycleReg d
    let s1 := (List.range 256).foldl (fun a c => a.writeImage p (va + 442368 * c) 442368 (a.coreImage d c (e + 1))) s
    let s2 := { s1.writeImage p (va + 113246208) 8388608 (s1.dieRecord d e) with free := s.free + 8210 }
    { s2 with archive := s2.archive ++ [s2.dieSave p d va] }

/-! ### Stopping, quiescing and resuming a partition (R51, R435, R442, R443) -/

/-- Shift an entry by a number of cycles. -/
def Pending.later (e : Pending) (n : Nat) : Pending :=
  match e.due with
  | .cycle d c r => { e with due := .cycle d (c + n) r }
  | .wall _ => e

/-- The die stops after the cycle being served, the last of a rotation (R51, R435): its partition's entries are kept,
those that a quiesce delivers fall due at once, and probes are discarded (R273). -/
def State.stopDie (s : State) (d : Nat) : State :=
  let mine := fun (e : Pending) => (match e.due with | .cycle d' _ _ => d' == d | .wall _ => false) && !Event.ofControl s e.ev
  let probe := fun (e : Pending) => match e.ev with | .probe _ => true | .probeLaunch _ => true | _ => false
  let taken := s.agenda.filter (fun e => mine e && !probe e)
  let drained := (taken.filter (fun e => Event.drains s e.ev)).map (fun e => { e with due := .wall s.wall })
  let kept := taken.filter (fun e => !Event.drains s e.ev)
  let s1 := { s with agenda := s.agenda.filter (fun e => !mine e) ++ drained }
  let r := (s1.onDie d (fun k => { k with stopped := true, stopAt := k.cyc, frozen := kept })).freeDelay
  r.2.schedWall r.1 (.quiesceComplete d)

/-- The partition of a die runs on (R442): everything that is numbered in cycles of the die moves by the cycles it
stood still, and the probe counts of blocked receives restart (R273). -/
def State.wakeDie (s : State) (d : Nat) : State :=
  let k := s.getDie d
  let n := k.cyc - k.stopAt
  let mv := fun (t : Thread) => if t.die = d && !t.onControl then { t with since := t.since + n, recvFrom := k.cyc } else t
  let rec' := fun (r : TaskRec) => { r with since := r.since + n }
  let core := fun (c : Core) => if c.die ≠ d || 256 ≤ c.core then c else
    { c with
      ports := c.ports.map (fun p => { p with inbox := p.inbox.map (fun e => (e.1, e.2 + n)) })
      mat := { c.mat with queue := c.mat.queue.map (fun q => { q with issued := q.issued + n, start := q.start.map (· + n) }) }
      prism := { c.prism with queue := c.prism.queue.map (fun q => { q with issued := q.issued + n, start := q.start.map (· + n) }) }
      arrivals := c.arrivals.map (fun a => match a with
        | .record r => .record (rec' r)
        | .thread t h => .thread t h) }
  let s1 := { s with threads := s.threads.map mv, cores := s.cores.map core
                     agenda := s.agenda ++ k.frozen.map (fun e => Pending.later e n) }
  s1.setDie { k with stopped := false, base := k.base + n, frozen := [], stealBack := if k.stealBack = 0 then 0 else k.stealBack + n
                     ready := k.ready.map rec' }

/-- The partition that an entry of the agenda concerns, as far as a quiesce must wait for it. -/
def State.drainPart (s : State) (ev : Event) : Option Nat :=
  let ofThread := fun (tid : Nat) => (s.getThread? tid).map (·.part)
  let ofReq := fun (r : Nat) => (s.getReq? r).map (·.part)
  let ofDie := fun (d : Nat) => (s.parts.find? (fun p => p.dies.contains d)).map (·.num)
  if !Event.drains s ev then none
  else
    match ev with
    | .peerRequest r => ofReq r
    | .memoryRequest r => ofReq r
    | .offCoreReply r => ofReq r
    | .remoteReply r => ofReq r
    | .exitArrival t => ofThread t
    | .migrationDepart t => ofThread t
    | .migrationArrival t _ _ => ofThread t
    | .spillComplete t => ofThread t
    | .envelopeArrival d _ _ _ => ofDie d
    | .creditArrival d _ _ => ofDie d
    | .pageWalkComplete _ p _ => some p
    | .barrierComplete g => (s.getGroup? g).bind (fun x => (s.getLaunch? x.lid).map (·.part))
    | .frameStart g _ => (s.getGroup? g).bind (fun x => (s.getLaunch? x.lid).map (·.part))
    | .spawnRecordArrival r => (s.records.find? (fun x => x.id == r)).map (·.part)
    | _ => none

/-- Nothing that R434 and R435 wait for is left of a partition. -/
def State.quiet (s : State) (p : Partition) : Bool :=
  p.dies.all (fun d => (s.getDie d).stopped) && !s.agenda.any (fun e => s.drainPart e.ev == some p.num) &&
  s.allThreads.all (fun t => t.part != p.num || t.onControl || t.st == .exited ||
    (t.inFlight.isEmpty && !(t.st == .moving && t.dest.isSome) && !s.slots.contains t.tid &&
     (match t.offReq.bind s.getReq? with
      | some q => q.replied
      | none => true)))

/-- QUIESCE_COMPLETE (R435): once every die of the partition has stopped and nothing is in flight, the slices write back
and drop their translations, and the images are written. The die that is last evicts the partition. -/
def execQuiesceComplete (die : Nat) (s : State) : Out :=
  match s.parts.find? (fun p => p.dies.contains die) with
  | none => .next s
  | some p =>
    if !s.quiet p then
      let r := s.freeDelay
      .next (r.2.schedWall (r.1 + 1) (.quiesceComplete die))
    else
      let s1 := (s.writeDie p die).onDie die (fun d => { d with tlb := [] })
      let s2 := { s1 with saved := s1.saved ++ [{ part := p.num, die := die, cycle := s.cycleReg die }] }
      let all := p.dies.all (fun d => s2.saved.any (fun v => v.part == p.num && v.die == d))
      .next (if all then s2.schedWall 0 (.partitionEvicted p.num) else s2)

/-- A thread of a partition that has been evicted is spilled (R33). -/
def Thread.evicted (part : Nat) (t : Thread) : Thread :=
  if t.part = part && !t.onControl && t.occupies then { t with spilled := some saveSlot, packet := none } else t

/-! ### The checks of a resumption (R443) -/

/-- The checks of R443 on a thread image of a core: z is the %cycle that CYCLE must hold. -/
def threadImageBad (img : BitVec 49152) (z : Nat) : Bool :=
  let f := fun (off n : Nat) => (img.extractLsb' (8 * off) (8 * n)).toNat
  let tagBad := fun (i : Nat) =>
    let t := f (0x7F0 + 4 * i) 4
    let file := t / 2 ^ 5 % 8
    2 ^ 23 ≤ t || t / 2 ^ 11 % 2 ^ 5 ≠ 0 || 2 ≤ file || (file = 1 && 16 ≤ t % 32) ||
    -- an unoccupied entry, and the bytes above an x result (R433)
    (f 0x3C 1 / 2 ^ i % 2 = 0 && (t ≠ 0 || f (0x300 + 256 * i) 256 ≠ 0)) || (file = 0 && f (0x304 + 256 * i) 252 ≠ 0)
  f 0x2F 1 % 4 = 3 || 16 ≤ f 0x2F 1 || f 0x2D 1 ≠ 0 || 8 ≤ f 0x2E 1 || 8 ≤ f 0x38 4 || 16 ≤ f 0x3C 4 || f 0x71C 4 ≠ 0 ||
  512 ≤ f 0x77C 4 || (List.range 4).any tagBad || (img ≠ 0 && f 8 8 ≠ z)

/-- Zero fields of a core image and of a die record, as offset and size (R436, R437, R439, R490). -/
def coreZero : List (Nat × Nat) := [(0x694E0, 32), (0x697A0, 96), (0x6BE00, 512)]
def dieZero : List (Nat × Nat) := [(0x10, 48), (0x2D0, 304), (0xC400, 15360), (0x720000, 917504)]

/-- A queue of n records of `size` bytes at an offset of an engine area breaks R437 or R438: a used slot stands behind an unused
one, or a zero field of a record is not zero. -/
def queueBad (l : List (Nat × Byte)) (off n size : Nat) (copy : Bool) : Bool :=
  let slot := fun (k : Nat) => imagePart l (off + size * k) size
  let used := fun (k : Nat) => (slot k).any (fun b => b.2 != 0)
  (List.range n).any (fun k => used k &&
    ((List.range k).any (fun j => !used j) ||
     decide ((if copy then 8 else 1) ≤ imageNum (slot k) 6 2) ||
     (!copy && imageNum (slot k) 0 4 / 2 ^ 21 % 128 ≠ 0x12 && imageNum (slot k) 0x60 32 ≠ 0)))

/-- A launch entry or a group entry of the die control area breaks R490 in a zero field. -/
def entryBad (l : List (Nat × Byte)) (o : Nat) : Bool :=
  if imageNum l o 8 = 0 then imageNum l o 64 ≠ 0
  else decide (2 ^ 16 ≤ imageNum l (o + 0x14) 4) || decide (2 ^ 7 ≤ imageNum l (o + 0x30) 4) || imageNum l (o + 0x34) 12 ≠ 0
def groupBad (l : List (Nat × Byte)) (o : Nat) : Bool :=
  let kind := imageNum l (o + 9) 1
  let wait := imageNum l (o + 0xC) 4
  if kind / 8 % 4 = 0 then imageNum l o 16 ≠ 0
  else decide (64 ≤ kind) || decide (2 ^ 20 ≤ wait) || (kind / 8 % 4 ≠ 2 && wait ≠ 0)

/-- A zero field of the die control area is not zero (R490). -/
def controlBad (l : List (Nat × Byte)) : Bool :=
  dieZero.any (fun x => (imagePart l x.1 x.2).any (fun b => b.2 != 0)) || decide (2 ^ 9 ≤ imageNum l 8 4) ||
  decide (imageNum l 0xC 4 / 2 ^ 13 % 8 ≠ 0) || decide (2 ^ 20 ≤ imageNum l 0xC 4) ||
  (List.range 256).any (fun i => entryBad l (0x400 + 64 * i)) || (List.range 2048).any (fun i => groupBad l (0x4400 + 16 * i))

/-- The matrix area of a core breaks R440: bytes beyond the table, or bytes of a command that its queue does not hold. -/
def matrixAreaBad (core area : List (Nat × Byte)) : Bool :=
  let slot := fun (k : Nat) => imagePart core (0x69540 + 128 * k) 128
  let started := (List.range 4).filter (fun k => imageNum (slot k) 5 1 = 1)
  let nonzero := fun (off n : Nat) => (imagePart area off n).any (fun b => b.2 != 0)
  nonzero 0x20C0 8000 || (started.isEmpty && nonzero 0 16384) || (decide (started.length ≤ 1) && nonzero 0 0x1000)

/-- The first core of a die whose images fail R443, if any; the die control area counts as core 0. -/
def State.badImages (s : State) (p : Partition) (d : Nat) : Option Nat :=
  match s.saveArea p d with
  | none => some 0
  | some va =>
    let all := s.readImage p va 121634816
    let rec' := imagePart all 113246208 8388608
    let z := imageNum all 113246208 8 + 1
    if controlBad rec' then some 0
    else (List.range 256).find? (fun c =>
      let core := imagePart all (442368 * c) 442368
      coreZero.any (fun x => (imagePart core x.1 x.2).any (fun b => b.2 != 0)) ||
      queueBad core 0x69280 4 128 false || queueBad core 0x69540 4 128 false ||
      (List.range 4).any (fun n => queueBad core (0x6AA00 + 1024 * n) 16 64 true) ||
      matrixAreaBad core (imagePart rec' (0x320000 + 16384 * c) 16384) ||
      (List.range 8).any (fun t => threadImageBad (BitVec.ofNat 49152 (imageNum core (0x1800 * t) 6144)) z))

/-- The logical die and core of the first image of a partition that fails (R443). -/
def State.badPartition (s : State) (p : Partition) : Option (Nat × Nat) :=
  p.dies.zipIdx.findSome? (fun x => (s.badImages p x.1).map (fun c => (x.2, c)))

end Sys2Proof.Machine
end

