-- ==== Sys2Proof/Machine/Relocate.lean ====
section
/-! DEFINITION. The state that a die record stands for, taken to another partition or to other physical dies of equal shape
(R25, R428, R439, R442). -/

namespace Sys2Proof.Machine

/-- Where saved state goes: physical dies before and after, the partition, what is added to identities (0 within the partition
that saved it), and the die cycles of the stop before and after. -/
structure Remap where
  dies : List (Nat × Nat)
  part : Nat
  off : Nat
  was : Nat
  now : Nat
  deriving DecidableEq, Repr, Inhabited

def Remap.die (m : Remap) (d : Nat) : Nat := ((m.dies.find? (fun x => x.1 == d)).map (·.2)).getD d
/-- An identity; 0 names nothing. -/
def Remap.id (m : Remap) (n : Nat) : Nat := if n = 0 then 0 else n + m.off
/-- A cycle of the die. -/
def Remap.at (m : Remap) (c : Nat) : Nat := c + m.now - m.was
/-- A die and a core, or a die and a value. -/
def Remap.pair (m : Remap) (x : Nat × Nat) : Nat × Nat := (m.die x.1, x.2)

def Issue.moved (m : Remap) (i : Issue) : Issue :=
  { i with tid := m.id i.tid, lid := m.id i.lid, die := m.die i.die, part := m.part, oid := m.id i.oid }
def FaultRec.moved (m : Remap) (f : FaultRec) : FaultRec := { f with tid := m.id f.tid }
def Timeline.moved (m : Remap) (t : Timeline) : Timeline :=
  { t with frec := t.frec.map (FaultRec.moved m), held := t.held.map (FaultRec.moved m) }
def TaskRec.moved (m : Remap) (r : TaskRec) : TaskRec :=
  { r with id := m.id r.id, lid := m.id r.lid, part := m.part, since := m.at r.since, ctxDie := m.die r.ctxDie, iss := r.iss.moved m }
def Arrival.moved (m : Remap) : Arrival → Arrival
  | .record r => .record (r.moved m)
  | .thread tid here => .thread (m.id tid) here

def PortRef.moved (m : Remap) (r : PortRef) : PortRef := { r with die := m.die r.die }
def Port.moved (m : Remap) (p : Port) : Port :=
  { p with bound := p.bound.map m.id, inbox := p.inbox.map (fun e => (e.1, m.at e.2)), out := p.out.map (PortRef.moved m)
           inn := p.inn.map (PortRef.moved m) }
def CopyCtx.moved (m : Remap) (x : CopyCtx) : CopyCtx :=
  { tl := x.tl.moved m, queue := x.queue.map (fun o => { o with iss := o.iss.moved m }) }
def Matrix.moved (m : Remap) (x : Matrix) : Matrix :=
  { x with
    owner := x.owner.map m.id, tl := x.tl.moved m
    queue := x.queue.map (fun q => { q with iss := q.iss.moved m, issued := m.at q.issued, start := q.start.map m.at }) }
def Prism.moved (m : Remap) (x : Prism) : Prism :=
  { x with
    tl := x.tl.moved m
    queue := x.queue.map (fun q => { q with iss := q.iss.moved m, issued := m.at q.issued, start := q.start.map m.at }) }
/-- A core; its instruction cache holds nothing. -/
def Core.moved (m : Remap) (k : Core) : Core :=
  { k with
    die := m.die k.die, owner := k.owner.map m.id, reserved := k.reserved.map m.id, copy := k.copy.map (CopyCtx.moved m)
    ports := k.ports.map (Port.moved m), mat := k.mat.moved m, prism := k.prism.moved m
    arrivals := k.arrivals.map (Arrival.moved m), fwd := k.fwd.map (fun x => (m.id x.1, m.pair x.2)), icache := [] }

def CollCtx.moved (m : Remap) (x : CollCtx) : CollCtx :=
  { x with tl := x.tl.moved m, queue := x.queue.map (fun o => { o with iss := o.iss.moved m }) }
def HandOp.moved (m : Remap) (o : HandOp) : HandOp :=
  { o with iss := o.iss.moved m, part := m.part, draining := false, place := none, phys := none }
def XlOp.moved (m : Remap) (o : XlOp) : XlOp := { o with iss := o.iss.moved m, part := m.part }

def Thread.moved (m : Remap) (t : Thread) : Thread :=
  { t with
    tid := m.id t.tid, lid := m.id t.lid, part := m.part, die := m.die t.die, rc := t.rc.moved m, since := m.at t.since
    recvFrom := m.at t.recvFrom, dest := t.dest.map m.pair, roomFor := none, offReq := none, packet := none }
def Group.moved (m : Remap) (g : Group) : Group :=
  { g with gid := m.id g.gid, lid := m.id g.lid, arrived := g.arrived.map m.id, starts := g.starts.map m.pair, lastDie := m.die g.lastDie }
/-- A launch; one that another partition takes over is no command's any more. -/
def Launch.moved (m : Remap) (l : Launch) : Launch :=
  { l with
    lid := m.id l.lid, part := m.part, fanDie := m.die l.fanDie, fanIss := l.fanIss.moved m, pending := l.pending.map m.pair
    placed := l.placed.map m.pair, cid := if m.off = 0 then l.cid else none, deps := l.deps.map (fun x => (m.id x.1, x.2)) }

/-- The entries of a die that a stop keeps (R435, R437): what its engines, its cores and its control state go on with. -/
def Event.moved (m : Remap) : Event → Event
  | .taskDispatch d c => .taskDispatch (m.die d) c
  | .taskAgeing d => .taskAgeing (m.die d)
  | .stealRequest d => .stealRequest (m.die d)
  | .stealAnswer d nb => .stealAnswer (m.die d) (m.die nb)
  | .stealBackoffExpiry d => .stealBackoffExpiry (m.die d)
  | .turnShortageSpill d => .turnShortageSpill (m.die d)
  | .bufferScrub d c => .bufferScrub (m.die d) c
  | .fanoutForward l => .fanoutForward (m.id l)
  | .fanoutHeaderRead l => .fanoutHeaderRead (m.id l)
  | .launchPlacement l d c => .launchPlacement (m.id l) (m.die d) c
  | .launchFinish l => .launchFinish (m.id l)
  | .dependencySatisfied l p v => .dependencySatisfied (m.id l) (m.id p) v
  | .forwardWindowExpiry d c t => .forwardWindowExpiry (m.die d) c (m.id t)
  | .envelopeArrival d c p v => .envelopeArrival (m.die d) c p v
  | .creditArrival d c p => .creditArrival (m.die d) c p
  | .copyStart d c x => .copyStart (m.die d) c x
  | .copyUnit d c x => .copyUnit (m.die d) c x
  | .copyComplete d c x => .copyComplete (m.die d) c x
  | .completionNotice t => .completionNotice (m.id t)
  | .matrixStart d c n e => .matrixStart (m.die d) c n e
  | .matrixComplete d c n => .matrixComplete (m.die d) c n
  | .mmrotRingNotice d c n => .mmrotRingNotice (m.die d) c n
  | .mmrotTransfer d c n i k => .mmrotTransfer (m.die d) c n i k
  | .prismStart d c n e => .prismStart (m.die d) c n e
  | .prismComplete d c n => .prismComplete (m.die d) c n
  | .collStart d x => .collStart (m.die d) x
  | .collSegment d x n => .collSegment (m.die d) x n
  | .collComplete d x n => .collComplete (m.die d) x n
  | .xlinvComplete d n => .xlinvComplete (m.die d) n
  | e => e

def Pending.moved (m : Remap) (e : Pending) : Pending :=
  match e.due with
  | .cycle d c r => ⟨.cycle (m.die d) (m.at c) r, Event.moved m e.ev⟩
  | .wall t => ⟨.wall t, Event.moved m e.ev⟩

/-- A die takes over what another was to go on with. -/
def Die.takes (k : Die) (m : Remap) (v : Die) : Die :=
  { k with
    ready := v.ready.map (TaskRec.moved m), stealBack := if v.stealBack = 0 then 0 else m.at v.stealBack, stealRank := v.stealRank
    stealing := v.stealing, coll := v.coll.map (CollCtx.moved m), task := v.task.map (Timeline.moved m), hand := v.hand.moved m
    handQ := v.handQ.map (HandOp.moved m), xl := v.xl.moved m, xlQ := v.xlQ.map (XlOp.moved m), pool := v.pool
    frozen := v.frozen.map (Pending.moved m), tlb := [] }

/-! ### What a resumption finds on a die -/

/-- A die as its partition forms: %cycle counts from 0 (R50), and the engines of the die hold nothing. A partition that forms
in the middle of a rotation counts from the start of that rotation, so that %cycle stays congruent to the die's cycle count
modulo 8 and its first value is 0 to 7: the model's choice (log 37, DESIGN CHOICE; log 61, DEDUCED). -/
def Die.formed (d : Die) : Die :=
  { d with
    base := d.cyc / 8 * 8, origin := 0, stopped := false, stopAt := 0, frozen := [], ready := [], stealBack := 0, stealRank := 0
    stealing := false, coll := Vector.replicate 16 CollCtx.init, task := Vector.replicate 9 Timeline.init
    hand := Timeline.init, handQ := [], xl := Timeline.init, xlQ := [], pool := 0, tlb := [] }

/-- The threads of a partition on a die are gone, and its cores, its die and its launches' groups hold nothing of them. -/
def State.emptyDie (s : State) (p : Partition) (d : Nat) : State :=
  { s with
    threads := s.threads.filter (fun t => !(t.part == p.num && t.die == d && !t.onControl))
    cores := s.cores.filter (fun k => k.die != d || decide (256 ≤ k.core)) }.onDie d (fun k =>
      { k with
        ready := [], stealBack := 0, stealRank := 0, stealing := false, coll := Vector.replicate 16 CollCtx.init
        task := Vector.replicate 9 Timeline.init, hand := Timeline.init, handQ := [], xl := Timeline.init, xlQ := [], pool := 0
        frozen := [], tlb := [] })

/-- A die takes over the state that a die record stands for: its cores, its threads, spilled (R442), its queues, and the
launches and groups that they belong to. -/
def State.adoptDie (s : State) (p : Partition) (d off : Nat) (v : DieSave) : State :=
  let m : Remap := { dies := v.dies.zip p.dies, part := p.num, off := if v.part = p.num then 0 else off
                     was := v.die.stopAt, now := (s.getDie d).stopAt }
  let s1 := (s.emptyDie p d).onDie d (fun k => k.takes m v.die)
  let ls := (v.launches.map (Launch.moved m)).filter (fun l => (s1.getLaunch? l.lid).isNone)
  let gs := (v.groups.map (Group.moved m)).filter (fun g => (s1.getGroup? g.gid).isNone)
  { s1 with
    cores := s1.cores ++ (v.cores.filter (fun k => decide (k.core < 256))).map (Core.moved m)
    threads := s1.threads ++ (v.threads.map (Thread.moved m)).map (fun t => if t.spilled.isSome then t else t.evicted p.num)
    launches := s1.launches ++ ls, groups := s1.groups ++ gs }

/-- What the die record of a logical die of a partition stands for: the record that the package wrote last with these bytes, for
a partition of equal shape (R25, R442). -/
def State.savedAs (s : State) (p : Partition) (d va : Nat) : Option DieSave :=
  let rec' := s.readImage p (va + 113246208) 8388608
  let sh := s.shape p
  (s.archive.filter (fun v => v.record == rec' && v.index == p.dies.idxOf d && v.dies.length == sh.count &&
    v.links == sh.links && v.straddles == sh.stackSet)).getLast?

/-- The partition still stands as it did when it was evicted: its own state is newer than what it saved. -/
def State.standing (s : State) (p : Partition) (d : Nat) (v : DieSave) : Bool :=
  v.part == p.num && v.dies == p.dies && s.saved.any (fun x => x.part == p.num && x.die == d) &&
  (s.archive.filter (fun x => x.part == p.num && x.index == v.index)).getLast? == some v

end Sys2Proof.Machine
end

