-- ==== Sys2Proof/Machine/Resume.lean ====
section
/-! DEFINITION. Resumption from the images of a partition (R442, R25): the threads, the buffers and the engines of its cores
and the control state of its dies, as the images hold them; and the group move (R428). -/

namespace Sys2Proof.Machine

/-! ### Launches of a die record (R490) -/

/-- The launch of an entry at an offset of the die control area: the one that the package knows by the entry's identity,
or one made from the entry and the header that it names. Identities that another partition or package gave are moved up by
`off`, past every one of this package. -/
def State.launchOfEntry (s : State) (p : Partition) (off : Nat) (l : List (Nat × Byte)) (o : Nat) : Option Launch :=
  let hdr := imageNum l o 8
  let lid := imageNum l (o + 0x28) 8 + off
  if hdr = 0 then none
  else
    match s.getLaunch? lid with
    | some q => some q
    | none =>
      let h : BitVec 1024 := s.loadImage p hdr 128 1024
      let q := (default : Launch).withHeader h
      some { q with
        lid := lid, part := p.num, hdr := BitVec.ofNat 64 hdr, fields := BitVec.ofNat 64 (imageNum l (o + 8) 8)
        flags := BitVec.ofNat 32 (imageNum l (o + 0x10) 4), framew := BitVec.ofNat 64 (imageNum l (o + 0x18) 8)
        done := BitVec.ofNat 64 (imageNum l (o + 0x20) 8), fanDie := p.dies[0]?.getD 0, accepted := true
        reached := q.logDies.zipIdx.flatMap (fun x => (List.range q.size).map (fun n => (x.2, n)))
        trigLevels := BitVec.ofNat 7 (imageNum l (o + 0x30) 4) }

/-- The launches that a die record lists. -/
def State.entryLaunches (s : State) (p : Partition) (off : Nat) (l : List (Nat × Byte)) : List Launch :=
  (List.range 256).filterMap (fun i => s.launchOfEntry p off l (0x400 + 64 * i))

/-- A die goes on from its control area: %cycle, steal back-off and rank, pool map and class 5 contexts. -/
def Die.ofControl (k : Die) (order : List Nat) (l : List (Nat × Byte)) : Die :=
  let e := imageNum l 0 8
  let back := imageNum l 0xC 4
  let m := Nat.min k.stopAt e
  { k with
    base := k.stopAt - m, origin := e - m, pool := BitVec.ofNat 4096 (imageNum l 0x40 512)
    stealBack := if back % 2 ^ 13 = 0 then 0 else k.stopAt + back % 2 ^ 13
    stealRank := if order.isEmpty then 0 else back / 2 ^ 16 % 16
    task := Vector.ofFn (fun x =>
      let t := k.task[x.val]
      t.ofImage (imageNum l (0x240 + 16 * x.val) 8) (imageNum l (0x248 + 16 * x.val) 8) t.recImage (fun _ => 0)) }

/-- The control area of a die record takes effect, with the launches that the package does not know. -/
def State.loadDie (s : State) (p : Partition) (d va off : Nat) : State :=
  let l := s.readImage p (va + 113246208) 65536
  let new : List Launch := (s.entryLaunches p off l).filter (fun (q : Launch) => (s.getLaunch? q.lid).isNone)
  { s with launches := s.launches ++ new, nextId := new.foldl (fun m (q : Launch) => Nat.max m (q.lid + 1)) s.nextId }.onDie d
    (fun k => k.ofControl (s.stealOrder d) l)

/-! ### Core images (R436, R437) -/

/-- The copy that a syllable issues. -/
def copyKindOf (w : W32) : Option CopyKind :=
  match decode [w] with
  | .ok (.cpy ..) => some .cpy
  | .ok (.cpyt _ _ _ _ _ v r _) => some (.cpyt (v == 1) (r == 1))
  | .ok (.gath ..) => some .gath
  | .ok (.scat ..) => some .scat
  | .ok (.sig ..) => some .sig
  | _ => none

/-- The issue of an operation from its record (R438) and its operand values. What a record does not hold, the address of the
bundle, is zero. -/
def issueOfRecord {n : Nat} (r : BitVec n) (p : Partition) (d c : Nat) (who : Nat → Thread) (o0 o1 o2 o3 : W64) : Issue :=
  let turn := (imageReg r 4 8 0).toNat
  let t := who turn
  { num := (imageReg r 8 64 0).toNat, tid := t.tid, turn := turn, lid := t.lid, die := d, core := c
    syl := imageReg r 0 32 0, pc := 0, wid := t.wid, rnd := imageReg r 0x18 32 0, cnt := imageReg r 0x1C 32 0
    op0 := o0, op1 := o1, op2 := o2, op3 := o3, part := p.num, seed := t.seed, after := []
    oid := (((d * 512 + c) * 8 + turn) + 1) * 2 ^ 64 + (imageReg r 8 64 0).toNat }

/-- A copy operation from its record. -/
def copyOfRecord (r : BitVec 512) (p : Partition) (d c : Nat) (who : Nat → Thread) : Option CopyOp :=
  (copyKindOf (imageReg r 0 32 0)).map (fun kind =>
    { iss := issueOfRecord r p d c who (imageReg r 0x20 64 0) (imageReg r 0x28 64 0) (imageReg r 0x30 64 0) (imageReg r 0x38 64 0)
      kind := kind, fmt := imageReg r 6 3 0, units := if r.getLsbD 40 then (imageReg r 0x10 64 0).toNat else 0
      started := r.getLsbD 40, cancel := false, fault := none, flags := 0 })

/-- A copy context from its counters, its record and its queue. An operation that the package itself saved, as its number
and record show, goes on as it was. -/
def CopyCtx.ofImage (old : CopyCtx) (n : Nat) (l : List (Nat × Byte)) (p : Partition) (d c : Nat) (who : Nat → Thread)
    (tidOf : W64 → Nat) : CopyCtx :=
  let tl := old.tl.ofImage (imageNum l (0x6800 + 32 * n) 8) (imageNum l (0x6808 + 32 * n) 8)
    (BitVec.ofNat 768 (imageNum l (0x6880 + 96 * n) 96)) tidOf
  let recs := ((List.range 16).map (fun k => BitVec.ofNat 512 (imageNum l (0x6A00 + 1024 * n + 64 * k) 64))).filter (· != 0)
  let held := fun (r : BitVec 512) => tl.held.any (fun f => BitVec.ofNat 64 f.num == imageReg r 8 64 0)
  { tl := tl
    queue := (recs.filter (fun r => !held r)).filterMap (fun r =>
      match old.queue.find? (fun o => o.record == r) with
      | some o => some o
      | none => copyOfRecord r p d c who) }

/-- The matrix command that a syllable issues: its kind, tile and groups. -/
def matrixOf (w : W32) : Option (MatKind × Nat × Nat) :=
  match decode [w] with
  | .ok (.mmul _ _ t _ k) => some (.mul false false, t.toNat, k.toNat + 1)
  | .ok (.mmuls _ _ t _ k) => some (.mul true false, t.toNat, k.toNat + 1)
  | .ok (.mmrot _ _ t _ k) => some (.mul false true, t.toNat, k.toNat + 1)
  | .ok (.mzero t _) => some (.zero, t.toNat, 0)
  | .ok (.mdrn _ o t _) => some (.drn o.toNat, t.toNat, 1)
  | .ok (.mldc _ o t _) => some (.ldc o.toNat, t.toNat, 1)
  | _ => none

/-- A matrix command from its record (R438), as it stood before it started. -/
def matrixOfRecord (r : BitVec 1024) (p : Partition) (d c now : Nat) (who : Nat → Thread) : Option MatCmd :=
  (matrixOf (imageReg r 0 32 0)).map (fun k =>
    let started := r.getLsbD 40
    let e := (imageReg r 0x10 64 0).toNat
    let rot := match k.1 with | .mul _ t => t | _ => false
    { iss := issueOfRecord r p d c who (if k.1 = .zero then 0 else imageReg r 0x20 64 0) (imageReg r 0x40 64 0)
        ((imageReg r 0x18 32 0).setWidth 64) 0
      kind := k.1, tile := k.2.1, groupCount := k.2.2, qa := imageReg r 0x20 256 0, qb := imageReg r 0x40 256 0
      issued := if started then now - e - 1 else now, start := if started then some (now - e) else none, groups := [], base := 0
      rows := [], written := 0, flags := 0, fault := none, rotN := bit (started && rot) 0, foot := Vector.replicate 4 0
      cur := Vector.replicate 4 0, out := Vector.replicate 2 0, inc := Vector.replicate 2 0 })

/-- The 64 words of row pair r of a tile image at an offset. -/
def tileRows (l : List (Nat × Byte)) (off r : Nat) : List W32 :=
  (List.range 64).map (fun n => BitVec.ofNat 32 (imageNum l (off + 256 * r + 4 * n) 4))

/-- The flags that the first n groups of a product have raised: no image holds them, and the groups are read again from the
restored buffers (log 36, DEDUCED). -/
def State.flagsAnew (s : State) (c : MatCmd) (n : Nat) : Flags :=
  let c1 := { c with groups := (List.range n).map (fun g => ({ c with cur := s.groupBytes c g } : MatCmd).groupSums) }
  (List.range 1024).foldl (fun f k =>
    f ||| (c1.accumulate (k / 32) (k % 32)
      (BitVec.ofNat 32 (s.bufRead c.iss.die c.iss.core 2 (4096 * c.tile + 4 * k) 4))).2) 0

/-- A started command goes on from its elapsed count with what the images hold of it (R438, R440): `acc` is the accumulator and
`area` its core's matrix area, `last` tells the command started last from an earlier one. The second scale of 16-element blocks
and the footprints of an MMROT have no place in an image: they are read again from the restored buffers (log 36, DEDUCED). -/
def State.matrixGoesOn (s : State) (c : MatCmd) (r : BitVec 1024) (last : Bool) (acc area : List (Nat × Byte)) : MatCmd :=
  let e := (imageReg r 0x10 64 0).toNat
  match c.kind with
  | .mul _ _ =>
    let base := c.groupsDone e
    let written := if c.array ≤ e + 4 then Nat.min 16 (e + 5 - c.array) else 0
    let moved := fun (off side : Nat) =>
      let n := (imageReg r off 64 0).toNat
      let q := c.shape side
      if n = 0 then 0 else if n < q.1 * q.2.1 + 32 * q.2.2 then 1 else 2
    let c1 := { c with written := written, flags := s.flagsAnew c base }
    if !last then { c1 with base := base, rows := (List.range 16).map (tileRows area 0) }
    else
      let g := e / c.group
      let cur := s.groupBytes c g
      let scales := imageNum area 0x2000 64 + (cur[2]?.getD 0) / 2 ^ 512 * 2 ^ 512
      let c2 := { c1 with
        base := base, rows := (List.range (if base = 0 then Nat.min 16 (e + 1) else 16)).map (tileRows acc 0)
        cur := #v[imageNum area 0x1000 2048, imageNum area 0x1800 2048, scales, imageNum area 0x2040 128]
        foot := (List.range (Nat.min (g + 1) c.groupCount)).foldl (fun v k => s.footAdd { c with foot := v } k) c.foot
        out := #v[moved 0x60 0, moved 0x68 1], inc := #v[moved 0x70 0, moved 0x78 1] }
      if g < c.groupCount then { c2 with groups := [c2.groupSums] } else c2
  | .zero => { c with written := Nat.min 16 (e + 1), rows := (List.range (Nat.min 16 (e + 1))).map (fun _ => []) }
  | _ => { c with written := Nat.min 16 (e - 1), rows := (List.range (Nat.min 16 (e + 1))).map (fun k => tileRows area 0x1000 (k % 2)) }

/-- The Prism command that a syllable issues: its kind and mask. -/
def prismOf' (w : W32) : Option (PrismKind × BitVec 4) :=
  match decode [w] with
  | .ok (.pwin k x o _ w) => some (.pwin w.toNat o.toNat (x == 1) (if o = 2 then k.toNat + 1 else 1), 0)
  | .ok (.pldw _ m _ x) => some (.pldw (x == 1), m)
  | .ok (.plaunch _ m _) => some (.plaunch, m)
  | .ok (.pcap _ m _) => some (.pcap false, m)
  | .ok (.pcapList _ _) => some (.pcap true, 0)
  | .ok (.prst m _) => some (.prst, m)
  | _ => none

/-- A Prism command from its record (R438). What a started one has read no image holds: it is read again from the restored
buffers (log 36, DEDUCED). -/
def State.prismOfRecord (s : State) (r : BitVec 1024) (p : Partition) (d c now : Nat) (who : Nat → Thread) : Option PrismCmd :=
  (prismOf' (imageReg r 0 32 0)).map (fun k =>
    let started := r.getLsbD 40
    let e := (imageReg r 0x10 64 0).toNat
    let cmd : PrismCmd :=
      { iss := issueOfRecord r p d c who (imageReg r 0x20 64 0) (((imageReg r 0 32 0).extractLsb' 0 21).setWidth 64) 0 0
        kind := k.1, mask := k.2, q := imageReg r 0x20 256 0, issued := if started then now - e - 1 else now
        start := if started then some (now - e) else none, delayBuf := 0, modeBuf := 0, inputs := Vector.replicate 4 0
        progress := 0, fault := none }
    if !started then cmd
    else
      match k.1 with
      | .plaunch => { cmd with inputs := s.raceInputs cmd }
      | .pldw modes => (List.range (e % 10 + 1)).foldl (fun a m => s.planesAnew a modes m) { cmd with progress := (e + 1) / 10 }
      | _ => cmd)

/-- A queue of commands from its four records: one that the package itself saved goes on as it was. -/
def queueOfRecords {α : Type} (old : List α) (record : α → BitVec 1024) (make : BitVec 1024 → Option α) (off : Nat)
    (l : List (Nat × Byte)) : List α :=
  (((List.range 4).map (fun n => BitVec.ofNat 1024 (imageNum l (off + 128 * n) 128))).filter (· != 0)).filterMap (fun r =>
    match old.find? (fun q => record q == r) with
    | some q => some q
    | none => make r)

/-- A send port from the engine area; `bound` is the thread whose image binds it. Envelopes beyond those that it holds are
still on their way. -/
def Port.ofImage (old : Port) (k : Die) (p : Nat) (l : List (Nat × Byte)) (bound : Option Nat) : Port :=
  let w := imageNum l (0x7C00 + 64 * p) 8
  let first := w / 2 ^ 16 % 256
  { old with
    bound := bound, credits := w % 256, torn := false
    inbox := (List.range (w / 256 % 256)).map (fun n =>
      (BitVec.ofNat 64 (imageNum l (inboxOff p (first + n)) 8), k.ofReg (imageNum l (inboxOff p (first + n) + 8) 8))) }

/-- Envelopes and credits on their way to a port, as the engine area records them (R437), in the cycles of a die. -/
def flightsOfImage (k : Die) (c p : Nat) (l : List (Nat × Byte)) : List Pending :=
  let w := imageNum l (0x7C00 + 64 * p) 8
  let slots := (List.range (4 - w / 256 % 256)).map (fun n => (w / 2 ^ 16 + w / 256 % 256 + n) % 4)
  (slots.filter (fun n => imageNum l (inboxOff p n + 8) 8 ≠ 0)).map (fun n =>
    ⟨.cycle k.die (k.ofReg (imageNum l (inboxOff p n + 8) 8)) rankEngine,
      .envelopeArrival k.die c p (BitVec.ofNat 64 (imageNum l (inboxOff p n) 8))⟩) ++
  ((List.range 4).filter (fun n => imageNum l (0x7C08 + 64 * p + 8 * n) 8 ≠ 0)).map (fun n =>
    ⟨.cycle k.die (k.ofReg (imageNum l (0x7C08 + 64 * p + 8 * n) 8) + 1) 0, .creditArrival k.die c p⟩)

/-- The Prism engine from the engine area (R437). A command that the package itself saved goes on as it was. -/
def Prism.ofImage (old : Prism) (now : Nat) (l : List (Nat × Byte)) (make : BitVec 1024 → Option PrismCmd) (tidOf : W64 → Nat) :
    Prism :=
  let w := imageNum l 0x5240 8
  let queue := queueOfRecords old.queue (fun q => q.record now) make 0x5280 l
  let set := w / 2 ^ 16 % 2 == 1
  { delay := Vector.ofFn (fun b => BitVec.ofNat 32768 (imageNum l (4096 * b.val) 4096))
    mode := Vector.ofFn (fun b => BitVec.ofNat 8192 (imageNum l (0x4000 + 1024 * b.val) 1024))
    window := if set then some (w % 256, w / 2 ^ 8 % 4, w / 2 ^ 10 % 2 == 1, w / 2 ^ 11 % 32 + 1) else none
    winIssued := old.winIssued || set || queue.any (fun q => match q.kind with | .pwin .. => true | _ => false)
    dirty := BitVec.ofNat 4 (w / 2 ^ 20)
    capt := Vector.ofFn (fun b => BitVec.ofNat 1024 (imageNum l (0x5000 + 128 * b.val) 128))
    list := BitVec.ofNat 512 (imageNum l 0x5200 64)
    tl := old.tl.ofImage (imageNum l 0x5248 8) (imageNum l 0x5250 8) (BitVec.ofNat 768 (imageNum l 0x5480 96)) tidOf
    queue := queue }

/-- The matrix engine from the engine area and the core's matrix area (R437, R440). The ordinals of MMROTs have no place in an
image: one that had started counts as the core's first (log 36, DESIGN CHOICE). -/
def State.matrixOfImage (s : State) (old : Matrix) (now : Nat) (l area : List (Nat × Byte)) (make : BitVec 1024 → Option MatCmd)
    (who : Nat → Thread) (tidOf : W64 → Nat) : Matrix :=
  let own := imageNum l 0x5500 4
  let records := ((List.range 4).map (fun n => BitVec.ofNat 1024 (imageNum l (0x5540 + 128 * n) 128))).filter (· != 0)
  let started := records.filter (fun r => r.getLsbD 40)
  let goOn := fun (r : BitVec 1024) => (make r).map (fun c =>
    if r.getLsbD 40 then s.matrixGoesOn c r (started.getLast? == some r) (imagePart l 0x5800 4096) area else c)
  let queue := queueOfRecords old.queue (fun q => s.matRecord now q) goOn 0x5540 l
  { old with
    owner := if own / 2 ^ 31 = 1 then some (who (own % 8)).tid else none
    tl := old.tl.ofImage (imageNum l 0x5508 8) (imageNum l 0x5510 8) (BitVec.ofNat 768 (imageNum l 0x5740 96)) tidOf
    rots := queue.foldl (fun m q => Nat.max m q.rotN) old.rots
    queue := queue }

/-- The entries with which started operations of a core go on (R286, R438), where there are none. -/
def State.engineEvents (s : State) (d c : Nat) (area : List (Nat × Byte)) : State :=
  let k := s.getCore d c
  let now := s.cyc d
  let s1 := k.mat.queue.foldl (fun (a : State) q => match q.start with
    | some z => if a.pending (fun e => match e with | .matrixStart d' c' n _ => d' == d && c' == c && n == q.iss.num | _ => false)
        then a else a.schedIn d 1 rankEngine (.matrixStart d c q.iss.num (now - z + 1))
    | none => a) s
  let s2 := k.prism.queue.foldl (fun (a : State) q => match q.start with
    | some z => if a.pending (fun e => match e with | .prismStart d' c' n _ => d' == d && c' == c && n == q.iss.num | _ => false)
        then a else a.schedIn d 1 (rankEngine + 1) (.prismStart d c q.iss.num (now - z + 1))
    | none => a) s1
  let s3 := k.copy.toList.zipIdx.foldl (fun (a : State) x => match x.1.queue.head? with
    | some o =>
      if !o.started || a.pending (fun e => match e with
          | .copyUnit d' c' n => d' == d && c' == c && n == x.2
          | .copyComplete d' c' n => d' == d && c' == c && n == x.2
          | _ => false) then a
      else a.copyLater d rankEngine (.copyUnit d c x.2)
    | none => a) s2
  -- the transfers of an MMROT go on with the cycle after those that have moved their bytes (R321)
  k.mat.queue.foldl (fun (a : State) q =>
    let r := ((List.range 4).map (fun n => BitVec.ofNat 1024 (imageNum area (0x5540 + 128 * n) 128))).find? (fun r =>
      imageReg r 8 64 0 == BitVec.ofNat 64 q.iss.num)
    (List.range 2).foldl (fun (b : State) side =>
      if q.isRot && q.outOf side = 1 && !b.pending (fun e => match e with
          | .mmrotTransfer d' c' n i _ => d' == d && c' == c && n == q.iss.num && i == side
          | _ => false) then
        b.schedIn d 1 (rankArrival (b.logDie q.iss.part d) c q.iss.turn)
          (.mmrotTransfer d c q.iss.num side (q.cyclesFor side ((r.map (fun w => (imageReg w (0x60 + 8 * side) 64 0).toNat)).getD 0) + 1))
      else b) a) s3

/-- The MMROTs of a die whose groups are over look after their transfers, as they did in the last cycle before the stop. -/
def State.rotsGoOn (s : State) (d : Nat) : State :=
  (s.cores.filter (fun k => k.die == d)).foldl (fun a k => k.mat.queue.foldl (fun (b : State) q =>
    if q.isRot && q.start.any (fun z => decide (q.array ≤ s.cyc d - z)) then
      (b.rotOut d k.core q.iss.num 0).rotOut d k.core q.iss.num 1
    else b) a) s

/-- The launch of a core that is restored: the one it has, or the first listed one whose rectangle contains it. -/
def ownerFor (k : Core) (logDie : Nat) (ls : List Launch) : Option Nat :=
  match k.owner with
  | some o => if ls.any (fun q => q.lid == o) then some o else find
  | none => find
where
  find := (ls.find? (fun q => q.dieSet.getLsbD logDie && (List.range q.size).any (fun n => q.coreAt n == k.core))).map (·.lid)

/-- A thread of a core as a resumption finds it: the evicted one of the turn and identifier that the image names, or a new
one of the core's launch. -/
def State.threadFor (s : State) (p : Partition) (d c turn : Nat) (wid : W64) (owner : Option Nat) : Thread :=
  match s.threads.find? (fun t => t.part == p.num && t.die == d && t.core == c && t.turn == turn && t.wid == wid &&
      t.spilled == some saveSlot) with
  | some t => t
  | none =>
    let l := (owner.bind s.getLaunch?).getD default
    { l.thread (s.nextId + turn) d c turn wid (Vector.replicate 6 0) (Vector.replicate 32 0) 0 with part := p.num }

/-- The threads of a core image: those whose image is not all zero (R436), and which have not been killed since. -/
def State.loadThreads (s : State) (p : Partition) (d c : Nat) (owner : Option Nat) (l : List (Nat × Byte)) : List Thread :=
  (List.range 8).filterMap (fun turn =>
    let img : BitVec 49152 := BitVec.ofNat 49152 (imageNum l (0x1800 * turn) 6144)
    let t := s.threadFor p d c turn (imageReg img 0x10 64 0) owner
    let killed := s.threads.any (fun u => u.part == p.num && u.die == d && u.core == c && u.turn == turn &&
      u.wid == imageReg img 0x10 64 0 && u.st == .exited)
    if img = 0 || killed then none else some { s.reload t img with spilled := none, spilling := false })

/-- A core goes on from its image, each thread on its saved turn (R442); `area` is its matrix area. -/
def State.loadCore (s : State) (p : Partition) (d c va : Nat) (ls : List Launch) (area' : List (Nat × Byte)) : State :=
  let l := s.readImage p (va + 442368 * c) 442368
  let area := imagePart l 0x64000 32768
  let k := s.getCore d c
  if l.isEmpty && k.owner.isNone && !s.threads.any (fun t => t.die == d && t.core == c && t.spilled == some saveSlot) then s
  else
    let owner := ownerFor k (p.dies.idxOf d) ls
    let ts := s.loadThreads p d c owner l
    let gone := fun (t : Thread) => t.part == p.num && t.die == d && t.core == c && t.spilled == some saveSlot
    let s1 := { s with threads := s.threads.filter (fun t => !gone t) ++ ts, nextId := s.nextId + 8 }
    let s2 := (List.range 3).foldl (fun a b =>
      let off := ([0x0C000, 0x3C000, 0x54000] : List Nat)[b]?.getD 0
      a.splice (bufKey d c b 0) (bufSize b) (imagePart l off (bufSize b))) s1
    let binds := fun (n : Nat) => (ts.find? (fun t =>
      (BitVec.ofNat 32 (imageNum l (0x1800 * t.turn + 0x77C) 4) : W32).getLsbD n)).map (·.tid)
    if (s.engineArea d c).mergeSort (fun a b => decide (a.1 ≤ b.1)) = area then
      -- the engines stand as the image has them; which thread a port is bound to, and which owns the engines, BIND says (R432)
      s2.onCore d c (fun k => { k with
        owner := owner, ports := Vector.ofFn (fun n => { k.ports[n.val] with bound := binds n.val })
        mat := { k.mat with owner := binds 8 } })
    else
      let who := fun (turn : Nat) => (ts.find? (fun t => t.turn == turn)).getD Thread.init
      let tidOf := fun (w : W64) => ((ts.find? (fun t => t.wid == w)).map (·.tid)).getD 0
      let die := s.getDie d
      let mine := fun (e : Pending) => match e.ev with
        | .envelopeArrival d' c' _ _ => d' == d && c' == c
        | .creditArrival d' c' _ => d' == d && c' == c
        | _ => false
      let s3 := s2.onDie d (fun x => { x with
        frozen := x.frozen.filter (fun e => !mine e) ++ (List.range 8).flatMap (fun n => flightsOfImage die c n area) })
      let buffers := { s3 with mem0 := s3.mem }
      (s3.onCore d c (fun k => { k with
        owner := owner, scrubbing := k.scrubbing && k.owner == owner
        copy := Vector.ofFn (fun n => k.copy[n.val].ofImage n.val area p d c who tidOf)
        ports := Vector.ofFn (fun n => k.ports[n.val].ofImage die n.val area (binds n.val))
        mat := buffers.matrixOfImage k.mat die.now area area' (fun r => matrixOfRecord r p d c die.stopAt who) who tidOf
        prism := k.prism.ofImage die.now area (fun r => buffers.prismOfRecord r p d c die.stopAt who) tidOf })).engineEvents d c area

/-! ### What only the die record of another package says (R490) -/

/-- A group entry of a die: its launch, the physical die, and the die's %cycle at the stop. -/
structure GroupEntry where
  lid : Nat
  die : Nat
  stop : Nat
  level : Nat
  key : W64
  kind : GroupKind
  later : Bool
  count : Nat
  wait : Nat
  deriving DecidableEq, Repr, Inhabited

def State.groupEntries (s : State) (p : Partition) (d va off : Nat) : List GroupEntry :=
  let l := s.readImage p (va + 113246208) 65536
  (List.range 2048).filterMap (fun i =>
    let o := 0x4400 + 16 * i
    let k := imageNum l (o + 9) 1
    if k / 8 % 4 = 0 then none
    else some
      { lid := imageNum l (0x400 + 64 * imageNum l (o + 8) 1 + 0x28) 8 + off, die := d, stop := imageNum l 0 8, level := k % 8
        key := BitVec.ofNat 64 (imageNum l o 8), kind := if k / 8 % 4 = 1 then .barrier else if k / 8 % 4 = 2 then .frame else .trigger
        later := k / 32 % 2 == 1, count := imageNum l (o + 0xA) 2, wait := imageNum l (o + 0xC) 4 })

/-- A thread is blocked at a BAR, or at a FRAME, of the group's set (R34): it has arrived. -/
def State.heldAt (s : State) (p : Partition) (t : Thread) (frame : Bool) (level : Nat) : Bool :=
  t.st == .blocked && (bundleWords (s.loadImage p (t.pc.toNat / 32 * 32) 32 256) t.pc).any (fun w =>
    match decode [w] with
    | .ok (.bar l) => !frame && sameLevel t.widf l.toNat level
    | .ok (.frame l) => frame && sameLevel t.widf l.toNat level
    | _ => false)

/-- One instance, or one trigger group, from its entries on the dies of a partition. A blocked thread at a BAR of the group has
arrived; where two instances stand, the later one takes as many as its counts say, from the highest identity down (log 36,
DESIGN CHOICE). An instance is complete when every die counts all its members. -/
def State.loadGroup (s : State) (p : Partition) (es all : List GroupEntry) : State :=
  match es with
  | [] => s
  | x :: _ =>
    let members := fun (d : Nat) => (s.liveMembers x.lid x.level x.key).filter (fun t => t.die == d)
    let full := es.all (fun (e : GroupEntry) => decide ((members e.die).length ≤ e.count))
    match x.kind with
    | .trigger =>
      es.foldl (fun (a : State) (e : GroupEntry) => ((members e.die).take e.count).foldl (fun b t => b.onThread t.tid (fun u => { u with triggered := true })) a) s
    | _ =>
      let arrived : List Nat := es.flatMap (fun (e : GroupEntry) =>
        let here := ((members e.die).filter (fun t => s.heldAt p t (x.kind == GroupKind.frame) x.level)).map (·.tid)
        let next := (all.filter (fun (y : GroupEntry) => y.later && !x.later && y.die == e.die && y.lid == x.lid && y.level == x.level &&
          y.key == x.key && y.kind == x.kind)).foldl (fun n (y : GroupEntry) => n + y.count) 0
        if x.later then here.drop (here.length - e.count) else if full then here.take (here.length - next) else here.take e.count)
      if arrived.isEmpty then s
      else
        { s with nextId := s.nextId + 1 }.setGroup
          { gid := s.nextId, lid := x.lid, level := x.level, key := x.key, kind := x.kind, arrived := arrived
            complete := full && x.kind == GroupKind.barrier
            starts := if full && x.kind == GroupKind.frame then es.map (fun (e : GroupEntry) => (e.die, e.stop + 1 + e.wait)) else []
            lastDie := x.die, ids := [] }

/-- The groups that the entries of a partition's dies give. -/
def State.loadGroups (s : State) (p : Partition) (es : List GroupEntry) : State :=
  let same := fun (x y : GroupEntry) => x.lid == y.lid && x.level == y.level && x.key == y.key && x.kind == y.kind && x.later == y.later
  let heads := es.foldl (fun (l : List GroupEntry) e => if l.any (same e) then l else l ++ [e]) []
  heads.foldl (fun a h => a.loadGroup p (es.filter (same h)) es) s

/-- A thread for each occupied slot of a die's pool (R429). A pool slot does not say which core its thread belongs to: it is
a core of the first launch that the record lists, which one is open (log 36, DESIGN CHOICE). -/
def State.loadPool (s : State) (p : Partition) (d : Nat) (ls : List Launch) : State :=
  let base := ((p.pools.find? (fun q => q.1 == p.dies.idxOf d)).map (fun q => q.2.1.toNat)).getD 0
  let q := ls.head?.getD default
  ((List.range 4096).filter (fun k => (s.getDie d).pool.getLsbD k)).foldl (fun a k =>
    let r := a.freeUpTo (q.size - 1)
    let t := Thread.ofImage (a.loadImage p (base + 6144 * k) 6144 49152)
      { q.thread r.2.nextId d (q.coreAt r.1) 0 0 (Vector.replicate 6 0) (Vector.replicate 32 0) 0 with part := p.num }
    { r.2 with nextId := r.2.nextId + 1, threads := r.2.threads ++ [{ t with spilled := some k, since := a.cyc d }] }) s

/-- A die of a partition goes on from its images (R442): as it stands, if the partition stands as it was evicted; from what its
die record stands for; or, where another package wrote it, from the bytes that the manual lays out. -/
def State.resumeDie (s : State) (p : Partition) (off d : Nat) : State :=
  match s.saveArea p d with
  | none => s
  | some va =>
    let v := s.savedAs p d va
    let o := match v with
      | some x => if x.part = p.num then 0 else off
      | none => off
    let s1 := match v with
      | some x => if s.standing p d x then s else s.adoptDie p d off x
      | none => s.emptyDie p d
    let s2 := s1.loadDie p d va o
    let ls := s2.entryLaunches p o (s2.readImage p (va + 113246208) 65536)
    let s3 := (List.range 256).foldl (fun q c =>
      q.loadCore p d c va ls (s2.readImage p (va + 113246208 + 0x320000 + 16384 * c) 16384)) s2
    if v.isSome then s3 else (s3.rotsGoOn d).loadPool p d ls

/-- Every die and core of a partition goes on from its images (R442). -/
def State.loadPartition (s : State) (p : Partition) : State :=
  let off := s.nextId
  let s1 := p.dies.foldl (fun a d => a.resumeDie p off d) { s with nextId := 2 * off }
  s1.loadGroups p (p.dies.flatMap (fun d => match s.saveArea p d with
    | some va => if (s.savedAs p d va).isSome then [] else s.groupEntries p d va off
    | none => []))

/-! ### The end of an eviction, and the group move (R428, R435) -/

/-- Where a stack of a partition goes in a group move: the stack at the same port of the die that takes its owner's place. -/
def State.stackFor (s : State) (p : Partition) (dies : List Nat) (st : Nat) : Nat :=
  let d := dies[p.dies.idxOf (s.ownerDie st)]?.getD 0
  if s.stackPort.getLsbD st then (d + 15) % 16 else d

/-- A partition may move to a list of dies: as many, apart from its own none in another partition, up, each owning the stack that
is to take over; and of equal shape (R25). -/
def State.mayMove (s : State) (p : Partition) (dies : List Nat) : Bool :=
  let q := { p with dies := dies, stackList := p.stackList.map (s.stackFor p dies) }
  dies.eraseDups.length == dies.length && dies.all (fun d => (s.getDie d).up && !(s.getDie d).dead && !s.parts.any (fun r => r.num != p.num && r.dies.contains d)) &&
  p.stackList.all (fun st => s.ownerDie (s.stackFor p dies st) == dies[p.dies.idxOf (s.ownerDie st)]?.getD 0) && s.interchangeable p q

/-- GROUP MOVE (R428): the supervisor moves a partition to another set of dies. It is evicted as for a pre-emption. -/
def execGroupMove (part : Nat) (dies : List Nat) (s : State) : Out :=
  match s.getPart? part with
  | some p =>
    if p.resident && !p.evicting && s.mayMove p dies && p.dies.all (fun d => (s.saveArea p d).isSome) then
      .next (s.setPart { p with evicting := true, moveTo := dies })
    else .next s
  | none => .next s

/-- The contents of stacks go to other stacks, all at once: bytes, errors, lines' keys and views, and what orders them. -/
def State.moveStacks (s : State) (l : List (Nat × Nat)) : State :=
  let size := Config.stackSize
  let goal := fun (k : Nat) => (l.find? (fun x => x.1 == k / size)).map (fun x => x.2 * size + k % size)
  let kept := fun (k : Nat) => !l.any (fun x => x.1 == k / size || x.2 == k / size)
  let cells := (s.mem.filterMap (fun c => (goal c.1).map (fun k => (k, c.2)))).mergeSort (fun a b => decide (a.1 ≤ b.1))
  { s with
    mem := canonCells (((s.mem.filter (fun c => kept c.1)) ++ cells).mergeSort (fun a b => decide (a.1 ≤ b.1)))
    ecc := s.ecc.filter (fun g => kept (8 * g)) ++ s.ecc.filterMap (fun g => (goal (8 * g)).map (· / 8))
    late := s.late.map (fun e => match goal (8 * e.gran) with | some k => { e with gran := k / 8 } | none => e)
    msgs := s.msgs.map (fun e => match goal e.key with | some k => { e with key := k } | none => e)
    lineKeys := s.lineKeys.map (fun x => match goal (128 * x.1) with | some k => (k / 128, x.2) | none => x)
    views := s.views.map (fun x => match goal (128 * x.1) with | some k => (k / 128, x.2) | none => x) }

/-- The dies that an evicted partition leaves hold nothing of it, and those that it moves to stand still at the end of a rotation,
until the rotation that resumes it. -/
def State.changeDies (s : State) (p : Partition) (dies : List Nat) : State :=
  let m : Remap := { dies := p.dies.zip dies, part := p.num, off := 0, was := 0, now := 0 }
  let s1 := p.dies.foldl (fun a d => (a.emptyDie p d).onDie d Die.formed) s
  let s2 := dies.foldl (fun a d => a.onDie d (fun k =>
    { k.formed with stopped := true, stopAt := if k.cyc < 7 then 7 else (k.cyc + 1) / 8 * 8 - 1 })) s1
  { s2 with
    launches := s2.launches.map (fun l => if l.part = p.num then l.moved m else l)
    groups := s2.groups.map (fun g => if (s.getLaunch? g.lid).any (fun l => l.part == p.num) then g.moved m else g)
    cmds := s2.cmds.map (fun c => { c with
      op := c.op.map m.pair
      chans := c.chans.map (fun x => if p.dies.contains x.srcDie then { x with srcDie := m.die x.srcDie, dstDie := m.die x.dstDie } else x) }) }

/-- PARTITION_EVICTED (R435): every die of the partition has its images; the EVICT that asked for it completes. -/
def execPartitionEvicted (part : Nat) (s : State) : Out :=
  match s.getPart? part with
  | none => .next s
  | some p =>
    let s0 := s.setPart { p with resident := false }
    -- its threads are spilled now, and their turns free (R32, R33)
    let s1 := { s0 with threads := s0.threads.map (Thread.evicted part) }
    if p.moveTo.isEmpty then
      .next ((s1.mgmt.filter (fun m => m.block.extractLsb' 0 8 == 6#8 && (m.block.extractLsb' 16 4).toNat == part)).foldl
        (fun a m => a.schedWall 0 (.evict m.mid)) s1)
    else
      -- a group move goes on at once on the other dies (R428)
      let q := { p with
        dies := p.moveTo, stackList := p.stackList.map (s1.stackFor p p.moveTo), moveTo := [], resident := false }
      let s2 := ((s1.moveStacks (p.stackList.map (fun st => (st, s1.stackFor p p.moveTo st)))).changeDies p p.moveTo).setPart q
      let s3 := { s2 with saved := s2.saved.filter (fun v => v.part != part) }.loadPartition q
      .next (s3.setPart { q with resident := true, evicting := false })


end Sys2Proof.Machine
end

