-- ==== Sys2Proof/Machine/Remote.lean ====
section
/-! DEFINITION. Off-core accesses and remote operations at their homes, and their replies (R208, R218-R225, R134, R151,
R411, R424, R469). -/

namespace Sys2Proof.Machine

/-- A page on the move, or a stack in handover, keeps a request until it has settled (R411, R424). -/
def State.park (s : State) (q : Req) (a : W64) : State :=
  let moving := if addrForm a < 2 then (s.moveOf? q.part (a.toNat / 4096 * 4096)).filter (fun m => !m.window && !m.idle) else none
  match moving with
  | some m => s.setMove { m with parked := m.parked ++ [q.rid] }
  | none =>
    if s.dies.any (fun d => d.handQ.any (·.draining)) then { s with parked := s.parked ++ [q.rid] }
    else s.schedIn (s.reqDie q) 1 (s.reqRank q) q.arrival

/-- What a request is charged (R469): activity 4 for host memory, 0 for a remote operation between dies. It is charged once,
and one that an acquire needs at once is not held. -/
def State.reqCharge (s : State) (q : Req) (sc : Scan) : Bool × State :=
  match s.activityOf q.iss.die (sc.ok.map (·.key)) with
  | none => (true, s)
  | some k =>
    if (q.sync && k = 0) || q.todo ≠ BitVec.allOnes 64 then (true, s)
    else
      let b := s.charge q.part k (q.size * q.addrs.length)
      (b.1 || q.rush, b.2)

/-- A request reaches its home: it follows the requests that must be applied first (R144, R145), waits for a stack in
handover (R411), a page on the move (R424) or a budget (R469), and its events take place or it fails. -/
def State.serve (s : State) (rid : Nat) (again : Event) : State :=
  match s.getReq? rid with
  | none => s
  | some q =>
    if q.applied then s
    else if s.reqs.any (fun r => q.after.contains r.rid && !r.applied) || s.sameBefore q then
      s.schedIn (s.reqDie q) 1 (s.reqRank q) again
    else
      let r := s.scanReq q
      match r.1.stop with
      | some (none, a) => r.2.park q a
      | some (some _, _) => r.2.perform q r.1
      | none =>
        let b := r.2.reqCharge q r.1
        if b.1 then b.2.perform q r.1
        else r.2.untilPeriod q.part (.cycle (s.reqDie q) 0 (s.reqRank q)) again

/-- PEER_REQUEST: a request reaches a core's bank (R208, R151). -/
def execPeerRequest (rid : Nat) (s : State) : Out := .next (s.serve rid (.peerRequest rid))
/-- MEMORY_REQUEST: a request reaches its home slice, or host memory (R411, R424). -/
def execMemoryRequest (rid : Nat) (s : State) : Out := .next (s.serve rid (.memoryRequest rid))

/-! ### Replies -/

/-- OFF_CORE_REPLY: the reply of a synchronous access arrives (R208). A thread whose die has stopped for a pre-emption
still issues the bundle that waits for it (R434). -/
def execOffCoreReply (rid : Nat) (s : State) : Out :=
  match s.getReq? rid with
  | none => .next s
  | some q =>
    match s.getThread? q.iss.tid with
    | none => .next (s.dropReq rid)
    | some t =>
      if t.offReq ≠ some rid then .next (s.dropReq rid)
      else
        let s1 := s.setReq { q with replied := true, repliedAt := s.cyc t.die }
        .next (if (s.getDie t.die).stopped && !t.onControl then { s1 with slots := s1.slots ++ [t.tid] } else s1)

/-- A reply that returns to an old core reaches the thread through the forwarding entries (R224, R374). -/
def State.forwarded (s : State) (t : Thread) : Nat → Nat → Nat → Bool
  | 0, _, _ => false
  | fuel + 1, d, c =>
    (t.die == d && t.core == c) ||
    (match (s.getCore d c).fwd.reverse.find? (fun f => f.1 == t.tid) with
     | some (_, d', c') => s.forwarded t fuel d' c'
     | none => false)

/-- REMOTE_REPLY: a remote operation completes at its thread, with its delivery, its flags or its fault (R219-R224). -/
def execRemoteReply (rid : Nat) (s : State) : Out :=
  match s.getReq? rid with
  | none => .next s
  | some q =>
    let s0 := s.dropReq rid
    match s0.getThread? q.iss.tid with
    | none => .next s0
    | some t =>
      let ref := TlRef.remote t.tid
      let counted : Bool := q.kind == .store || (q.kind == .atomic && q.noRet)
      let live : Bool := t.st != .exited
      let s1 := s0.setThread { t with rcStores := if counted then t.rcStores - 1 else t.rcStores }
      let bad := fun (c : BitVec 8) (p a : W64) =>
        let u := s1.onThread t.tid (fun v => { v with reads := v.reads.filter (fun r => r.num != q.iss.num) })
        u.faultOp ref { u.mkFault q.iss 1 0 c p a 0 with flags := q.flags }
      if !s.forwarded t 64 q.iss.die q.iss.core then .next (bad acCancelled 0 0)
      else
        match q.fault with
        | some (c, a) => .next (bad c (BitVec.ofNat 64 q.progress) a)
        | none =>
          let s2 := if live then s1.flagsTo t.tid q.flags else s1
          -- what the read brought waits for the WAIT (R144)
          let s3 := s2.onThread t.tid (fun v => { v with reads := v.reads.map (fun r =>
            if r.num = q.iss.num then { r with got := q.got, ids := q.ids } else r) })
          let s4 := if live && !q.noDeliver then s3.onThread t.tid (fun v =>
            { v.putFile q.file q.reg q.result with stale := (v.stale || v.spilled.isSome) }) else s3
          .next (s4.completeOp ref q.iss.num)

end Sys2Proof.Machine
end

