-- ==== Sys2Proof/Machine/Clock.lean ====
section
/-! DEFINITION. Clocks (R45-R49, R52): warnings and stretches of the regions of a die, and power steps. They change wall
time and no count. -/

namespace Sys2Proof.Machine

def Die.leadOf (d : Die) (r : Nat) : Nat := (rd d.lead r).toNat

/-- Wall time from one cycle of a die to the next (R46, R52): that of its slowest region, whose cycle lasts 1.25 periods while it
stretches. -/
def Die.period (d : Die) : Nat :=
  let p := 16 * Config.ns / d.freq
  if (List.range 16).any (fun r => d.leadOf r == 0 && d.stretch.getLsbD r) then p * 5 / 4 else p

/-- A region in the bits of a die. -/
def regionBit (r : Nat) : BitVec 16 := 1#16 <<< r

/-- REGION_STRETCH (R46): a region raises a warning and stretches. -/
def execRegionStretch (die : Nat) (region : Nat) (s : State) : Out :=
  .next (s.onDie die (fun d => { d with
    warn := d.warn ||| regionBit region, stretch := d.stretch ||| regionBit region, lastWarn := d.cyc }))

/-- A stretch of a die may end (R47): no region has held a warning for 32 cycles. -/
def Die.calm (d : Die) : Bool := d.warn == 0 && decide (d.lastWarn + 32 ≤ d.cyc)

/-- STRETCH_END (R47): in every region of the die at once. -/
def execStretchEnd (die : Nat) (s : State) : Out :=
  .next (s.onDie die (fun d => if d.calm then { d with stretch := 0 } else d))

/-! ### Skew (R48, R49) -/

/-- The last cycle that a region can have begun when the slowest one begins the die's. All of them run through the same numbers, and a
step of the model serves one number in all of them, so that none skips or repeats one (R47): a lead is wall time. -/
def Die.regionCycle (d : Die) (r : Nat) : Nat := d.cyc + d.leadOf r / 4
/-- The same for a core. -/
def Die.coreCycle (d : Die) (core : Nat) : Nat := d.regionCycle (regionOf core)

/-- Tags of the entries that stand in the boundary buffer from region q to region r. -/
def State.crossing (s : State) (d q r : Nat) : List Nat :=
  ((s.getDie d).entries.filter (fun e => e.1 == q && e.2.1 == r)).map (·.2.2)

/-- Tags of the entries in the boundary buffer from region q to region r (R48): cycles that q has executed and whose
entries r has not released, which it does at its own cycle n + 1. Of the 8 entries a skew of 6 cycles takes 7. -/
def Die.boundary (d : Die) (q r : Nat) : List Nat :=
  (List.range (d.regionCycle q + 1 - d.regionCycle r)).map (fun i => d.regionCycle r + i)

/-- The bound of R49 on the skew of neighbouring regions, in quarters of a cycle. -/
def skewBound : Nat := 24

/-- The leads after one more cycle: a region that stretches loses a quarter on one that does not. -/
def Die.drift (d : Die) : Vector Nat 16 :=
  let l := Vector.ofFn (fun (r : Fin 16) => d.leadOf r.val + (if d.stretch.getLsbD r.val then 0 else 1))
  let least := l.toList.foldl Nat.min (l[0]?.getD 0)
  l.map (fun x => x - least)

/-- A region that a vector of leads has too far ahead of a neighbour. -/
def tooFar (l : Vector Nat 16) (bound : Nat) : Option Nat :=
  (List.range 16).find? (fun q => (List.range 16).any (fun r =>
    regionsMeet q r && decide (l[r]?.getD 0 + bound < l[q]?.getD 0)))

/-- Each region no further ahead of its neighbours than the bound. -/
def keepBound (l : Vector Nat 16) : Vector Nat 16 :=
  Vector.ofFn (fun (q : Fin 16) => ((List.range 16).filter (regionsMeet q.val)).foldl
    (fun m r => Nat.min m (l[r]?.getD 0 + skewBound)) (l[q.val]?.getD 0))
/-- The same for the neighbours of neighbours: no region is more than 4 away. -/
def bounded (l : Vector Nat 16) : Vector Nat 16 := keepBound (keepBound (keepBound (keepBound l)))

/-- The leads after a cycle, which the bound limits, and the leading region for which the monitor forces a stretch where they would
pass it (R49; log 103, DESIGN CHOICE). -/
def Die.skewed (d : Die) : Die × Option Nat :=
  ({ d with lead := (bounded d.drift).map (BitVec.ofNat 8) }, tooFar d.drift skewBound)

/-- A neighbour has an entry for a region on its way: one sent in the cycle before, which the region releases in this one. -/
def Die.awaits (d : Die) (r q : Nat) : Bool := d.entries.any (fun e => e.1 == q && e.2.1 == r && d.cyc ≤ e.2.2 + 1)

/-- The lead that a region has once it has waited for the entries that it needs: one cycle on the neighbours that send them (log 44,
DESIGN CHOICE). -/
def Die.held (d : Die) (r : Nat) : Nat :=
  ((List.range 16).filter (fun q => regionsMeet r q && d.awaits r q)).foldl (fun m q => Nat.min m (d.leadOf q + 4)) (d.leadOf r)

/-- A region reaches its cycle before an entry that it needs is there (R48). -/
def Die.outruns (d : Die) (r : Nat) : Bool := decide (d.held r < d.leadOf r)

/-- EDGE_HOLD (R48): the receiving region begins its cycle when the entry has arrived, which is a stretch of it; the regions ahead of
it keep the bound. -/
def execEdgeHold (die : Nat) (region : Nat) (s : State) : Out :=
  .next (s.onDie die (fun d =>
    let l := bounded ((wr d.lead region (BitVec.ofNat 8 (d.held region))).map (·.toNat))
    { d with stretch := d.stretch ||| regionBit region, lastWarn := d.cyc, lead := l.map (BitVec.ofNat 8) }))

/-- SKEW_FORCED_STRETCH (R49): a die-wide stretch. -/
def execSkewForcedStretch (die : Nat) (region : Nat) (s : State) : Out :=
  .next (s.onDie die (fun d => { d with stretch := BitVec.allOnes 16 ||| regionBit region, lastWarn := d.cyc }))

/-- POWER_STEP (R52): at a rotation boundary, in steps of 62.5 MHz between 0.625 and 1.25 GHz. -/
def execPowerStep (die : Nat) (freq : Nat) (s : State) : Out :=
  let d := s.getDie die
  if d.cyc % 8 = 7 then .next (s.setDie { d with freq := Nat.max 10 (Nat.min 20 freq) })
  else .next (s.schedIn die (7 - d.cyc % 8) rankLate (.powerStep die freq))

/-- The regions of a die that a stretch has reached one cycle later (R47): it spreads to those that meet, and so over the die in 4
cycles. How fast it spreads is the model's choice: the manual bounds it by 16 cycles (log 113, DESIGN CHOICE). -/
def spreadStretch (m : BitVec 16) : BitVec 16 :=
  BitVec.ofNat 16 ((List.range 16).foldl (fun a r =>
    a + bit ((List.range 16).any (fun q => m.getLsbD q && (r == q || regionsMeet r q))) r) 0)

/-- What a cycle does to the regions of a die: a stretch spreads, warnings end when the margin recovers, which the manual leaves open
(log 12, DESIGN CHOICE), and a calm die ends its stretch. A region that would begin before an entry has come that it needs holds its
edge (R48), and the monitor stretches the die rather than let the bound be passed (R49). -/
def State.stretchHouse (s : State) (d : Nat) : State :=
  let k := s.getDie d
  if k.stretch = 0 && k.entries.isEmpty then s
  else
    let warn := BitVec.ofNat 16 ((List.range 16).foldl (fun a r => a + bit (k.warn.getLsbD r && s.choice 5 (d * 16 + r)) r) 0)
    let k1 := { k with
      warn := warn, lastWarn := if warn = 0 then k.lastWarn else k.cyc, entries := k.entries.filter (fun e => k.cyc ≤ e.2.2 + 1) }
    let k2 := k1.skewed
    let s1 := s.setDie { k2.1 with stretch := spreadStretch k1.stretch }
    let s2 := (List.range 16).foldl (fun a r => if k1.outruns r then a.schedIn d 0 rankEngine (.edgeHold d r) else a) s1
    let s3 := match k2.2 with
      | some q => s2.schedIn d 0 rankEngine (.skewForcedStretch d q)
      | none => s2
    if k1.calm && k.stretch ≠ 0 then s3.schedIn d 0 rankEngine (.stretchEnd d) else s3

end Sys2Proof.Machine
end

