-- ==== Sys2Proof/Machine/Control.lean ====
section
/-! DEFINITION. Control flow and group operations of the S slot (R186-R198, R59, R56), and the release of a bundle's
loops (R190). -/

namespace Sys2Proof.Machine

/-- BR (R186). -/
def execBr (c : BitVec 4) (n : BitVec 1) (i : BitVec 16) (s : State) : Out :=
  .next (if xor (s.rc c.toNat) (n == 1) then s.jumpTo (s.pre.pc + i.signExtend 64 * 4) else s)

/-- JMP (R187). -/
def execJmp (i : BitVec 18) (xx : Option (BitVec 26)) (s : State) : Out :=
  .next (s.jumpTo (s.pre.pc + jmpOff i xx * 4))

/-- CALL (R187): x31 takes the low half of the sequential successor; a target that does not start a bundle traps, and
then x31 is not written. -/
def execCall (i : BitVec 18) (xx : Option (BitVec 26)) (s : State) : Out :=
  let s1 := s.jumpTo (s.pre.pc + jmpOff i xx * 4)
  .next (if s1.bun.stop = .none then s1.wx 31 (s.bun.next.extractLsb' 0 32) else s1)

/-- JMPR (R188). -/
def execJmpr (r : BitVec 5) (s : State) : Out := .next (s.jumpReg (s.rx r.toNat))
/-- RET (R188). -/
def execRet (s : State) : Out := .next (s.jumpReg (s.rx 31))

/-- LOOP (R189): the end word is fetched at issue whatever the count. In the end bundle of the loop it names, the count it
writes stands, as one that SYSW writes there does (R190). -/
def execLoop (n : BitVec 1) (r : BitVec 5) (i : BitVec 11) (s : State) : Out :=
  let e := s.pre.pc + i.signExtend 64 * 4
  match s.fetchPacket s.pre (packetAddr e) with
  | (.error c, s1) => .next (if c = fetchWaits then s1.block else s1.trapSyl .trap 0 c 0 e)
  | (.ok p, s1) =>
    if (packetWord p e).getLsbD 31 then
      let k := n.toNat
      let s2 := { s1 with
        me := { s1.me with lc := wr s1.me.lc k (s.rx r.toNat), ls := wr s1.me.ls k s.bun.next, le := wr s1.me.le k e } }
      let s3 := { s2 with bun := { s2.bun with lcWritten := s2.bun.lcWritten ||| (1#2 <<< k) } }
      .next (if s.rx r.toNat = 0 then { s3 with bun := { s3.bun with taken := some (bundleNext p e) } } else s3)
    else .next (s1.trapSyl .trap 0 tcTarget 0 e)

/-- A stamped BAR at the frame position of its stamp: the last %cycle before its check, two positions on (R59). The model's
choice (log 19, DESIGN CHOICE): two rotations on from the BAR bundle whatever the frame, so that position s + 2 of a frame shorter than
that counts on into the next frame, and a FRAME issued in between moves nothing. -/
def barDeadline (s : State) : Nat := s.cycleReg s.pre.die + 16

/-- BAR (R191): in free mode it registers its arrival at the first attempt and blocks until the instance completes; at
level 0 it completes at once. A stamped BAR registers and holds nothing (R59). -/
def execBar (l : BitVec 3) (s : State) : Out :=
  if levelShift s.pre.widf l.toNat = 0 then .next s.ordered
  else
    match s.bun.stamp, s.pre.stamped with
    | some (nx, st), true =>
      let r := s.arrive s.pre .barrier l.toNat
      .next { r.2 with me := { r.2.me with
        barChk := r.2.me.barChk ++ [(r.1, s.pre.pc, BitVec.ofNat 32 (bit nx 20 + st), barDeadline s)] } }
    | _, _ =>
      match s.arrivedAt? s.pre .barrier l.toNat with
      | some g => if g.complete then .next (s.departGroup g.gid s.pre.tid) else .next (s.holdSyl 0)
      | none => .next ((s.arrive s.pre .barrier l.toNat).2.holdSyl 0)

/-- FRAME (R198, R56): it blocks in both modes until the frame start z of the thread's die. -/
def execFrame (l : BitVec 3) (s : State) : Out :=
  match s.arrivedAt? s.pre .frame l.toNat with
  | some g =>
    match g.starts.find? (fun x => x.1 == s.pre.die) with
    | some (_, z) =>
      if z ≤ s.cycleReg s.pre.die then
        let s1 := s.departGroup g.gid s.pre.tid
        .next { s1 with me := { s1.me with frRun := true, frNum := 0, frZ := z, frOff := 0, frStart := z, target := none } }
      else .next s.block
    | none => .next s.block
  | none => .next (s.arrive s.pre .frame l.toNat).2.block

/-- EXIT (R193, R194): it runs after the bundle's other syllables. -/
def execExit (l : BitVec 3) (s : State) : Out :=
  match s.unreported? s.pre.tid with
  | some h => .next (s.trapSyl .trap 0 tcHandleFault 0 h)
  | none =>
    let key := groupKey s.pre.widf s.pre.wid l.toNat
    .next ((s.exitGroup s.pre.lid l.toNat key s.pre.tid).leave s.pre.tid)

/-- TRAP (R195): raised after the bundle's other syllables, with the successor as resumption address. -/
def execTrap (n : BitVec 16) (s : State) : Out :=
  let s1 := s.takeTrapAfter { cause := tcTrap, slot := 0, detail := n.setWidth 32, addr := 0, syl := rd s.bun.words 0 }
  .next { s1 with bun := { s1.bun with stop := .after } }
/-- BRK (R195). -/
def execBrk (n : BitVec 16) (s : State) : Out :=
  let s1 := s.takeTrapAfter { cause := tcBreak, slot := 0, detail := n.setWidth 32, addr := 0, syl := rd s.bun.words 0 }
  .next { s1 with bun := { s1.bun with stop := .after } }

/-- RTE (R196): PRIVILEGE at user privilege outside a handler; otherwise it runs after the bundle's other syllables. -/
def execRte (s : State) : Out :=
  if !s.pre.priv.isSys && !s.pre.tcause.getLsbD 31 then .next (s.noPriv 0)
  else
    let s1 := s.jumpTo s.pre.tpc
    .next (if s1.bun.stop = .none then
        let pc := s1.me.pc
        let st := s1.me.st
        let s2 := s1.returnThread s1.me pc
        { s2 with me := { s2.me with st := st } }
      else s1)

/-- Evaluate loop n at its end bundle (R190): the successor it gives, if it goes on. Whether the word it goes back to starts
a bundle is not checked here (log 23, DESIGN CHOICE): R72 checks the end word at LOOP, and a start word with B = 0 traps
BUNDLE_FORM
where it is fetched (log 95, DESIGN CHOICE). -/
def State.evalLoop (s : State) (n : Nat) : Option W64 × State :=
  if rd s.pre.lc n ≠ 0 && rd s.pre.le n = s.pre.pc then
    let more := decide (1 < (rd s.pre.lc n).toNat)
    let v : W32 := if more then rd s.pre.lc n - 1 else 0
    let s1 := if s.bun.lcWritten.getLsbD n then s else { s with me := { s.me with lc := wr s.me.lc n v } }
    (if more then some (rd s.pre.ls n) else none, s1)
  else (none, s)

/-- Where the thread goes after a bundle that took effect (R186-R190): a taken transfer wins, then loop 1, then
loop 0. -/
def State.advancePc (s : State) : State :=
  match s.bun.taken with
  | some a => { s with me := { s.me with pc := a } }
  | none =>
    match s.evalLoop 1 with
    | (some a, s1) => { s1 with me := { s1.me with pc := a } }
    | (none, s1) =>
      match s1.evalLoop 0 with
      | (some a, s2) => { s2 with me := { s2.me with pc := a } }
      | (none, s2) => { s2 with me := { s2.me with pc := s2.bun.next } }

/-- BARRIER_COMPLETE: the instance completes for every member (R192): what came before any arrival happens before what
follows at every member (R145). -/
def execBarrierComplete (gid : Nat) (s : State) : Out :=
  match s.getGroup? gid with
  | some g => .next (g.arrived.foldl (fun a tid => a.join tid g.ids) (s.setGroup { g with complete := true }))
  | none => .next s

/-- A member of an instance on a die whose attempt in this cycle is over and held, when the frame starts in this very
cycle: it issues again in it, which is its first issue cycle at or after z (R56; log 86, DEDUCED). -/
def State.frameAgain (s : State) (g : Group) (die : Nat) : State :=
  let z := s.cycleReg die
  let ts := s.threads.filter (fun t => g.arrived.contains t.tid && t.die == die && t.turn == z % 8 && t.st == .blocked &&
    !s.slots.contains t.tid)
  { ts.foldl (fun a t => a.setThread { t with again := true }) s with slots := s.slots ++ ts.map (·.tid) }

/-- FRAME_START: the last arrival reaches a die in its current cycle a; z is the first multiple of 8 at or after
a + 8 × SLACK (R56). -/
def execFrameStart (gid die : Nat) (s : State) : Out :=
  match s.getGroup? gid with
  | none => .next s
  | some g =>
    let slack := match s.getLaunch? g.lid with
      | some l => (l.framew.extractLsb' 32 16).toNat
      | none => 0
    let a := s.cycleReg die
    let z := (a + 8 * slack + 7) / 8 * 8
    let s1 := s.setGroup { g with starts := g.starts ++ [(die, z)] }
    .next (if z = a then s1.frameAgain g die else s1)

/-- FRAME_WRAP: a frame of the issuing thread is over; its number advances (R55). -/
def execFrameWrap (s : State) : Out :=
  let z := s.cycleReg s.me.die
  let n := (z - s.me.frZ) / 8 + s.me.frOff
  if s.me.frRun && s.me.frLen ≤ n then
    let k := n / s.me.frLen
    .next { s with me := { s.me with
      frZ := s.me.frZ + 8 * (k * s.me.frLen - s.me.frOff), frOff := s.me.frOff - k * s.me.frLen
      frNum := (s.me.frNum + k) % 2048 } }
  else .next s

/-- EXIT_ARRIVAL: a group exit reaches a member (R193): a running one leaves at its next issue cycle. -/
def execExitArrival (tid : Nat) (s : State) : Out :=
  match s.getThread? tid with
  | none => .next s
  | some t =>
    if t.st = .exited then .next s
    else if t.st = .running && t.spilled.isNone then .next (s.setThread { t with exiting := true })
    else .next (s.leave tid)

/-- The launch of a killed group keeps the lowest killed identifier (R453). -/
def State.markKilled (s : State) (lid level : Nat) (key : W64) : State :=
  match s.getLaunch? lid with
  | none => s
  | some l =>
    let low := (s.liveMembers lid level key).foldl (fun (m : Option W64) t => match m with
      | some w => some (if BitVec.ult t.wid w then t.wid else w)
      | none => some t.wid) l.killed
    s.setLaunch { l with killed := low }

/-- The trap records of the members of a killed group leave the control cores; in hardware mode they are appended to
the record ring of the partition's home function (R470). The manual gives that ring no address: it is held beside the function
(log 57, DESIGN CHOICE). -/
def State.closeTraps (s : State) (lid level : Nat) (key : W64) : State :=
  let ids := (s.liveMembers lid level key).map (·.tid)
  let recs := s.traps.filter (fun r => ids.contains r.tid)
  let s1 := { s with traps := s.traps.filter (fun r => !ids.contains r.tid) }
  match (s.getLaunch? lid).bind (fun l => (s.getPart? l.part).bind (·.home)) with
  | none => s1
  | some h =>
    let f := s.getFunc h
    if f.trpm then s1 else s1.setFunc { f with ring := f.ring ++ recs.map (·.rec512) }

/-- Trap records of the thread's partition are posted to the host, and it stays trapped until the host answers (R470). -/
def State.assisted (s : State) (t : Thread) : Bool :=
  !t.onControl && (match (s.getPart? t.part).bind (·.home) with
    | some h => (s.getFunc h).trpm
    | none => false)

/-- The group of a thread at a level is killed (R33, R176): it ends as by EXIT. -/
def State.killGroup (s : State) (t : Thread) (level : Nat) : State :=
  let key := groupKey t.widf t.wid level
  let s1 := (s.markKilled t.lid level key).closeTraps t.lid level key
  (s1.exitGroup t.lid level key t.tid).leave t.tid

/-- A member's group is killed at a level. -/
def State.killMember (s : State) (tid level : Nat) : State :=
  match s.getThread? tid with
  | none => s
  | some t => if t.st = .exited then s else s.killGroup t level

/-- GROUP_KILL: a control core kills a member's group at a level (R33, R176); a trapped thread in host-assisted mode waits for
the host (R470). -/
def execGroupKill (tid level : Nat) (s : State) : Out :=
  match s.getThread? tid with
  | none => .next s
  | some t => if t.st = .trapped && s.assisted t then .next s else .next (s.killMember tid level)

/-- A trapped thread resumes, at %tpc or at an address written there first (R33, R60, R173). A spilled one is restored under R36. -/
def State.resumeThread (s : State) (tid : Nat) (tpc : Option (BitVec 64)) : State :=
  match s.getThread? tid with
  | none => s
  | some t =>
    if t.st ≠ .trapped then s
    else
      let t1 := match tpc with
        | some a => { t with tpc := a }
        | none => t
      let s1 := { s with traps := s.traps.filter (fun r => r.tid != tid) }
      s1.returnThread { t1 with stale := (t1.stale || t1.spilled.isSome) } t1.tpc

/-- THREAD_RESUME: a control core resumes a trapped thread; in host-assisted mode the thread waits for the host (R470). -/
def execThreadResume (tid : Nat) (tpc : Option (BitVec 64)) (s : State) : Out :=
  match s.getThread? tid with
  | none => .next s
  | some t => if s.assisted t then .next s else .next (s.resumeThread tid tpc)

/-- LONG_RESULT_LANDING: a rotation passes for the issuing thread, and the long results due for this bundle land
(R85, R86; log 5, DESIGN CHOICE). -/
def execLongResultLanding (s : State) : Out :=
  let down := s.me.longs.map (fun g => if g.latched then g else { g with left := g.left - 1 })
  let due := down.filter (fun g => !g.latched && !g.snap && g.left == 0)
  let t := due.foldl Thread.putLong s.me
  .next { s with me := { t with longs := down.filter (fun g => g.latched || g.snap || g.left != 0) } }

/-- SNAPSHOT_LANDING: the snapshot entries of the issuing thread due for this bundle land (R174). LONG_RESULT_LANDING
has counted the rotation. -/
def execSnapshotLanding (s : State) : Out :=
  let due := s.me.longs.filter (fun g => !g.latched && g.snap && g.left == 0)
  let t := due.foldl Thread.putLong s.me
  .next { s with me := { t with longs := s.me.longs.filter (fun g => g.latched || !g.snap || g.left != 0) } }

/-- VMM_DELAY_END: a rotation of the VMM delay passes (R257; log 88, DEDUCED). -/
def execVmmDelayEnd (s : State) : Out := .next { s with me := { s.me with vdly := s.me.vdly - 1 } }

/-- NULL_BUNDLE: nothing a program can see changes (R18). -/
def execNullBundle (s : State) : Out := .next s

/-- BUNDLE_RELEASE: the bundle has taken effect: SCNT advances unless the bundle wrote %rnd (R119), and the thread
goes on to its next bundle in the running state (R34, R190). -/
def execBundleRelease (s : State) : Out :=
  let c := ((s.pre.rnd.extractLsb' 8 24).toNat + s.bun.counts) % 2 ^ 24
  let r := if s.bun.rndWritten || s.bun.counts = 0 then s.me.rnd
           else BitVec.ofNat 32 (c * 256) ||| (s.me.rnd &&& 0xFF#32)
  let st := if s.me.st = .blocked then .running else s.me.st
  .next { s with me := { s.me with
    rnd := r, st := st, since := 0, recvFrom := 0, notice := 0, reportedOne := false, target := none, packet := none } }.advancePc

/-- STAMP_TARGET: at the first attempt the target of the bundle's stamp is fixed (R57). -/
def execStampTarget (s : State) : Out :=
  match s.bun.stamp with
  | none => .next s
  | some (nx, st) =>
    let z := s.cycleReg s.pre.die
    let n := (z - s.pre.frZ) / 8 + s.pre.frOff
    let base := s.pre.frZ + 8 * ((n / s.pre.frLen + (if nx then 1 else 0)) * s.pre.frLen + st) - 8 * s.pre.frOff
    -- the thread's issue cycle at that position keeps its residue modulo 8
    let tgt := base + z % 8
    .next { s with me := { s.me with target := some tgt }, pre := { s.pre with target := some tgt } }

/-- ISSUE_STAMP (R57, R70): in free mode it has no effect; in stamped mode it records the stamp of the bundle. -/
def execIssueStamp (x : BitVec 1) (st : BitVec 20) (s : State) : Out :=
  .next { s with bun := { s.bun with stamp := some (x == 1, st.toNat) } }

/-- ILLEGAL_SYLLABLE: the bundle holds a word that is no instruction (R64, R77, R87, R93). -/
def execIllegalSyllable (slot : Nat) (word : BitVec 32) (s : State) : Out :=
  .next (s.takeTrap .illegal { cause := tcIllegal, slot := slot, detail := 0, addr := 0, syl := word } none)

/-- FETCH_PAGE_FAULT: the first bundle of a packet that cannot be fetched traps with the cause of R73. -/
def execFetchPageFault (cause : Nat) (addr : BitVec 64) (s : State) : Out :=
  .next (s.trapBundle .illegal (BitVec.ofNat 8 cause) 0 addr)

end Sys2Proof.Machine
end

