-- ==== Sys2Proof/Machine/System.lean ====
section
/-! DEFINITION. SYSR and SYSW and every system register (R165-R170, R197, R464), plug-in calls (R465-R467) and the
issue of management commands by %mcmd (R471). -/

namespace Sys2Proof.Machine

/-- Registers marked sys (R464). -/
def sysMarked (n : Nat) : Bool := (0x100 ≤ n && n ≤ 0x10C) || n = 0x110

/-- %mown as a turn of the core reads it (R314). -/
def State.mown (s : State) (t : Thread) : W32 :=
  let k := s.getCore t.die t.core
  match k.mat.owner with
  | none => BitVec.ofNat 32 ((k.mat.queue.length + k.mat.tl.held.length) * 2 ^ 8)
  | some o =>
    let turn := match s.getThread? o with
      | some u => u.turn
      | none => 0
    BitVec.ofNat 32 (2 ^ 31 + bit (o == t.tid) 30 + (k.mat.queue.length + k.mat.tl.held.length) * 2 ^ 8 + turn)

/-- The value of a register at the read stage, in 64 bits (R166, R22, R464). -/
def State.sysRead (s : State) (n : Nat) : W64 :=
  let t := s.pre
  let d := s.getDie t.die
  if n = 0x000 then t.wid
  else if n = 0x001 then t.widf
  else if n ≤ 0x007 then (rd t.ext (n - 2)).setWidth 64
  else if n = 0x008 then BitVec.ofNat 64 (if t.onControl then t.die else s.logDie t.part t.die)
  else if n = 0x009 then BitVec.ofNat 64 t.core
  else if n = 0x00A then BitVec.ofNat 64 t.turn
  else if n = 0x00B then
    if t.onControl then
      match s.parts.find? (fun p => p.dies.contains t.die) with
      | some p => if t.die < 16 then BitVec.ofNat 64 p.num else 0xFFFFFFFF#64
      | none => 0xFFFFFFFF#64
    else BitVec.ofNat 64 t.part
  else if n = 0x010 then BitVec.ofNat 64 (s.cycleReg t.die)
  else if n = 0x011 then (t.frameReg (s.cycleReg t.die)).setWidth 64
  else if n = 0x018 then (rd t.lc 0).setWidth 64
  else if n = 0x019 then (rd t.lc 1).setWidth 64
  else if n = 0x020 then t.rnd.setWidth 64
  else if n = 0x021 then t.fflags.setWidth 64
  else if n = 0x022 then t.seed.setWidth 64
  else if n ≤ 0x02F then (rd t.dscale (n - 0x028)).setWidth 64
  else if n = 0x030 then t.tvec.setWidth 64
  else if n = 0x031 then t.tcause.setWidth 64
  else if n = 0x032 then t.tpc
  else if n = 0x033 then t.trec.setWidth 64
  else if n = 0x038 then (s.mown t).setWidth 64
  else if n = 0x100 then t.ctl.pcall.setWidth 64
  else if n = 0x101 then t.ctl.pstat.setWidth 64
  else if n = 0x102 then t.ctl.psret
  else if n = 0x103 then t.ctl.mcmd.setWidth 64
  else if n ≤ 0x107 then (rd t.ctl.gbase (n - 0x104)).setWidth 64
  else if n ≤ 0x10B then (rd t.ctl.glim (n - 0x108)).setWidth 64
  else if n = 0x10C then t.ctl.mstat.setWidth 64
  else if n = 0x111 then d.fwslot.setWidth 64
  else 0

/-- SYSR (R167, R197): a read of the low half of %cycle captures the high half. -/
def execSysr (x : BitVec 5) (r : BitVec 10) (h : BitVec 1) (s : State) : Out :=
  let n := r.toNat
  if 0x100 ≤ n && !s.pre.onControl then .next (s.illegal 0)
  else if sysMarked n && !s.pre.priv.isSys then .next (s.noPriv 0)
  else
    let v := s.sysRead n
    if n = 0x010 then
      if h = 1 then .next (s.wx x.toNat s.pre.cycHi)
      else
        let q := s.wx x.toNat (v.extractLsb' 0 32)
        .next { q with me := { q.me with cycHi := v.extractLsb' 32 32 } }
    else .next (s.wx x.toNat (if h = 1 then v.extractLsb' 32 32 else v.extractLsb' 0 32))

/-- The OPs of R472 as the events that carry them out. -/
def mgmtEvent (op mid : Nat) : Option Event :=
  match op with
  | 0x01 => some (.pform mid) | 0x02 => some (.pdiss mid) | 0x03 => some (.keyld mid) | 0x04 => some (.stkmove mid)
  | 0x05 => some (.pool mid) | 0x06 => some (.evict mid) | 0x07 => some (.resume mid) | 0x08 => some (.memcfg mid)
  | 0x09 => some (.xroot mid) | 0x0A => some (.gtab mid) | 0x0B => some (.budget mid) | 0x0C => some (.swin mid)
  | 0x0D => some (.croute mid) | 0x0E => some (.fassign mid) | 0x0F => some (.qmap mid) | 0x10 => some (.qunmap mid)
  | 0x11 => some (.hyst mid) | 0x12 => some (.pload mid) | 0x13 => some (.tslice mid) | 0x14 => some (.fpool mid)
  | 0x15 => some (.kill mid)
  | _ => none

/-- A SYSW of v to %mcmd (R471). -/
def State.issueMgmt (s : State) (v : W32) : State :=
  let t := s.me
  let setStat := fun (q : State) (m : W32) => { q with me := { q.me with ctl := { q.me.ctl with mstat := m } } }
  let keep := t.ctl.mstat &&& 0xFFFFFF00#32
  if v.toNat % 64 ≠ 0 || t.abSize < v.toNat + 64 then setStat s (keep ||| 5)
  else if t.ctl.mstat.getLsbD 31 then setStat s (keep ||| 6)
  else
    let blk : BitVec 512 := s.load (fwKey t.die v.toNat) 64 512
    let mid := s.nextId
    let m : Mgmt := { mid := mid, src := .turn t.tid v.toNat, block := blk, monitor := t.priv == .monitor, begun := false }
    match mgmtEvent (blk.extractLsb' 0 8).toNat mid with
    | some ev =>
      let s1 := setStat { s with nextId := s.nextId + 1, mgmt := s.mgmt ++ [m] } (t.ctl.mstat ||| 0x80000000#32)
      let r := s1.freeDelay
      r.2.schedWall r.1 ev
    | none => setStat (s.store (fwKey t.die (v.toNat + 4)) 4 (2#32)) 2#32

/-- The window of R477 is open on an I/O die: no queue is mapped or unmapped, no partition is pre-empted and no
plug-in is called. -/
def State.updating (s : State) : Bool :=
  s.io.toList.any (fun o => match o.update with
    | some u => decide (1 ≤ u.phase)
    | none => false)

/-- A plug-in call (R465): the shadow is saved, the registers but x1-x4 become zero, and the next bundle is fetched at
v at plug-in privilege, with a budget of 2,000 die cycles. -/
def State.startPlugin (s : State) (v : W32) : State :=
  let t := s.me
  let x := (List.range 32).foldl (fun (f : RegFile 32 32) i => if 1 ≤ i && i ≤ 4 then wr f i (rd t.x i) else f)
    (Vector.replicate 32 0)
  let t1 := { t with
    priv := .plugin
    x := x, a := Vector.replicate 16 0, e := Vector.replicate 8 0, h := Vector.replicate 8 0, c := 0
    ctl := { t.ctl with psret := s.bun.next, budget := some 2000, shX := t.x, shA := t.a, shE := t.e, shH := t.h,
                        shC := t.c } }
  { s with me := t1, bun := { s.bun with taken := some (v.setWidth 64) } }.schedIn t.die 2000 rankLate
    (.pluginOverrun t.tid)

/-- A write of %pcall at supervisor privilege (R465): an offset that is misaligned or beyond firmware memory writes 3
to %pstat and has no other effect (log 73, DEDUCED), and so does a call in the window of R477 (log 111, DESIGN CHOICE). -/
def State.writePcall (s : State) (v : W32) : State :=
  let s1 := { s with me := { s.me with ctl := { s.me.ctl with pcall := v } } }
  if v.extractLsb' 0 2 = 0 && v.toNat < s.me.abSize && !s.updating then s1.startPlugin v
  else { s1 with me := { s1.me with ctl := { s1.me.ctl with pstat := 3 } } }

/-- PLUGIN_CALL (R465). -/
def execPluginCall (v : BitVec 32) (s : State) : Out := .next (s.writePcall v)

/-- PLUGIN_OVERRUN (R467): the budget expires, and the plug-in stops at its next bundle boundary. -/
def execPluginOverrun (tid : Nat) (s : State) : Out :=
  match s.getThread? tid with
  | none => .next s
  | some t =>
    if t.priv = .plugin then
      let r := s.endPlugin t 1 0
      .next (r.2.setThread r.1)
    else .next s

/-- Replace one half of a 64-bit register. -/
def setHalf (v : W64) (h : BitVec 1) (x : W32) : W64 :=
  if h = 1 then x ++ v.extractLsb' 0 32 else v.extractLsb' 32 32 ++ x

/-- What a SYSW writes (R7, R113, R116, R121, R168-R170, R464); an ro register ignores it (R167). Reserved bits are
not written, and a MODE of 6 or 7 leaves MODE unchanged. -/
def State.sysWrite (s : State) (n : Nat) (h : BitVec 1) (v : W32) : State :=
  let t := s.me
  let put := fun (u : Thread) => { s with me := u }
  let ctl := fun (c : Ctl) => put { t with ctl := c }
  if n = 0x018 then { put { t with lc := wr t.lc 0 v } with bun := { s.bun with lcWritten := s.bun.lcWritten ||| 1 } }
  else if n = 0x019 then
    { put { t with lc := wr t.lc 1 v } with bun := { s.bun with lcWritten := s.bun.lcWritten ||| 2 } }
  else if n = 0x020 then
    let m : BitVec 3 := if 6 ≤ (v.extractLsb' 0 3).toNat then t.rnd.extractLsb' 0 3 else v.extractLsb' 0 3
    { put { t with rnd := (v &&& 0xFFFFFF00#32) ||| m.setWidth 32 } with bun := { s.bun with rndWritten := true } }
  else if n = 0x021 then put { t with fflags := v &&& 0x7F#32 }
  else if n = 0x022 then put { t with seed := v }
  else if 0x028 ≤ n && n ≤ 0x02F then put { t with dscale := wr t.dscale (n - 0x028) (v &&& 0xFF#32) }
  else if n = 0x030 then put { t with tvec := v &&& 0xFFFFFFE7#32 }
  else if n = 0x031 then put { t with tcause := v &&& 0xC00000FF#32 }
  else if n = 0x032 then put { t with tpc := setHalf t.tpc h v }
  else if n = 0x033 then put { t with trec := v &&& 0x000FFFC1#32 }
  else if n = 0x101 then ctl { t.ctl with pstat := v &&& 0x0000FF03#32 }
  else if n = 0x102 then ctl { t.ctl with psret := setHalf t.ctl.psret h v }
  else if n = 0x103 then
    { s with me := { t with ctl := { t.ctl with mcmd := v } } }.issueMgmt v
  else if 0x104 ≤ n && n ≤ 0x107 then ctl { t.ctl with gbase := wr t.ctl.gbase (n - 0x104) (v &&& 0x00FFF007#32) }
  else if 0x108 ≤ n && n ≤ 0x10B then ctl { t.ctl with glim := wr t.ctl.glim (n - 0x108) (v &&& 0x01FFF000#32) }
  else if n = 0x110 then s.schedWall 0 (.heartbeat t.die)
  else s

/-- SYSW (R167, R197, R55, R466): a write of %pcall at supervisor privilege starts a plug-in call, after the bundle's
other syllables. -/
def execSysw (x : BitVec 5) (r : BitVec 10) (h : BitVec 1) (s : State) : Out :=
  let n := r.toNat
  let v := s.rx x.toNat
  if 0x100 ≤ n && !s.pre.onControl then .next (s.illegal 0)
  else if s.pre.priv = .plugin || ((sysMarked n || n = 0x011) && !s.pre.priv.isSys) then .next (s.noPriv 0)
  else if n = 0x100 then
    if s.pre.priv = .supervisor then .next (s.writePcall v)
    else .next { s with me := { s.me with ctl := { s.me.ctl with pcall := v } } }
  else .next (s.sysWrite n h v)

end Sys2Proof.Machine
end

