-- ==== Sys2Proof/Machine/FrontEnd.lean ====
section
/-! DEFINITION. The front-end engine (R444-R462, R468-R470): functions and their registers, queues and their commands,
pipelines, resets of functions, time slices, budgets, and the host's answers to traps. -/

namespace Sys2Proof.Machine

/-! ### Routes (R13, R15) -/

/-- Dies on the route of R13 between two dies, ends included. -/
def routeDies (a b : Nat) : List Nat :=
  let p := gridPos a
  let q := gridPos b
  (List.range 16).filter (fun d =>
    let x := gridPos d
    (x.1 == p.1 && decide (Nat.min p.2 q.2 ≤ x.2) && decide (x.2 ≤ Nat.max p.2 q.2)) ||
    (x.2 == q.2 && decide (Nat.min p.1 q.1 ≤ x.1) && decide (x.1 ≤ Nat.max p.1 q.1)))

/-- The compute dies that an I/O die has links to (R15). -/
def ioLinks (port : Nat) : List Nat := if port = 0 then [0, 1, 2, 3] else [6, 7, 12, 13]

/-- The linked die at which host traffic of a port for a compute die enters: the nearest, the lowest of these (R15). -/
def entryDie (port die : Nat) : Nat :=
  (ioLinks port).foldl (fun b d => if linkCount d die < linkCount b die then d else b) ((ioLinks port)[0]?.getD 0)

/-- The compute dies that host traffic of a port for a compute die crosses, ends included. -/
def hostRoute (port die : Nat) : List Nat := routeDies (entryDie port die) die

/-- Host traffic of a port reaches a compute die: the I/O die runs, and so do the routers on the way (R480). -/
def State.hostReaches (s : State) (port die : Nat) : Bool :=
  !(s.getDie (16 + port)).dead && (hostRoute port die).all (fun d => (s.getDie d).routerOk)

/-! ### Functions and queues (R445-R451) -/

def Func.queue (f : Func) (q : Nat) : Queue := (f.queues.find? (fun x => x.q == q)).getD (Queue.init q)
def Func.setQueue (f : Func) (q : Queue) : Func := { f with queues := upsert (fun x => x.q == q.q) q f.queues }
def State.onQueue (s : State) (fn q : Nat) (g : Queue → Queue) : State :=
  let f := s.getFunc fn
  s.setFunc (f.setQueue (g (f.queue q)))

/-- SZ, STOP and EN of RCFG (R451). -/
def Queue.slots (q : Queue) : Nat := 2 ^ (6 + (q.rcfg.extractLsb' 0 4).toNat)
def Queue.en (q : Queue) : Bool := q.rcfg.getLsbD 8

/-- A queue may be fetched (R448, R451, R453, R457). -/
def Func.runnable (f : Func) (q : Queue) : Bool :=
  f.en && f.part.isSome && q.mapped && q.en && !q.stop && q.pidx != q.cons
def State.runs (s : State) (k : Nat × Nat) : Bool := (s.getFunc k.1).runnable ((s.getFunc k.1).queue k.2)

/-- Runnable queues of a partition in the order of their functions. -/
def State.runnables (s : State) (part : Nat) : List (Nat × Nat) :=
  ((s.funcs.filter (fun f => f.part == some part)).flatMap (fun f =>
    (f.queues.filter (fun q => f.runnable q)).map (fun q => (f.fn, q.q)))).mergeSort
      (fun a b => decide (a.1 < b.1) || (a.1 == b.1 && decide (a.2 ≤ b.2)))

/-- The queue that the next time slice goes to (R468): round-robin under the default policy, in the order of function
and queue; any, or none, when a plug-in decides (log 63, DESIGN CHOICE), which none does in the window of R477. -/
def State.pickNext (s : State) (p : Partition) : Option (Nat × Nat) × State :=
  let l := s.runnables p.num
  if !s.updating && s.funcs.any (fun f => f.part == some p.num && f.plugin.isSome && !f.pluginFaulted) then
    let r := s.freeUpTo l.length
    (l[r.1]?, r.2)
  else
    let after := fun (k : Nat × Nat) => match p.serving with
      | some c => decide (c.1 < k.1) || (c.1 == k.1 && decide (c.2 < k.2))
      | none => true
    (((l.filter after) ++ l).head?, s)

/-- A fetch from a queue is under way. -/
def isFetch (k : Nat × Nat) : Event → Bool
  | .commandFetch f q => f == k.1 && q == k.2
  | _ => false
def isSlice (k : Nat × Nat) : Event → Bool
  | .timeSliceExpiry f q => f == k.1 && q == k.2
  | _ => false

/-- Fetch from a queue, after some time. -/
def State.startFetch (s : State) (k : Nat × Nat) : State :=
  if s.pending (isFetch k) then s
  else
    let r := s.freeDelay
    r.2.schedWall (r.1 + 1) (.commandFetch k.1 k.2)

/-- Give the slice of a partition to a queue, or to none (R468). -/
def State.giveSlice (s : State) (part : Nat) (k : Option (Nat × Nat)) : State :=
  match s.getPart? part with
  | none => s
  | some p =>
    let s1 := s.setPart { p with serving := k }
    match k with
    | none => s1
    | some c =>
      let s2 := (s1.unsched (isSlice c)).schedWall ((s1.getFunc c.1).tslice * 1000 * Config.ns) (.timeSliceExpiry c.1 c.2)
      if s2.runs c then s2.startFetch c else s2

/-- A queue of a partition may have become runnable, or have ceased to be: the served queue fetches on, and a slice
whose queue has nothing left goes to the next. -/
def State.kick (s : State) (part : Nat) : State :=
  match s.getPart? part with
  | none => s
  | some p =>
    match p.serving with
    | some c =>
      if s.runs c then s.startFetch c
      else
        let n := s.pickNext p
        n.2.giveSlice part n.1
    | none =>
      let n := s.pickNext p
      n.2.giveSlice part n.1

def State.kickFn (s : State) (fn : Nat) : State :=
  match (s.getFunc fn).part with
  | some p => s.kick p
  | none => s

/-- Queues that an I/O die has mapped (R457). -/
def State.mappedCount (s : State) (port : Nat) : Nat :=
  ((s.funcs.filter (fun f => fnPort f.fn == port)).map (fun f => (f.queues.filter (·.mapped)).length)).foldl (· + ·) 0

/-- A queue is mapped (R457, R458): PW is cleared, and its commands are fetched as for a wake. -/
def State.mapQueue (s : State) (fn q : Nat) : State :=
  (s.onQueue fn q (fun k => { k with mapped := true, pw := false })).kickFn fn

/-! ### Register writes (R446-R451) -/

/-- A host access of a port that finds earlier ones waiting comes after them: PCI Express keeps its writes in order (R153,
R154). Nothing passes a port whose I/O die does not run (R480), or a package that has tripped (R488). -/
def State.hostOrder (s : State) (port : Nat) (ev : Event) (now : State) : State :=
  if s.portDead port then s
  else if s.hostHeld.any (fun x => x.1 == port) then { s with hostHeld := s.hostHeld ++ [(port, ev)] }
  else now

/-- A write of WAKE (R450, R458): to an unmapped queue, or to one that is never fetched (R448), it is latched, and in hardware
mode an unmapped queue is mapped at once when a slot is free and the policy permits (R470). -/
def State.wakeNow (s : State) (fn q : Nat) (v : W32) : State :=
  let f := s.getFunc fn
  let k := f.queue q
  let p : BitVec 16 := v.extractLsb' 0 16
  if k.mapped && f.en && f.part.isSome then (s.setFunc (f.setQueue { k with pidx := p })).kickFn fn
  else
    let s1 := s.setFunc (f.setQueue { k with pidx := p, pw := true })
    let permits := f.plugin.isNone || s.choice 5 (fn * 64 + q)
    if !k.mapped && !f.mapm && f.part.isSome && !s.updating && decide (s.mappedCount (fnPort fn) < 512) && permits then s1.mapQueue fn q
    else s1
/-- WAKE. -/
def execWake (fn : Nat) (q : Nat) (v : BitVec 32) (s : State) : Out :=
  .next (s.hostOrder (fnPort fn) (.wake fn q v) (s.wakeNow fn q v))

/-- A write of RBASE (R451): dropped while EN is 1. -/
def State.rbaseNow (s : State) (fn q : Nat) (v : W64) : State := s.onQueue fn q (fun k => if k.en then k else { k with rbase := v })
/-- RBASE_WRITE. -/
def execRbaseWrite (fn : Nat) (q : Nat) (v : BitVec 64) (s : State) : Out :=
  .next (s.hostOrder (fnPort fn) (.rbaseWrite fn q v) (s.rbaseNow fn q v))

/-- A write of RCFG (R451, R453): one that changes SZ while EN is 1 is dropped; EN written to 1 after STOP clears STOP and
sets CONS to PIDX. -/
def State.rcfgNow (s : State) (fn q : Nat) (v : W32) : State :=
  let f := s.getFunc fn
  let k := f.queue q
  let sz : BitVec 4 := if 10 < (v.extractLsb' 0 4).toNat then 10 else v.extractLsb' 0 4
  let en := v.getLsbD 8
  if k.en && sz ≠ k.rcfg.extractLsb' 0 4 then s
  else
    let again : Bool := !k.en && en && k.stop
    let k1 := { k with
      rcfg := BitVec.ofNat 32 (sz.toNat + bit en 8)
      stop := k.stop && !again
      cons := if again then k.pidx else k.cons }
    (s.setFunc (f.setQueue k1)).kickFn fn
/-- RCFG_WRITE. -/
def execRcfgWrite (fn : Nat) (q : Nat) (v : BitVec 32) (s : State) : Out :=
  .next (s.hostOrder (fnPort fn) (.rcfgWrite fn q v) (s.rcfgNow fn q v))

/-- A write of FCTL (R447). -/
def State.fctlNow (s : State) (fn : Nat) (v : W32) : State := (s.setFunc { s.getFunc fn with en := v.getLsbD 0 }).kickFn fn
/-- FCTL_WRITE. -/
def execFctlWrite (fn : Nat) (v : BitVec 32) (s : State) : Out := .next (s.hostOrder (fnPort fn) (.fctlWrite fn v) (s.fctlNow fn v))

/-- FSTAT (R447): a function of no partition shows PART 0. -/
def Func.fstat (f : Func) : W32 :=
  BitVec.ofNat 32 (bit f.part.isSome 31 + bit f.home 30 + f.part.getD 0 % 16 * 2 ^ 16 + bit f.mapm 2 + bit f.trpm 1 + bit f.pagm 0)
/-- QSTAT (R450). -/
def Queue.qstat (k : Queue) : W32 := BitVec.ofNat 32 (bit k.mapped 0 + bit k.pw 1 + bit k.stop 2)

/-- MSI-X: a vector of a function is sent (R444), charged to activity 5 of its partition (R469). -/
def State.sendMsix (s : State) (fn vec : Nat) : State :=
  let send := fun (a : State) => a.setFunc { a.getFunc fn with msix := (a.getFunc fn).msix ++ [vec] }
  match (s.getFunc fn).part with
  | none => send s
  | some p => if (s.charge p 5 4).1 then send (s.charge p 5 4).2 else s.untilPeriod p (.wall 0) (.msix fn vec)
/-- An MSI-X vector that a budget held is sent. -/
def execMsix (fn vec : Nat) (s : State) : Out := .next (s.sendMsix fn vec)

/-! ### Commands (R452-R454) -/

def Cmd.op' (c : Cmd) : Nat := (c.slot.extractLsb' 0 8).toNat
def Cmd.word (c : Cmd) (off : Nat) : W64 := c.slot.extractLsb' (8 * off) 64
def Cmd.serial (c : Cmd) : Bool := c.slot.getLsbD 8
def Cmd.irq (c : Cmd) : Bool := c.slot.getLsbD 9
def Cmd.tag (c : Cmd) : Nat := (c.slot.extractLsb' 16 16).toNat

/-- Bits of the body that a command of each OP may set, from offset 0x08 on (R455): addresses obey their alignment (log 80,
DESIGN CHOICE). -/
def bodyMask (op : Nat) : BitVec 512 :=
  let m := fun (off : Nat) (v : Nat) => place 512 off (BitVec.ofNat 64 v)
  match op with
  | 1 => m 0x08 (2 ^ 64 - 128) ||| m 0x10 0xFFFF ||| m 0x18 0xFFFFF ||| m 0x20 0xFFFFF
  | 2 => m 0x08 (2 ^ 64 - 64) ||| m 0x10 0xFFFF
  | 3 => m 0x08 (2 ^ 64 - 8) ||| m 0x10 (2 ^ 64 - 1) ||| m 0x18 0xFFFF
  | 4 => m 0x08 (2 ^ 64 - 8) ||| m 0x10 (2 ^ 64 - 1) ||| m 0x18 0xFFFFFFFF
  | 5 => m 0x08 (2 ^ 64 - 4) ||| m 0x10 (2 ^ 64 - 4) ||| m 0x18 0xFFFFFFFC ||| m 0x20 0xFFFF0001
  | 6 => m 0x08 (2 ^ 64 - 1)
  | _ => 0

/-- The commands of a queue in ring order: those from before a reset of its function count no more (R449). -/
def State.queueCmds (s : State) (fn q : Nat) : List Cmd := s.cmds.filter (fun c => c.fn == fn && c.q == q && !c.dropped)

/-- The LAUNCH that a DEP word names: the most recent earlier one of its queue with that TAG (R456). -/
def State.depCmd (s : State) (fn q cid : Nat) (dep : W64) : Option Cmd :=
  ((s.queueCmds fn q).filter (fun c => decide (c.cid < cid) && c.op' == 1 && c.tag == (dep.extractLsb' 0 16).toNat)).getLast?
/-- The valid DEP words of a LAUNCH. -/
def Cmd.deps (c : Cmd) : List W64 := [c.word 0x18, c.word 0x20].filter (fun d => d.getLsbD 19)

/-- BADCMD (R453, R456): a trigger level of 7 is none of R369. -/
def State.badCmd (s : State) (c : Cmd) : Bool :=
  c.op' = 0 || 7 ≤ c.op' || c.slot &&& ~~~(place 512 0 (0xFFFF03FF#32) ||| bodyMask c.op' ||| place 512 0x38 (BitVec.allOnes 64)) ≠ 0 ||
  (c.op' == 1 && c.deps.any (fun d => d.extractLsb' 16 3 == 7#3 || (s.depCmd c.fn c.q c.cid d).isNone))

/-- A command may start (R454). -/
def State.mayStart (s : State) (c : Cmd) : Bool :=
  let before := (s.queueCmds c.fn c.q).filter (fun b => decide (b.cid < c.cid))
  let alone := c.serial || c.op' == 3 || c.op' == 6
  before.all (fun b => b.st != .fetched) && (!alone || before.all (fun b => b.st == .finished)) &&
  before.all (fun b => b.op' != 4 || b.st == .finished)

/-- The next command of a queue starts when its rules allow. -/
def State.kickCmds (s : State) (fn q : Nat) : State :=
  match (s.queueCmds fn q).find? (fun c => c.st == .fetched) with
  | some c => if s.mayStart c then s.schedWall 0 (.commandStart c.cid) else s
  | none => s

/-- A command completes with a code and a detail. -/
def State.endCmd (s : State) (c : Cmd) (code detail : Nat) : State :=
  (s.setCmd { c with code := code, detail := detail }).schedWall 0 (.commandComplete c.cid)

/-- COMMAND_FETCH (R451): the slot CONS mod the ring's size, and CONS advances. A bad command stops the queue
(R453). -/
def execCommandFetch (fn : Nat) (q : Nat) (s : State) : Out :=
  let f := s.getFunc fn
  let k := f.queue q
  if !f.runnable k then .next (s.kickFn fn)
  else
    let at' := (k.rbase + BitVec.ofNat 64 (64 * (k.cons.toNat % k.slots))).toNat
    let slot : BitVec 512 := s.load (hostKey (fnPort fn) at') 64 512
    let c : Cmd := { cid := s.nextId, fn := fn, q := q, slot := slot, addr := at', st := .fetched, code := 0, detail := 0,
                     part := f.part, dropped := false, word' := none, lids := [], deps' := [], chip := 0, stub := none, stage := 0, op := none, chans := [] }
    let bad := s.badCmd c
    let c1 := if bad then { c with st := .started } else c
    let s1 := { s with nextId := s.nextId + 1, cmds := s.cmds ++ [c1] }.setFunc
      (f.setQueue { k with cons := k.cons + 1, stop := k.stop || bad })
    .next ((if bad then s1.endCmd c1 2 0 else s1.kickCmds fn q).kickFn fn)

/-- The event that carries a command out. -/
def Cmd.event (c : Cmd) : Event :=
  match c.op' with
  | 1 => .launch c.cid
  | 2 => .pipe c.cid
  | 3 => .signal c.cid
  | 4 => .waitsig c.cid
  | 5 => .copyh c.cid
  | _ => .handoffq c.cid

/-- COMMAND_START (R454): a WAITSIG with a timeout starts its time. -/
def execCommandStart (cid : Nat) (s : State) : Out :=
  match s.getCmd? cid with
  | none => .next s
  | some c =>
    if c.st ≠ .fetched || !s.mayStart c then .next s
    else
      let s1 := (s.setCmd { c with st := .started }).schedWall 0 c.event
      let us := (c.slot.extractLsb' (8 * 0x18) 32).toNat
      let s2 := if c.op' = 4 && us ≠ 0 then s1.schedWall (us * 1000 * Config.ns) (.waitsigTimeout cid) else s1
      .next (s2.kickCmds c.fn c.q)

/-! ### Completion (R453) -/

/-- The code and detail with which the launch of a LAUNCH ends (R453), if it has ended. -/
def Launch.outcome (l : Launch) : Option (Nat × Nat) :=
  if 256 ≤ l.rejected then some (4, l.rejected - 256)
  else if l.rejected ≠ 0 then some (3, l.rejected)
  else if !l.finished then none
  else
    match l.killed with
    | some w => some (6, w.toNat % 2 ^ 24)
    | none => some (1, 0)

/-- The launch of stage t of a PIPE: stages start from the last one down. -/
def Cmd.stages (c : Cmd) : Nat := c.stage + c.lids.length
def Cmd.stageLid (c : Cmd) (t : Nat) : Option Nat := if c.stages ≤ t then none else c.lids[c.stages - 1 - t]?

/-- What has become of the stages of a PIPE that have started, each with its number. -/
def State.stageOutcomes (s : State) (c : Cmd) : List (Nat × Option (Nat × Nat)) :=
  c.lids.zipIdx.map (fun x => (c.stages - 1 - x.2, (s.getLaunch? x.1).bind (·.outcome)))

/-- A stage that stops the pipeline: its header was rejected or could not be read. -/
def stageFailed (x : Nat × Option (Nat × Nat)) : Option (Nat × Nat) :=
  match x.2 with
  | some (3, d) => some (3, 0x100 + x.1 + 16 * d)
  | some (4, d) => some (4, d)
  | _ => none

/-- The outcome of a PIPE (R462): every stage has finished, or one has failed (R453). -/
def State.pipeOutcome (s : State) (c : Cmd) : Option (Nat × Nat) :=
  let l := s.stageOutcomes c
  match l.findSome? stageFailed with
  | some r => some r
  | none =>
    if c.stage ≠ 0 || l.any (fun x => x.2.isNone) then none
    else
      let kills := l.filterMap (fun x => match x.2 with | some (6, d) => some d | _ => none)
      match kills with
      | [] => some (1, 0)
      | k :: r => some (6, r.foldl Nat.min k)

/-- A stage is over: finished, or never to start. -/
def State.stageOver (s : State) (c : Cmd) (t : Nat) : Bool :=
  match c.stageLid t with
  | some l => l ≠ 0 && s.launchOver l
  | none => (s.stageOutcomes c).any (fun x => (stageFailed x).isSome)

/-- The number of a channel: the number of its source port. -/
def Channel.num (h : Channel) : Nat := (h.srcDie * 512 + h.srcCore) * 8 + h.srcPort

/-- Channels whose endpoint stages are both over are torn down (R462). -/
def State.tearChannels (s : State) (c : Cmd) : State :=
  (c.chans.filter (fun h => s.stageOver c h.srcStage && s.stageOver c h.dstStage)).foldl
    (fun a h => a.schedWall 0 (.channelTeardown h.num)) s

/-- CHANNEL_TEARDOWN (R462, R264): its ports are absent from now on. -/
def execChannelTeardown (chan : Nat) (s : State) : Out :=
  match s.cmds.findSome? (fun c => (c.chans.find? (fun h => h.num == chan)).map (fun h => (c, h))) with
  | none => .next s
  | some (c, h) =>
    let s1 := s.setCmd { c with chans := c.chans.filter (fun x => x.num != chan) }
    let s2 := s1.onSendPort h.srcDie h.srcCore h.srcPort (fun p => { p with out := none, allow := 4 })
    .next (s2.onSendPort h.dstDie h.dstCore h.dstPort (fun p => { p with inn := none }))

/-- The result of a command, when it has one. -/
def State.cmdResult (s : State) (c : Cmd) : Option (Nat × Nat) :=
  if c.code ≠ 0 then some (c.code, c.detail)
  else if c.op' = 1 then (c.lids.head?.bind s.getLaunch?).bind (·.outcome)
  else if c.op' = 2 && !c.lids.isEmpty then s.pipeOutcome c
  else none

/-- COMMAND_COMPLETE (R453): STATUS is written after every host write of the command, then MSI-X is sent; both are
charged to activity 5 (R469). A function reset has dropped both (R449). -/
def execCommandComplete (cid : Nat) (s : State) : Out :=
  match s.getCmd? cid with
  | none => .next s
  | some c =>
    let s0 := s.tearChannels c
    if c.st = .finished then .next s0
    else
      match s.cmdResult c with
      | none => .next s0
      | some (code, detail) =>
        let part := c.part.getD 0xFFFFFFFF
        let b := if c.dropped then (true, s0) else s0.charge part 5 8
        if !b.1 then .next (s0.untilPeriod part (.wall 0) (.commandComplete cid))
        else
          let s1 := b.2.setCmd { c with st := .finished, code := code, detail := detail }
          let s2 := if c.dropped then s1 else
            s1.store (hostKey (fnPort c.fn) ((c.addr + 0x38) % 2 ^ 64)) 8 (BitVec.ofNat 64 (code + detail % 2 ^ 24 * 256))
          let s3 := if c.irq && !c.dropped then s2.sendMsix c.fn (1 + c.q) else s2
          .next (s3.kickCmds c.fn c.q)

/-! ### LAUNCH (R456, R360, R74) -/

/-- An access of the front end for a partition: system privilege, at a die of the partition. -/
def Partition.agent (p : Partition) : Agent := ⟨p.num, p.dies[0]?.getD 0, noCore, 0, true, 0⟩

/-- The partition that a command was fetched for, which a change of its function leaves as it was (R449), if it is resident and
the function's port reaches its first die (log 45, DESIGN CHOICE). -/
def State.cmdPart (s : State) (c : Cmd) : Option Partition :=
  (c.part.bind s.getPart?).bind (fun p =>
    if p.resident && !p.evicting && s.hostReaches (fnPort c.fn) (p.dies[0]?.getD 0) then some p else none)

/-- Try a step of a command again later. -/
def State.retry (s : State) (ev : Event) : State :=
  let r := s.freeDelay
  r.2.schedWall (r.1 + 1) ev

/-- The start stub of a launch (R360): a system-privilege thread of no launch on the lowest free turn of the root core, with
the header's address in a0 and the chip index in x1. Its priority is the model's choice (log 32, DESIGN CHOICE). -/
def stubThread (tid lid part die core turn : Nat) (hdr : W64) (chip : BitVec 16) : Thread :=
  { Thread.init with
    tid := tid, lid := lid, part := part, die := die, core := core, turn := turn, st := .running, priv := .system, prio := 3
    stub := true, a := wr Thread.init.a 0 hdr, x := wr Thread.init.x 1 (chip.setWidth 32) }

/-- The root core of a launch, from the word at PLACE of its header (R360), and the physical dies of the launch. The first
die and core 0 stand in where the word cannot be read or names none: the FANOUT reports that (log 33, DESIGN CHOICE). -/
def rootOf (p : Partition) (place : W64) : Nat × Nat × List Nat :=
  let dies := ((List.range p.dies.length).filter (fun d => place.getLsbD d)).filterMap (fun d => p.dies[d]?)
  ((dies.head?).getD (p.dies[0]?.getD 0),
    ((place.extractLsb' 16 8).toNat * 16 + (place.extractLsb' 24 8).toNat) % 256, dies)

/-- The front end accepts a launch: the instruction caches of its dies are dropped (R74) and its start stub runs on its
root core (R360). `none` while the header's page is on the move or the root core has no free turn. -/
def State.startLaunch (s : State) (p : Partition) (c : Cmd) (hdr : W64) (chip : BitVec 16) (deps : List (Nat × Nat)) :
    Option State × State :=
  match s.readMem p.agent (hdr + 0x40) 8 with
  | (.wait, s1) => (none, s1)
  | (r, s1) =>
    let v : W64 := match r with
      | .done v => BitVec.ofNat 64 v
      | _ => 0
    let root := rootOf p v
    match s1.freeTurns root.1 root.2.1 with
    | [] => (none, s1)
    | turn :: _ =>
      let tid := s1.nextId
      let t := stubThread tid (tid + 1) p.num root.1 root.2.1 turn hdr chip
      let s2 := { s1 with nextId := tid + 2, threads := s1.threads ++ [t] }.dropIcache root.2.2
      let s3 := (s2.onCore root.1 root.2.1 id).setCmd { c with lids := c.lids ++ [0], stub := some tid, deps' := deps, chip := chip }
      (some s3, s3)

/-- The dependencies of a LAUNCH: launch and level; none while an earlier LAUNCH has not begun. One whose command was refused
never begins, and counts as a rejected one (R370; log 80, DESIGN CHOICE). -/
def State.launchDeps (s : State) (c : Cmd) : Option (List (Nat × Nat)) :=
  c.deps.foldl (fun a d => match a with
    | none => none
    | some l =>
      match s.depCmd c.fn c.q c.cid d with
      | some b =>
        match (b.lids.head?).filter (· != 0) with
        | some lid => some (l ++ [(lid, (d.extractLsb' 16 3).toNat)])
        | none => if b.code ≠ 0 then some l else none
      | none => none) (some [])

/-- LAUNCH (R456): it waits until the partition is resident. -/
def execLaunch (cid : Nat) (s : State) : Out :=
  match s.getCmd? cid with
  | none => .next s
  | some c =>
    if c.st ≠ .started || !c.lids.isEmpty then .next s
    else
      match s.cmdPart c, s.launchDeps c with
      | some p, some deps =>
        let s1 := deps.foldl (fun a d => match a.getLaunch? d.1 with
          | some l => a.setLaunch { l with trigLevels := l.trigLevels ||| (1#7 <<< d.2) }
          | none => a) s
        .next (match s1.startLaunch p c (c.word 8) (c.slot.extractLsb' (8 * 0x10) 16) deps with
          | (some s2, _) => s2
          | (none, s2) => s2.retry (.launch cid))
      | _, _ => .next (s.retry (.launch cid))

/-! ### SIGNAL, WAITSIG, COPYH, HANDOFFQ (R456) -/

/-- SIGNAL: an atomic add at the word's home, charged to activity 5 (R469). What it releases every die sees already: the
front end's own writes, and those that it acquired. -/
def execSignal (cid : Nat) (s : State) : Out :=
  match s.getCmd? cid with
  | none => .next s
  | some c =>
    if c.st ≠ .started || c.code ≠ 0 then .next s
    else
      match s.cmdPart c with
      | none => .next (s.retry (.signal cid))
      | some p =>
        let b := s.charge p.num 5 8
        if !b.1 then .next (s.untilPeriod p.num (.wall 0) (.signal cid))
        else
          -- a function reset has dropped a write to its host memory (R449)
          if c.dropped && (match (b.2.placeOf p.agent (c.word 8) 8 .atomic).1 with | .ok _ host => host | _ => false) then
            .next (s.endCmd c 1 0)
          else match b.2.atomicMem p.agent (c.word 8) 8 [] (fun old => some ((old + (c.word 0x10).toNat) % 2 ^ 64)) with
          | (.done _, s1) => .next (s1.endCmd c 1 0)
          | (.wait, _) => .next ((s.placeOf p.agent (c.word 8) 8 .atomic).2.retry (.signal cid))
          | (.fail cause _, s1) => .next (s1.endCmd c 4 cause.toNat)

/-- What a read of a word by the front end brings (R146): `none` while some of it has yet to be applied, which happens next;
then every die sees it, and the later commands of the queue follow it (R456). -/
def State.frontAcquire (s : State) (p : Partition) (a : W64) : Option State × State :=
  match s.placeOf p.agent a 8 .read with
  | (.ok key _, s1) =>
    let ids := s1.liveIds ((s1.brought key 8).flatMap (·.ids))
    if s1.reqs.any (fun q => !q.applied && ids.contains q.rid) then (none, s1.expedite ids)
    else
      let s2 := (List.range Config.nDies).foldl (fun a d => a.see d ids) s1
      (some s2, s2)
  | (_, s1) => (some s1, s1)

/-- WAITSIG: the word is read until it is at least V, and the read that finds it so acquires. While the queue is unmapped the
command goes on no further, and a word that has changed sets PW (R458). -/
def execWaitsig (cid : Nat) (s : State) : Out :=
  match s.getCmd? cid with
  | none => .next s
  | some c =>
    if c.st ≠ .started || c.code ≠ 0 then .next s
    else
      match s.cmdPart c with
      | none => .next (s.retry (.waitsig cid))
      | some p =>
        match s.readMem p.agent (c.word 8) 8 with
        | (.done v, s1) =>
          let seen := s1.setCmd { c with word' := some v }
          if !((s.getFunc c.fn).queue c.q).mapped && !c.dropped then
            let s2 := if c.word'.any (· != v) then seen.onQueue c.fn c.q (fun k => { k with pw := true }) else seen
            .next (s2.retry (.waitsig cid))
          else if v < (c.word 0x10).toNat then .next (seen.retry (.waitsig cid))
          else
            .next (match s1.frontAcquire p (c.word 8) with
              | (some s2, _) => s2.endCmd c 1 0
              | (none, s2) => s2.retry (.waitsig cid))
        | (.wait, s1) => .next (s1.retry (.waitsig cid))
        | (.fail cause _, s1) => .next (s1.endCmd c 4 cause.toNat)

/-- WAITSIG_TIMEOUT. -/
def execWaitsigTimeout (cid : Nat) (s : State) : Out :=
  match s.getCmd? cid with
  | none => .next s
  | some c => .next (if c.st = .started && c.code = 0 then s.endCmd c 5 0 else s)

/-- Bytes between host memory and a device address, in one direction. -/
def State.hostCopy (s : State) (p : Partition) (port host : Nat) (dev : W64) (n : Nat) (toHost : Bool) :
    Access Unit × State :=
  if toHost then
    match s.readMem p.agent dev n with
    | (.done v, s1) => (.done (), s1.store (hostKey port host) n (BitVec.ofNat (8 * n) v))
    | (.wait, s1) => (.wait, s1)
    | (.fail c a, s1) => (.fail c a, s1)
  else s.writeMem p.agent dev n (memRead s.mem (hostKey port host) n)

/-- COPYH: one unit of 256 bytes at a time, charged to activity 4 (R469). -/
def execCopyh (cid : Nat) (s : State) : Out :=
  match s.getCmd? cid with
  | none => .next s
  | some c =>
    if c.st ≠ .started || c.code ≠ 0 then .next s
    else
      match s.cmdPart c with
      | none => .next (s.retry (.copyh cid))
      | some p =>
        let len := (c.slot.extractLsb' (8 * 0x18) 32).toNat
        let off := 256 * c.stage
        let n := Nat.min 256 (len - off)
        if n = 0 then .next (s.endCmd c 1 0)
        else
          let b := s.charge p.num 4 n
          let toHost := c.slot.getLsbD (8 * 0x20)
          -- a function reset drops the writes to its host memory (R449)
          if !b.1 then .next (s.untilPeriod p.num (.wall 0) (.copyh cid))
          else if toHost && c.dropped then .next ((b.2.setCmd { c with stage := c.stage + 1 }).retry (.copyh cid))
          else
            -- a unit that has to wait is charged when it is made
            match s.hostCopy p (fnPort c.fn) (((c.word 8).toNat + off) % 2 ^ 64) (c.word 0x10 + BitVec.ofNat 64 off) n toHost with
            | (.done _, s1) => .next (((s1.charge p.num 4 n).2.setCmd { c with stage := c.stage + 1 }).retry (.copyh cid))
            | (.wait, s1) => .next (s1.retry (.copyh cid))
            | (.fail cause _, s1) => .next (s1.endCmd c 4 cause.toNat)

/-- HANDOFFQ: the front end's handover, in the context of the die that owns the stack (R410, R411). -/
def execHandoffq (cid : Nat) (s : State) : Out :=
  match s.getCmd? cid with
  | none => .next s
  | some c =>
    if c.st ≠ .started || c.code ≠ 0 then .next s
    else
      match s.cmdPart c with
      | none => .next (s.retry (.handoffq cid))
      | some p =>
        let e := c.word 8
        match c.op with
        | some (d, n) =>
          let tl := s.getTl (.hand d)
          (match tl.frec with
           | some f =>
             if f.num = n then .next ((s.freeFault (.hand d)).endCmd c 4 f.cause.toNat)
             else if tl.isDone n then .next (s.endCmd c 1 0)
             else .next (s.retry (.handoffq cid))
           | none => if tl.isDone n then .next (s.endCmd c 1 0) else .next (s.retry (.handoffq cid)))
        | none =>
          let granted := p.memcfg.getLsbD (48 + (e.extractLsb' 0 4).toNat)
          if c.fn % 257 ≠ 0 && !granted then .next (s.endCmd c 7 0)
          else
            match p.stackList[(e.extractLsb' 0 4).toNat]? with
            | none => .next (s.endCmd c 4 acProtection.toNat)
            | some st =>
              if !(p.dies.contains (stackDies st).1 && p.dies.contains (stackDies st).2) then
                .next (s.endCmd c 4 acProtection.toNat)
              else
                let d := s.ownerDie st
                let k := s.getDie d
                if 16 ≤ k.handQ.length + k.hand.held.length then .next (s.retry (.handoffq cid))
                else
                  let n := k.hand.next
                  let i : Issue := { num := n, tid := 0, turn := 0, lid := 0, die := d, core := 256, syl := 0, pc := 0, wid := 0,
                                     rnd := 0, cnt := 0, op0 := e, op1 := 0, op2 := 0, op3 := 0, part := p.num, seed := 0,
                                     after := [], oid := 0 }
                  let s1 := s.onDie d (fun k => { k with
                    hand := k.hand.issue, handQ := k.handQ ++ [{ iss := i, operand := e, part := p.num, draining := false, place := none, phys := none }] })
                  .next ((s1.setCmd { c with op := some (d, n) }).retry (.handoffq cid))

/-! ### PIPE (R459-R462) -/

/-- The fields of a channel word (R459). -/
def chanField (w : W64) (lo n : Nat) : Nat := (w.extractLsb' lo n).toNat
/-- Zero fields of a channel word. -/
def chanZero : W64 := 0x00F3000C000CFFFF#64

/-- Channel c of a pipe descriptor with the dies of a partition. -/
def State.channelOf (s : State) (p : Partition) (w : W64) : Channel :=
  { srcDie := (s.physDie? p.num (chanField w 44 4)).getD 0, srcCore := chanField w 36 8, srcPort := 4 + chanField w 32 2
    dstDie := (s.physDie? p.num (chanField w 28 4)).getD 0, dstCore := chanField w 20 8, dstPort := 4 + chanField w 16 2
    hops := 0, allow := 1 + chanField w 50 2, srcStage := chanField w 60 4, dstStage := chanField w 56 4 }

/-- One step of a torus route (R460): column steps first, in the direction of fewer steps, east on a tie; then row
steps, south on a tie. The link direction, as a port number, or none at the end. -/
def torusStep (a b : Nat) : Option Nat :=
  let e := (b % 16 + 16 - a % 16) % 16
  let n := (b / 16 + 16 - a / 16) % 16
  if e ≠ 0 then some (if e ≤ 8 then 1 else 3)
  else if n ≠ 0 then some (if n ≤ 8 then 2 else 0)
  else none

/-- The links of a route within a die: core and direction of each. -/
def torusRoute (b : Nat) : Nat → Nat → List (Nat × Nat)
  | 0, _ => []
  | fuel + 1, a =>
    match torusStep a b with
    | none => []
    | some p => (a, p) :: torusRoute b fuel (neighbour a p)

/-- The core of the die edge that faces the next die, nearest a core: the row or column of the core is kept. -/
def edgeCore (c dir : Nat) : Nat :=
  match dir with
  | 0 => c % 16
  | 1 => c / 16 * 16 + 15
  | 2 => 240 + c % 16
  | _ => c / 16 * 16

/-- The direction in which a route of R13 leaves one die toward another: along the grid row first. -/
def gridDir (a b : Nat) : Nat :=
  let p := gridPos a
  let q := gridPos b
  if p.2 < q.2 then 1 else if q.2 < p.2 then 3 else if p.1 < q.1 then 2 else 0
/-- The direction in which it enters the destination: against its last leg. -/
def gridEntry (a b : Nat) : Nat :=
  let p := gridPos a
  let q := gridPos b
  if p.1 < q.1 then 0 else if q.1 < p.1 then 2 else if p.2 < q.2 then 3 else 1

/-- The torus links of a channel: die, core and direction of each (R460). -/
def Channel.links (h : Channel) : List (Nat × Nat × Nat) :=
  if h.srcDie = h.dstDie then (torusRoute h.dstCore 16 h.srcCore).map (fun x => (h.srcDie, x.1, x.2))
  else
    let out := edgeCore h.srcCore (gridDir h.srcDie h.dstDie)
    let inn := edgeCore h.dstCore (gridEntry h.srcDie h.dstDie)
    (torusRoute out 16 h.srcCore).map (fun x => (h.srcDie, x.1, x.2)) ++
    (torusRoute h.dstCore 16 inn).map (fun x => (h.dstDie, x.1, x.2))

/-- No value stands twice in a list. -/
def noRepeat {α : Type} [DecidableEq α] : List α → Bool
  | [] => true
  | a :: r => !r.contains a && noRepeat r

/-- Some link direction carries more than 4 of the channels. -/
def overLaned (cs : List Channel) : Bool :=
  let ls := cs.flatMap (·.links)
  ls.eraseDups.any (fun l => decide (4 < (ls.filter (· == l)).length))

/-- An endpoint lies in its stage's dies and rectangle (R461 code 2). -/
def endpointIn (l : Launch) (die core : Nat) : Bool :=
  l.dieSet.getLsbD die && decide (l.row0 ≤ core / 16) && decide (core / 16 < l.row0 + l.rows) &&
  decide (l.col0 ≤ core % 16) && decide (core % 16 < l.col0 + l.cols)

/-- Two launches share a core (R461 code 5). -/
def sharesCore (a b : Launch) : Bool :=
  decide (a.dieSet &&& b.dieSet ≠ 0) && decide (a.row0 < b.row0 + b.rows) && decide (b.row0 < a.row0 + a.rows) &&
  decide (a.col0 < b.col0 + b.cols) && decide (b.col0 < a.col0 + a.cols) && decide (0 < a.rows) && decide (0 < b.rows) &&
  decide (0 < a.cols) && decide (0 < b.cols)

def anySharing : List Launch → Bool
  | [] => false
  | a :: r => r.any (sharesCore a) || anySharing r

/-- The first code of R461 that a descriptor fails, 0 for none: its header, channel words and stage headers (log 59, DESIGN
CHOICE). -/
def State.pipeCode (s : State) (p : Partition) (cid : Nat) (head : BitVec 512) (ws : List W64) (ls : List Launch) : Nat :=
  let cs := ws.map (s.channelOf p)
  let old := (s.cmds.filter (fun c => c.cid != cid)).flatMap (·.chans)
  if head &&& ~~~(0xFF0F#512) ≠ 0 || ws.any (fun w => w &&& chanZero ≠ 0 || decide (ls.length ≤ chanField w 60 4) ||
      decide (ls.length ≤ chanField w 56 4)) then 1
  else if ws.any (fun w =>
      !(endpointIn (ls[chanField w 60 4]?.getD default) (chanField w 44 4) (chanField w 36 8) &&
        endpointIn (ls[chanField w 56 4]?.getD default) (chanField w 28 4) (chanField w 20 8))) then 2
  else if !noRepeat ((cs ++ old).map (fun h => (h.srcDie, h.srcCore, h.srcPort))) ||
      !noRepeat ((cs ++ old).map (fun h => (h.dstDie, h.dstCore, h.dstPort))) then 3
  else if overLaned (cs ++ old) then 4
  else if anySharing ls then 5
  else 0

/-- A channel is set up, with its credit count at A (R462, R263). -/
def State.setChannel (s : State) (h : Channel) : State :=
  let s1 := s.onSendPort h.srcDie h.srcCore h.srcPort (fun p => { p with
    out := some ⟨h.dstDie, h.dstCore, h.dstPort, h.hops⟩, allow := h.allow, credits := h.allow })
  s1.onSendPort h.dstDie h.dstCore h.dstPort (fun p => { p with inn := some ⟨h.srcDie, h.srcCore, h.srcPort, h.hops⟩ })

/-- Read the headers of the stages of a pipeline. -/
def State.readStages (s : State) (p : Partition) : List W64 → Access (List Launch) × State
  | [] => (.done [], s)
  | a :: r =>
    match s.readMem p.agent a 128 with
    | (.done v, s1) =>
      (match s1.readStages p r with
       | (.done l, s2) => (.done ((default : Launch).withHeader (BitVec.ofNat 1024 v) :: l), s2)
       | x => x)
    | (.wait, s1) => (.wait, s1)
    | (.fail c b, s1) => (.fail c b, s1)

/-- Start stage t of a PIPE from its header, or do so later. -/
def State.startStage (s : State) (p : Partition) (c : Cmd) (t : Nat) (hdr : W64) : State :=
  match s.startLaunch p { c with stage := t } hdr (c.slot.extractLsb' (8 * 0x10) 16) [] with
  | (some s1, _) => s1
  | (none, s1) => s1.retry (if c.lids.isEmpty then .pipe c.cid else .pipeStageStart c.cid)

/-- PIPE (R459-R462): the descriptor is checked before anything is placed; then its channels are set up and its last
stage starts. -/
def execPipe (cid : Nat) (s : State) : Out :=
  match s.getCmd? cid with
  | none => .next s
  | some c =>
    if c.st ≠ .started || c.code ≠ 0 || !c.lids.isEmpty then .next s
    else
      match s.cmdPart c with
      | none => .next (s.retry (.pipe cid))
      | some p =>
        match s.readMem p.agent (c.word 8) 64 with
        | (.wait, s1) => .next (s1.retry (.pipe cid))
        | (.fail cause _, s1) => .next (s1.endCmd c 4 cause.toNat)
        | (.done hv, s1) =>
          let head := BitVec.ofNat 512 hv
          let n := 1 + hv % 16
          let nc := hv / 256 % 256
          if 64 < nc then .next (s1.endCmd c 3 1)
          else
            match s1.readMem p.agent (c.word 8 + 0x40) (128 + 8 * nc) with
            | (.wait, s2) => .next (s2.retry (.pipe cid))
            | (.fail cause _, s2) => .next (s2.endCmd c 4 cause.toNat)
            | (.done v, s2) =>
              let word := fun (k : Nat) => BitVec.ofNat 64 (v / 2 ^ (64 * k))
              let ws := (List.range nc).map (fun k => word (16 + k))
              match s2.readStages p ((List.range n).map word) with
              | (.wait, s3) => .next (s3.retry (.pipe cid))
              | (.fail cause _, s3) => .next (s3.endCmd c 4 cause.toNat)
              | (.done ls, s3) =>
                let code := s3.pipeCode p cid head ws ls
                if code ≠ 0 then .next (s3.endCmd c 3 code)
                else
                  let cs := (ws.map (s3.channelOf p)).map (fun h => { h with hops := h.links.length })
                  let s4 := (cs.foldl State.setChannel s3).setCmd { c with chans := cs }
                  .next (s4.startStage p { c with chans := cs } (n - 1) (word (n - 1)))

/-- PIPE_STAGE_START (R462): the FANOUT of the stage started last is complete, and the next lower stage starts. -/
def execPipeStageStart (cid : Nat) (s : State) : Out :=
  match s.getCmd? cid with
  | none => .next s
  | some c =>
    if c.op' ≠ 2 || c.st ≠ .started || c.code ≠ 0 || c.stage = 0 || c.lids.isEmpty then .next s
    else
      match s.cmdPart c with
      | none => .next (s.retry (.pipeStageStart cid))
      | some p =>
        match s.readMem p.agent (c.word 8 + BitVec.ofNat 64 (0x40 + 8 * (c.stage - 1))) 8 with
        | (.done a, s1) => .next (s1.startStage p c (c.stage - 1) (BitVec.ofNat 64 a))
        | (.wait, s1) => .next (s1.retry (.pipeStageStart cid))
        | (.fail cause _, s1) => .next (s1.endCmd c 4 cause.toNat)

/-! ### Resets of functions (R445, R449) -/

/-- The effects of an FLR or of a change of assignment, in order (R449; log 58, DESIGN CHOICE). -/
def State.resetFunc (s : State) (fn : Nat) : State :=
  let s1 := s.setFunc { s.getFunc fn with queues := [], bar2 := 0 }
  let kept := s1.cmds.filter (fun (c : Cmd) => c.fn != fn || c.st != .fetched)
  let cs := kept.map (fun (c : Cmd) => if c.fn = fn then { c with dropped := true } else c)
  { s1 with cmds := cs }.kickFn fn

/-- FUNCTION_LEVEL_RESET (R449). -/
def execFunctionLevelReset (fn : Nat) (s : State) : Out := .next (s.resetFunc fn)

/-- HOT_RESET (R445): an FLR of each function of the port. -/
def execHotReset (port : Nat) (s : State) : Out :=
  .next ((s.funcs.filter (fun f => fnPort f.fn == port)).foldl (fun a f => a.resetFunc f.fn) s)

/-! ### BAR 2 (R444, R446, R425) -/

/-- The kinds of a host access: 0 a read, 1 a write, 2 FetchAdd, 3 Swap, 4 CAS with the comparand in bits [63:0] of the operand and
the new value in bits [127:64]. -/
def hostAtomic (code : Nat) (len : Nat) (v : BitVec 128) (old : Nat) : Nat :=
  let lo := v.toNat % 2 ^ (8 * len)
  if code = 2 then (old + lo) % 2 ^ (8 * len)
  else if code = 3 then lo
  else if old = lo then v.toNat / 2 ^ 64 % 2 ^ (8 * len) else old

/-- The host has an answer: status 0 for a value, 1 for Unsupported Request. -/
def State.answerHost (s : State) (fn status v : Nat) : State := { s with hostReplies := s.hostReplies ++ [(fn, status, v)] }

/-- A host access through the window of BAR 2, checked as a device access (R446), and the atomics of R444: whether it waits. One
that misses the window reads as zero and writes nothing; a read that fails its check, or cannot reach the partition, answers a
free value (log 45, DESIGN CHOICE). -/
def State.bar2 (s : State) (fn code off len : Nat) (v : BitVec 128) : Bool × State :=
  let f := s.getFunc fn
  let free := (({ s with free := s.free + 1 } : State).answerHost fn 0 (Config.freeBits 64 s.free).toNat)
  if 2 ≤ code && len ≠ 4 && len ≠ 8 then (false, s.answerHost fn 1 0)
  else
    match f.part.bind s.getPart? with
    | none => (false, if code = 1 then s else s.answerHost fn 0 0)
    | some p =>
      if f.bar2 = 0 || 2 ^ f.bar2 < off + len || 8 < len then (false, if code = 1 then s else s.answerHost fn 0 0)
      else if !s.hostReaches (fnPort fn) (p.dies[0]?.getD 0) then (false, if code = 1 then s else free)
      else
        let a := f.wbase + BitVec.ofNat 64 off
        if code = 0 then
          match s.readMem p.agent a len with
          | (.done r, s1) => (false, s1.answerHost fn 0 r)
          | (.wait, s1) => (true, s1)
          | (.fail _ _, _) => (false, free)
        else if code = 1 then
          match s.writeMem p.agent a len (v.toNat % 2 ^ (8 * len)) with
          | (.wait, s1) => (true, s1)
          | (_, s1) => (false, s1)
        else
          match s.atomicMem p.agent a len [] (fun old => some (hostAtomic code len v old)) with
          | (.done r, s1) => (false, s1.answerHost fn 0 r)
          | (.wait, s1) => (true, s1)
          | (.fail _ _, _) => (false, free)

/-- The accesses of a port wait, and the first of them is tried again later. -/
def State.hostRetry (s : State) (port : Nat) (ev : Event) : State :=
  { s with hostHeld := s.hostHeld ++ [(port, ev)] }.retry (.hostTurn port)

/-- BAR2_ACCESS: one whose home is in handover, or whose page is on the move, waits, and so does what follows it. -/
def execBar2Access (fn : Nat) (write : Nat) (off : Nat) (len : Nat) (v : BitVec 128) (s : State) : Out :=
  let r := s.bar2 fn write off len v
  let ev := Event.bar2Access fn write off len v
  .next (s.hostOrder (fnPort fn) ev (if r.1 then r.2.hostRetry (fnPort fn) ev else r.2))

/-- The host behind a port writes its own memory (R154). -/
def execHostStore (port addr n : Nat) (v : BitVec 512) (s : State) : Out :=
  .next (if n ≤ 64 && addr + n ≤ 2 ^ 64 && port < 2 then s.store (hostKey port addr) n v else s)

/-! ### Time slices, budgets and the host's answers (R468-R470) -/

/-- TIME_SLICE_EXPIRY (R468): the slice goes to the next runnable queue. -/
def execTimeSliceExpiry (fn : Nat) (q : Nat) (s : State) : Out :=
  match (s.getFunc fn).part.bind s.getPart? with
  | none => .next s
  | some p =>
    if p.serving ≠ some (fn, q) then .next s
    else
      let n := s.pickNext p
      .next (n.2.giveSlice p.num n.1)

/-- BUDGET_PERIOD (R469): a period of 10 µs ends, and the next begins with nothing used. -/
def execBudgetPeriod (part : Nat) (s : State) : Out :=
  match s.getPart? part with
  | none => .next s
  | some _ => .next ((s.resumeHeld part).schedWall (10000 * Config.ns) (.budgetPeriod part))

/-- HOST_TRAP_ANSWER (R470): in host-assisted mode the host resumes a trapped thread (kill 0), or kills its group at
level kill − 1 (log 57, DESIGN CHOICE). -/
def execHostTrapAnswer (tid : Nat) (kill : Nat) (s : State) : Out :=
  match s.getThread? tid with
  | none => .next s
  | some t =>
    if t.st ≠ .trapped || !s.assisted t then .next s
    else if kill = 0 then .next (s.resumeThread tid none)
    else .next (s.killMember tid (kill - 1))

end Sys2Proof.Machine
end

