-- ==== Sys2Proof/Machine/Sha256.lean ====
section
/-! DEFINITION. SHA-256 (R481, R484), as FIPS 180-4 gives it. -/

namespace Sys2Proof.Machine

/-- Fractional bits of the cube roots of the first 64 primes. -/
def shaK : List Nat :=
  [0x428a2f98, 0x71374491, 0xb5c0fbcf, 0xe9b5dba5, 0x3956c25b, 0x59f111f1, 0x923f82a4, 0xab1c5ed5,
   0xd807aa98, 0x12835b01, 0x243185be, 0x550c7dc3, 0x72be5d74, 0x80deb1fe, 0x9bdc06a7, 0xc19bf174,
   0xe49b69c1, 0xefbe4786, 0x0fc19dc6, 0x240ca1cc, 0x2de92c6f, 0x4a7484aa, 0x5cb0a9dc, 0x76f988da,
   0x983e5152, 0xa831c66d, 0xb00327c8, 0xbf597fc7, 0xc6e00bf3, 0xd5a79147, 0x06ca6351, 0x14292967] ++
  [0x27b70a85, 0x2e1b2138, 0x4d2c6dfc, 0x53380d13, 0x650a7354, 0x766a0abb, 0x81c2c92e, 0x92722c85,
   0xa2bfe8a1, 0xa81a664b, 0xc24b8b70, 0xc76c51a3, 0xd192e819, 0xd6990624, 0xf40e3585, 0x106aa070,
   0x19a4c116, 0x1e376c08, 0x2748774c, 0x34b0bcb5, 0x391c0cb3, 0x4ed8aa4a, 0x5b9cca4f, 0x682e6ff3,
   0x748f82ee, 0x78a5636f, 0x84c87814, 0x8cc70208, 0x90befffa, 0xa4506ceb, 0xbef9a3f7, 0xc67178f2]

/-- The eight words of a hash value. -/
structure Sha where
  a : W32
  b : W32
  c : W32
  d : W32
  e : W32
  f : W32
  g : W32
  h : W32
  deriving DecidableEq, Repr, Inhabited

/-- The initial hash value. -/
def Sha.init : Sha :=
  ⟨0x6a09e667, 0xbb67ae85, 0x3c6ef372, 0xa54ff53a, 0x510e527f, 0x9b05688c, 0x1f83d9ab, 0x5be0cd19⟩

/-- One round with its word of the schedule plus its constant. -/
def Sha.round (s : Sha) (kw : W32) : Sha :=
  let s1 := s.e.rotateRight 6 ^^^ s.e.rotateRight 11 ^^^ s.e.rotateRight 25
  let t1 := s.h + s1 + ((s.e &&& s.f) ^^^ (~~~s.e &&& s.g)) + kw
  let s0 := s.a.rotateRight 2 ^^^ s.a.rotateRight 13 ^^^ s.a.rotateRight 22
  let t2 := s0 + ((s.a &&& s.b) ^^^ (s.a &&& s.c) ^^^ (s.b &&& s.c))
  ⟨t1 + t2, s.a, s.b, s.c, s.d + t1, s.e, s.f, s.g⟩

def Sha.add (s t : Sha) : Sha :=
  ⟨s.a + t.a, s.b + t.b, s.c + t.c, s.d + t.d, s.e + t.e, s.f + t.f, s.g + t.g, s.h + t.h⟩

/-- n more words of the schedule, from the last 16 of them, newest first. -/
def shaSchedule : Nat → List W32 → List W32
  | 0, l => l
  | n + 1, l =>
    let w := fun (k : Nat) => l[k - 1]?.getD 0
    let s0 := (w 15).rotateRight 7 ^^^ (w 15).rotateRight 18 ^^^ (w 15) >>> 3
    let s1 := (w 2).rotateRight 17 ^^^ (w 2).rotateRight 19 ^^^ (w 2) >>> 10
    shaSchedule n ((s1 + w 7 + s0 + w 16) :: l)

/-- One block of 64 bytes. -/
def Sha.block (s : Sha) (b : List Byte) : Sha :=
  let byte := fun (i : Nat) => b[i]?.getD 0
  let ws := (List.range 16).map (fun i => byte (4 * i) ++ byte (4 * i + 1) ++ byte (4 * i + 2) ++ byte (4 * i + 3))
  s.add (((shaSchedule 48 ws.reverse).reverse.zip shaK).foldl (fun t x => t.round (x.1 + BitVec.ofNat 32 x.2)) s)

/-- The blocks of a padded message, at most n of them. -/
def Sha.blocks : Nat → Sha → List Byte → Sha
  | 0, s, _ => s
  | n + 1, s, l => if l.isEmpty then s else Sha.blocks n (s.block (l.take 64)) (l.drop 64)

/-- The bytes of a word, highest first. -/
def shaBytes (w : W32) : List Byte := [w.extractLsb' 24 8, w.extractLsb' 16 8, w.extractLsb' 8 8, w.extractLsb' 0 8]

/-- The digest of a message; its first byte is the lowest byte of the number (R3). -/
def sha256 (m : List Byte) : BitVec 256 :=
  let len := 8 * m.length
  let pad := 0x80#8 :: List.replicate ((119 - m.length % 64) % 64) 0#8
  let size := (List.range 8).map (fun i => BitVec.ofNat 8 (len / 256 ^ (7 - i)))
  let all := m ++ pad ++ size
  let s := Sha.blocks (all.length / 64) Sha.init all
  BitVec.ofNat 256 ((([s.a, s.b, s.c, s.d, s.e, s.f, s.g, s.h].flatMap shaBytes).zipIdx).foldl
    (fun v x => v + x.1.toNat * 256 ^ x.2) 0)

end Sys2Proof.Machine
end

