-- ==== Sys2Proof/Machine/Mgmt.lean ====
section
/-! DEFINITION. Management commands (R471, R472), and the measurement log that some of them extend (R481). -/

namespace Sys2Proof.Machine

/-! ### Measurements (R481) -/

/-- The n bytes of a number, lowest first (R3). -/
def bytesOf : Nat → Nat → List Byte
  | 0, _ => []
  | n + 1, v => BitVec.ofNat 8 v :: bytesOf n (v / 256)

/-- The number whose bytes a list holds. -/
def natOf : List Byte → Nat
  | [] => 0
  | b :: r => b.toNat + 256 * natOf r

/-- Extend measurement register n with a digest, and log it; a full log takes no more. -/
def State.extendLog (s : State) (n kind die : Nat) (version : W32) (digest : BitVec 256) : State :=
  let k := s.kaolin
  if 4096 ≤ k.log.length then s
  else
    let m := sha256 (bytesOf 32 (rd k.mr n).toNat ++ bytesOf 32 digest.toNat)
    let e : LogEntry := { mr := n, kind := kind, die := die, version := version, digest := digest }
    { s with kaolin := { k with mr := wr k.mr n m, log := k.log ++ [e] } }

/-- Kaolin refuses requests that extend a log of 4,095 entries; the last entry records the refusal. -/
def State.logFull (s : State) : Bool := decide (4095 ≤ s.kaolin.log.length)

/-- The layout of a partition is measured into MR6; in a log of 4,095 entries the last one records that it is not. -/
def State.logLayout (s : State) (p : Partition) : State :=
  s.extendLog 6 (if s.logFull then 3 else 2) 18 0 (sha256 ((p.num :: p.dies ++ p.stackList).map (BitVec.ofNat 8)))

/-! ### The frame of a command (R471) -/

def Mgmt.op (m : Mgmt) : Nat := (m.block.extractLsb' 0 8).toNat
def Mgmt.part (m : Mgmt) : Nat := (m.block.extractLsb' 16 4).toNat
/-- Operand bits [lo + n − 1 : lo] of the word at an offset. -/
def Mgmt.opnd (m : Mgmt) (off lo n : Nat) : Nat := (m.block.extractLsb' (8 * off + lo) n).toNat

def State.mgmt? (s : State) (mid : Nat) : Option Mgmt := s.mgmt.find? (fun m => m.mid == mid)

/-- The die whose firmware memory holds the block of a turn. -/
def State.turnDie (s : State) (tid : Nat) : Nat := match s.getThread? tid with
  | some t => t.die
  | none => 0

/-- The mailbox of a port, its response and the status of its request (R473). -/
def State.mailbox' (s : State) (port : Nat) : Mailbox := s.mailbox[port]?.getD Mailbox.init
def State.setMailbox (s : State) (port : Nat) (m : Mailbox) : State := { s with mailbox := s.mailbox.setIfInBounds port m }
/-- DATA with bytes written from an offset. -/
def Mailbox.put (m : Mailbox) (off : Nat) (bs : List Byte) : Mailbox :=
  let d := m.data ++ List.replicate (off + bs.length - m.data.length) 0
  { m with data := d.take off ++ bs ++ d.drop (off + bs.length) }
/-- A request is complete. -/
def State.endRequest (s : State) (port code : Nat) (response : List Byte) : State :=
  let m := (s.mailbox' port).put 0 response
  s.setMailbox port { m with busy := false, status := BitVec.ofNat 8 code, mbrlen := BitVec.ofNat 32 response.length }

/-- A management command completes: STATUS is written into the block, then %mstat or the mailbox's status (R471,
R473). -/
def State.endMgmt (s : State) (m : Mgmt) (code detail : Nat) : State :=
  let s1 := { s with mgmt := s.mgmt.filter (fun x => x.mid != m.mid) }
  let st := code + detail % 2 ^ 24 * 256
  match m.src with
  | .turn tid off =>
    -- a word in an uncorrectable granule is not written, and the supervisor hears of it (R487)
    let key := fwKey (s1.turnDie tid) (off + 4)
    let s2 := if s1.eccWrite key 4 then { s1 with reports := s1.reports ++ [(2, tid)] } else s1.store key 4 (BitVec.ofNat 32 st)
    s2.onThread tid (fun t => { t with ctl := { t.ctl with mstat := BitVec.ofNat 32 code } })
  | .mailbox port =>
    s1.endRequest port 1 (bytesOf 4 m.block.toNat ++ bytesOf 4 st ++ bytesOf 56 (m.block.toNat / 2 ^ 64))

/-- The first byte of a block that breaks R471: a nonzero byte or field that the operation does not name, or a value out
of range, whose byte offset `range` lists. -/
def firstOffence (block allowed : BitVec 512) (range : List Nat) : Option Nat :=
  let x := block &&& ~~~(allowed ||| place 512 0 (0xFFFFFFFF000F00FF#64))
  (List.range 64).find? (fun i => (elem 8 x i : Byte) != 0 || range.contains i)

/-- Bits of a word of a block. -/
def opMask (off : Nat) (v : Nat) : BitVec 512 := place 512 off (BitVec.ofNat 64 v)

/-- What a management command does when its checks have passed. -/
inductive MgmtDo where
  /-- It completes with a code and a detail, in this state. -/
  | done (s : State) (code detail : Nat)
  /-- It goes on later. -/
  | again (s : State)
  /-- It waits for an event that takes it up again. -/
  | wait (s : State)

/-- Carry out a command (R471): commands run one at a time in order; then BADCMD, PRIVILEGE and the reasons of R472 (log 56,
DESIGN CHOICE). -/
def State.runMgmt (s : State) (mid op : Nat) (ev : Event) (monitorOnly : Bool) (allowed : BitVec 512)
    (range : Mgmt → List Nat) (act : State → Mgmt → MgmtDo) : Out :=
  match s.mgmt? mid with
  | none => .next s
  | some m =>
    if m.op ≠ op then .next s
    else if (s.mgmt.head?.map (·.mid)) ≠ some mid then .next (s.retry ev)
    else
      match firstOffence m.block allowed (range m) with
      | some i => .next (s.endMgmt m 2 i)
      | none =>
        if monitorOnly && !m.monitor then .next (s.endMgmt m 3 0)
        else
          match act s m with
          | .done s1 code detail => .next (s1.endMgmt m code detail)
          | .again s1 => .next (s1.retry ev)
          | .wait s1 => .next s1

/-- The range check of PART: a partition that does not exist. -/
def State.noPart (s : State) (m : Mgmt) : List Nat := if (s.getPart? m.part).isSome then [] else [2]
/-- An offset when a condition holds. -/
def offend (b : Bool) (off : Nat) : List Nat := if b then [off] else []

/-- An effect on PART. -/
def State.onPart (s : State) (m : Mgmt) (f : Partition → Partition) : MgmtDo :=
  match s.getPart? m.part with
  | some p => .done (s.setPart (f p)) 1 0
  | none => .done s 2 2

/-! ### Partitions -/

/-- A map of n nibbles. -/
def nibbles (w n : Nat) : List Nat := (List.range n).map (fun i => w / 16 ^ i % 16)
/-- A list names each member of another once. -/
def oneToOne (l set : List Nat) : Bool := noRepeat l && l.all set.contains && l.length == set.length

/-- A die that a partition of these dies may not have (R483, R480): dead, not ready, in another partition, with a stack
that is not ready, or with a route over a die whose router failed. -/
def State.unformable (s : State) (dies : List Nat) : Bool :=
  let k := s.kaolin
  !k.ready.getLsbD 38 ||
  dies.any (fun d => (s.getDie d).dead || !k.ready.getLsbD d || s.parts.any (fun p => p.dies.contains d)) ||
  (List.range 16).any (fun st => dies.contains (s.ownerDie st) && !k.ready.getLsbD (16 + st)) ||
  dies.any (fun a => dies.any (fun b => (routeDies a b).any (fun d => !(s.getDie d).routerOk)))

/-- A partition as it forms: tables empty, no budget, the default windows of 64 KiB and 256 KiB (R401), a hysteresis of
1 ms (R425), key slot 0 loaded, resident. Its own chip index (R382) is the front end's choice. -/
def newPartition (num : Nat) (dies stackNums : List Nat) (chip : Nat) : Partition :=
  { num := num, dies := dies, stackList := stackNums, memcfg := 0, root := 0, groups := [], budget := Vector.replicate 6 0,
    used := Vector.replicate 6 0, window := #v[16, 64], routes := [], chip := chip, hyst := 1000, home := none, pools := [],
    resident := true, evicting := false, keys := 1, holding := [], collFails := [], farIds := [], incoming := [], serving := none, keyVals := [], moveTo := [] }

/-- A chip index that no partition of the package has (R382: it names the partition): the first from a free number on (log
49, DESIGN CHOICE). -/
def freeChip (used : List Nat) : Nat → Nat → Nat
  | 0, c => c
  | n + 1, c => if used.contains (c % 65536) then freeChip used n (c + 1) else c % 65536

/-- The dies of a partition hold nothing of it: their engines, and the counts of collectives of their cores (R383). -/
def State.formDies (s : State) (dies : List Nat) : State :=
  { dies.foldl (fun a d => a.onDie d Die.formed) s with
    cores := s.cores.map (fun (k : Core) => if dies.contains k.die then { k with collCount := [] } else k) }

/-- Kaolin draws a fresh key and writes it into a slot of a partition's stack ports (R485): the slot holds a key of a new identity
from now on (log 48, DESIGN CHOICE). -/
def State.loadKey (s : State) (part slot : Nat) : State :=
  match s.getPart? part with
  | none => s
  | some p =>
    { s.setPart { p with
        keys := p.keys ||| (1#16 <<< slot)
        keyVals := upsert (fun x => x.1 == slot) (slot, s.nextId, Config.drbg s.kaolin.drawn) p.keyVals } with
      nextId := s.nextId + 1, kaolin := { s.kaolin with drawn := s.kaolin.drawn + 1 } }

/-- PFORM. -/
def execPform (mid : Nat) (s : State) : Out :=
  s.runMgmt mid 1 (.pform mid) true
    (opMask 0x08 0xFFFF ||| opMask 0x10 (2 ^ 64 - 1) ||| opMask 0x18 (2 ^ 64 - 1) ||| opMask 0x20 3)
    (fun m => offend (m.opnd 8 0 16 == 0) 8)
    (fun s m =>
      let dies := (List.range 16).filter (fun d => m.block.getLsbD (64 + d))
      let stackNums := (List.range 16).filter (fun st => dies.contains (s.ownerDie st))
      let order := if m.block.getLsbD (8 * 0x20) then nibbles (m.opnd 0x10 0 64) dies.length else dies
      let names := if m.block.getLsbD (8 * 0x20 + 1) then nibbles (m.opnd 0x18 0 64) stackNums.length else stackNums
      if (s.getPart? m.part).isSome then .done s 4 1
      else if s.unformable dies then .done s 4 2
      else if !oneToOne order dies || !oneToOne names stackNums then .done s 4 3
      else
        let p := newPartition m.part order names (freeChip (s.parts.map (·.chip)) 17 (Config.freeTime s.free))
        let s1 := ({ s with free := s.free + 1 }.setPart p)
        let s2 := (s1.formDies dies).loadKey m.part 0
        .done ((s2.logLayout p).schedWall (10000 * Config.ns) (.budgetPeriod m.part)) 1 0)

/-- A launch or pipeline of a partition is placed or queued. -/
def State.partBusy (s : State) (part : Nat) : Bool :=
  s.launches.any (fun l => l.part == part && !l.finished && l.rejected == 0) ||
  s.cmds.any (fun c => (c.op' == 1 || c.op' == 2) && c.st != .finished && c.part == some part)

/-- A function leaves its partition (R449). -/
def State.unassign (s : State) (fn : Nat) : State :=
  let s1 := s.resetFunc fn
  let s2 := match (s1.getFunc fn).part.bind s1.getPart? with
    | some p => if p.home = some fn then s1.setPart { p with home := none } else s1
    | none => s1
  s2.setFunc { s2.getFunc fn with part := none, home := false }

/-- PDISS. -/
def execPdiss (mid : Nat) (s : State) : Out :=
  s.runMgmt mid 2 (.pdiss mid) true 0 s.noPart (fun s m =>
    if s.partBusy m.part then .done s 4 1
    else
      match s.getPart? m.part with
      | none => .done s 2 2
      | some p =>
        let s1 := (s.funcs.filter (fun f => f.part == some m.part)).foldl (fun a f => a.unassign f.fn) s
        let s2 := s1.formDies p.dies
        .done ({ s2 with
          parts := s2.parts.filter (fun q => q.num != m.part)
          moves := s2.moves.filter (fun v => v.part != m.part)
          saved := s2.saved.filter (fun v => v.part != m.part) }.unsched (fun e => e == Event.budgetPeriod m.part)) 1 0)

/-- KEYLD (R485). -/
def execKeyld (mid : Nat) (s : State) : Out :=
  s.runMgmt mid 3 (.keyld mid) true (opMask 0x08 0xF)
    (fun m => s.noPart m ++ offend (m.opnd 8 0 4 == 0) 8)
    (fun s m => .done (s.loadKey m.part (m.opnd 8 0 4)) 1 0)

/-- STKMOVE (R416): once no handover drains the stack, it goes to the die that SIDE names, its bytes become zero, and
both stack maps are updated. It takes the number after the last one there, and those after it here move down by one (log 117, DESIGN
CHOICE). -/
def execStkmove (mid : Nat) (s : State) : Out :=
  s.runMgmt mid 4 (.stkmove mid) true (opMask 0x08 0xF ||| opMask 0x10 0x1F) s.noPart (fun s m =>
    let st := m.opnd 8 0 4
    let side := m.opnd 0x10 4 1
    let die := if side = 1 then (stackDies st).2 else (stackDies st).1
    match s.getPart? m.part, s.getPart? (m.opnd 0x10 0 4) with
    | some p, some q =>
      if !p.stackList.contains st || !q.dies.contains die then .done s 4 1
      else if s.stackDraining st then .again s
      else
        let s1 := { s with
          stackPort := if side = 1 then s.stackPort ||| (1#16 <<< st) else s.stackPort &&& ~~~(1#16 <<< st) }
        let s2 := s1.clear (stackKey st 0) Config.stackSize
        let s3 := s2.setPart { p with stackList := p.stackList.filter (· != st) }
        let q1 := (s3.getPart? q.num).getD q
        let q2 := { q1 with stackList := q1.stackList ++ [st] }
        .done ((s3.setPart q2).logLayout q2) 1 0
    | _, _ => .done s 4 1)

/-- POOL (R429). -/
def execPool (mid : Nat) (s : State) : Out :=
  s.runMgmt mid 5 (.pool mid) false
    (opMask 0x08 0xF ||| opMask 0x10 (2 ^ 64 - 4096) ||| opMask 0x18 (2 ^ 64 - 4096))
    (fun m => s.noPart m ++ offend (decide (s.dieCount m.part ≤ m.opnd 8 0 4)) 8)
    (fun s m =>
      let d := m.opnd 8 0 4
      s.onPart m (fun p => { p with
        pools := upsert (fun x => x.1 == d) (d, m.block.extractLsb' (8 * 0x10) 64, m.block.extractLsb' (8 * 0x18) 64) p.pools }))

def State.beginMgmt (s : State) (m : Mgmt) : State :=
  { s with mgmt := s.mgmt.map (fun x => if x.mid = m.mid then { x with begun := true } else x) }

/-- EVICT (R435): the partition is asked to stop; the command completes when it is evicted. Not in the window of
R477. -/
def execEvict (mid : Nat) (s : State) : Out :=
  s.runMgmt mid 6 (.evict mid) false 0 s.noPart (fun s m =>
    match s.getPart? m.part with
    | none => .done s 2 2
    | some p =>
      if m.begun then
        (if p.resident then .wait s else .done (s.setPart { p with evicting := false }) 1 0)
      else if !p.resident then .done s 4 1
      else if p.dies.any (fun d => (s.saveArea p d).isNone) then .done s 4 2
      else if s.updating then .again s
      else .wait ((s.setPart { p with evicting := true }).beginMgmt m))

/-- A handover of a partition drains a stack. -/
def State.partDrains (s : State) (p : Partition) : Bool :=
  s.dies.any (fun d => d.handQ.any (fun o => o.draining && o.part == p.num))

/-- RESUME (R442, R443): every image is checked before anything runs; the partition goes on from its images, and the command
completes when it runs. -/
def execResume (mid : Nat) (s : State) : Out :=
  s.runMgmt mid 7 (.resume mid) false 0 s.noPart (fun s m =>
    match s.getPart? m.part with
    | none => .done s 2 2
    | some p =>
      if m.begun then
        (if p.dies.any (fun d => (s.getDie d).stopped) then .wait s else .done (s.kick m.part) 1 0)
      else if p.resident then .done s 4 1
      else if s.partDrains p then .again s
      else
        match s.badPartition p with
        | some (d, c) => .done s 4 (2 + c * 2 ^ 12 + d * 2 ^ 20)
        | none =>
          .wait ((({ s with saved := s.saved.filter (fun v => v.part != m.part) }.loadPartition p).setPart
            { p with resident := true, evicting := false }).beginMgmt m))

/-! ### Tables of a partition -/

/-- MEMCFG (R408). -/
def execMemcfg (mid : Nat) (s : State) : Out :=
  s.runMgmt mid 8 (.memcfg mid) false (opMask 0x08 0xFFFF003F00000001) s.noPart
    (fun s m => s.onPart m (fun p => { p with memcfg := m.block.extractLsb' 64 64 }))

/-- XROOT (R420): a 40-bit address of a 4 KiB table; cached translations are dropped. -/
def execXroot (mid : Nat) (s : State) : Out :=
  s.runMgmt mid 9 (.xroot mid) false (opMask 0x08 (2 ^ 40 - 4096)) s.noPart
    (fun s m => (s.dropTlb m.part (fun _ => true)).onPart m (fun p => { p with root := m.opnd 8 0 40 }))

/-- The member words of GTAB: in the firmware memory of the issuing die, or in DATA (R473). -/
def State.memberWords (s : State) (m : Mgmt) (off n : Nat) : List MemberWord :=
  match m.src with
  | .turn tid _ => (List.range n).map (fun i => (s.load (fwKey (s.turnDie tid) (off + 4 * i)) 4 32 : W32) &&& 0xFFFFFFF0#32)
  | .mailbox port =>
    (List.range n).map (fun i =>
      BitVec.ofNat 32 (natOf (((s.mailbox' port).data.drop (off + 4 * i)).take 4)) &&& 0xFFFFFFF0#32)

/-- The size of the memory that holds them. -/
def State.memberSpace (s : State) (m : Mgmt) : Nat :=
  match m.src with
  | .turn tid _ => if 16 ≤ s.turnDie tid then Config.fwSizeIo else Config.fwSizeDie
  | .mailbox _ => 4096

/-- GTAB (R382): an empty entry has no member words. -/
def execGtab (mid : Nat) (s : State) : Out :=
  s.runMgmt mid 0xA (.gtab mid) false
    (opMask 0x08 0xFF ||| opMask 0x10 0x7FF ||| opMask 0x18 (2 ^ 64 - 1))
    (fun m => s.noPart m ++ offend (decide (1024 < m.opnd 0x10 0 11)) 0x10 ++
      offend (decide (s.memberSpace m < m.opnd 0x18 0 64 + 4 * m.opnd 0x10 0 11)) 0x18)
    (fun s m =>
      let g := m.opnd 8 0 8
      let n := m.opnd 0x10 0 11
      let ws := s.memberWords m (m.opnd 0x18 0 64) n
      s.onPart m (fun p =>
        let rest := p.groups.filter (fun x => x.1 != g)
        { p with groups := if n = 0 then rest else rest ++ [(g, ws)] }))

/-- BUDGET (R469). -/
def execBudget (mid : Nat) (s : State) : Out :=
  s.runMgmt mid 0xB (.budget mid) false (opMask 0x08 7 ||| opMask 0x10 0xFFFFFFFF)
    (fun m => s.noPart m ++ offend (decide (6 ≤ m.opnd 8 0 3)) 8)
    (fun s m => s.onPart m (fun p => { p with budget := p.budget.setIfInBounds (m.opnd 8 0 3) (m.opnd 0x10 0 32) }))

/-- SWIN (R401). -/
def execSwin (mid : Nat) (s : State) : Out :=
  s.runMgmt mid 0xC (.swin mid) false (opMask 0x08 1 ||| opMask 0x10 0x1FF)
    (fun m => s.noPart m ++ offend (m.opnd 0x10 0 9 == 0 || decide (256 < m.opnd 0x10 0 9)) 0x10)
    (fun s m => s.onPart m (fun p => { p with window := p.window.setIfInBounds (m.opnd 8 0 1) (m.opnd 0x10 0 9) }))

/-- CROUTE (R403). -/
def execCroute (mid : Nat) (s : State) : Out :=
  s.runMgmt mid 0xD (.croute mid) false (opMask 0x08 0xFFFF ||| opMask 0x10 0xFFFF) s.noPart (fun s m =>
    let c := m.opnd 8 0 16
    let set := m.block.extractLsb' (8 * 0x10) 16
    s.onPart m (fun p =>
      let rest := p.routes.filter (fun x => x.1 != c)
      { p with routes := if set = 0 then rest else rest ++ [(c, set)] }))

/-- HYST (R425). -/
def execHyst (mid : Nat) (s : State) : Out :=
  s.runMgmt mid 0x11 (.hyst mid) false (opMask 0x08 0xFFFFF)
    (fun m => s.noPart m ++ offend (decide (1000000 < m.opnd 8 0 20)) 8)
    (fun s m => s.onPart m (fun p => { p with hyst := m.opnd 8 0 20 }))

/-! ### Functions, queues and tenants -/

/-- A function number beyond the last (R445). -/
def badFn (m : Mgmt) : List Nat := offend (decide (514 ≤ m.opnd 8 0 10)) 8

/-- FASSIGN (R448, R449, R470). -/
def execFassign (mid : Nat) (s : State) : Out :=
  s.runMgmt mid 0xE (.fassign mid) false
    (opMask 0x08 0x3FF ||| opMask 0x10 0x1F ||| opMask 0x18 0x3F ||| opMask 0x20 (2 ^ 64 - 1))
    (fun m => s.noPart m ++ badFn m ++
      offend ((m.opnd 0x18 0 6 != 0 && decide (m.opnd 0x18 0 6 < 20)) || decide (36 < m.opnd 0x18 0 6)) 0x18)
    (fun s m =>
      let fn := m.opnd 8 0 10
      let b := fun (i : Nat) => m.block.getLsbD (8 * 0x10 + i)
      let modes := fun (f : Func) => { f with pagm := b 2, mapm := b 3, trpm := b 4 }
      if !b 0 then
        let s1 := s.unassign fn
        .done (s1.setFunc (modes (s1.getFunc fn))) 1 0
      else
        let old := (s.getFunc fn).part
        let s1 := if old = some m.part then s else s.unassign fn
        let s2 := s1.setFunc { modes (s1.getFunc fn) with
          part := some m.part, home := b 1, bar2 := m.opnd 0x18 0 6, wbase := m.block.extractLsb' (8 * 0x20) 64 }
        match s2.getPart? m.part with
        | none => .done s2 1 0
        | some p =>
          let others := s2.funcs.map (fun f =>
            if b 1 && f.part == some m.part && f.fn != fn then { f with home := false } else f)
          let home := if b 1 then some fn else if p.home = some fn then none else p.home
          .done (({ s2 with funcs := others }.setPart { p with home := home }).kick m.part) 1 0)

/-- QMAP (R457): not in the window of R477. -/
def execQmap (mid : Nat) (s : State) : Out :=
  s.runMgmt mid 0xF (.qmap mid) false (opMask 0x08 0x3FF ||| opMask 0x10 0x3F) badFn (fun s m =>
    let fn := m.opnd 8 0 10
    let q := m.opnd 0x10 0 6
    if s.updating then .again s
    else if ((s.getFunc fn).queue q).mapped then .done s 1 0
    else if 512 ≤ s.mappedCount (fnPort fn) then .done s 4 1
    else .done (s.mapQueue fn q) 1 0)

/-- QUNMAP (R457, R458): the queue's state stays. -/
def execQunmap (mid : Nat) (s : State) : Out :=
  s.runMgmt mid 0x10 (.qunmap mid) false (opMask 0x08 0x3FF ||| opMask 0x10 0x3F) badFn (fun s m =>
    let fn := m.opnd 8 0 10
    if s.updating then .again s
    else .done ((s.onQueue fn (m.opnd 0x10 0 6) (fun k => { k with mapped := false })).kickFn fn) 1 0)

/-- PLOAD (R472, R481, R467): the image is read from PART and verified; Kaolin refuses when its log is full. An image
that cannot be read is a value out of range. -/
def execPload (mid : Nat) (s : State) : Out :=
  s.runMgmt mid 0x12 (.pload mid) false
    (opMask 0x08 0x3FF ||| opMask 0x10 (2 ^ 64 - 1) ||| opMask 0x18 0xFFFFF ||| opMask 0x20 (2 ^ 64 - 1))
    (fun m => s.noPart m ++ badFn m ++ offend (decide (Config.fwSizeIo < m.opnd 0x20 0 64 + m.opnd 0x18 0 20)) 0x20)
    (fun s m =>
      let fn := m.opnd 8 0 10
      let len := m.opnd 0x18 0 20
      let off := m.opnd 0x20 0 64
      match s.getPart? m.part with
      | none => .done s 2 2
      | some p =>
        match s.readMem p.agent (m.block.extractLsb' (8 * 0x10) 64) len with
        | (.wait, s1) => .again s1
        | (.fail _ _, s1) => .done s1 2 0x10
        | (.done v, s1) =>
          let bytes := bytesOf len v
          let digest := sha256 bytes
          if s.logFull then .done (s1.extendLog 5 3 18 0 digest) 4 0
          else if !Config.signatureOk bytes then .done (s1.extendLog 5 3 18 0 digest) 7 0
          else
            let s2 := (s1.extendLog 5 1 18 0 digest).store (fwKey (16 + fnPort fn) off) len (BitVec.ofNat (8 * len) v)
            .done (s2.setFunc { s2.getFunc fn with plugin := some (off, len), pluginFaulted := false }) 1 0)

/-- TSLICE (R468). -/
def execTslice (mid : Nat) (s : State) : Out :=
  s.runMgmt mid 0x13 (.tslice mid) false (opMask 0x08 0x3FF ||| opMask 0x10 0x1FFFF)
    (fun m => badFn m ++ offend (decide (m.opnd 0x10 0 17 < 50) || decide (100000 < m.opnd 0x10 0 17)) 0x10)
    (fun s m => .done (s.setFunc { s.getFunc (m.opnd 8 0 10) with tslice := m.opnd 0x10 0 17 }) 1 0)

/-- FPOOL (R424). A list that cannot be read is a value out of range. -/
def execFpool (mid : Nat) (s : State) : Out :=
  s.runMgmt mid 0x14 (.fpool mid) false
    (opMask 0x08 0x3FF ||| opMask 0x10 (2 ^ 64 - 1) ||| opMask 0x18 0xFFFF)
    (fun m => s.noPart m ++ badFn m)
    (fun s m =>
      let n := m.opnd 0x18 0 16
      match s.getPart? m.part with
      | none => .done s 2 2
      | some p =>
        match s.readMem p.agent (m.block.extractLsb' (8 * 0x10) 64) (8 * n) with
        | (.wait, s1) => .again s1
        | (.fail _ _, s1) => .done s1 2 0x10
        | (.done v, s1) =>
          let f := s1.getFunc (m.opnd 8 0 10)
          let frames := (List.range n).map (fun i => BitVec.ofNat 64 (v / 2 ^ (64 * i)) &&& 0xFFFFFFFFFFFFF000#64)
          .done (s1.setFunc { f with pool := f.pool ++ frames }) 1 0)

/-- KILL (R176, R193): the group of every thread of the die that bears the identifier. -/
def execKill (mid : Nat) (s : State) : Out :=
  s.runMgmt mid 0x15 (.kill mid) false (opMask 0x08 0xF ||| opMask 0x10 (2 ^ 64 - 1) ||| opMask 0x18 7)
    (fun m => s.noPart m ++ offend (decide (s.dieCount m.part ≤ m.opnd 8 0 4)) 8 ++ offend (m.opnd 0x18 0 3 == 7) 0x18)
    (fun s m =>
      let d := (s.physDie? m.part (m.opnd 8 0 4)).getD 0
      let w : W64 := m.block.extractLsb' (8 * 0x10) 64
      let ts := s.allThreads.filter (fun t => t.part == m.part && t.die == d && !t.onControl && t.wid == w && t.st != .exited)
      .done (ts.foldl (fun a t => match a.getThread? t.tid with
        | some u => if u.st = .exited then a else a.killGroup u (m.opnd 0x18 0 3)
        | none => a) s) 1 0)

end Sys2Proof.Machine
end

