-- ==== Sys2Proof/Machine/Kaolin.lean ====
section
/-! DEFINITION. The management mailbox (R473), firmware images and their update (R474-R477), and the Kaolin die: reset
order, measurement, readiness, attestation, and thermal limits (R478-R488). -/

namespace Sys2Proof.Machine

/-! ### The mailbox (R473) -/

/-- An event bit of a mailbox becomes 1, which sends MSI-X vector 0 of the physical function. -/
def State.raiseEvent (s : State) (port bitNo : Nat) : State :=
  let m := s.mailbox' port
  if m.mbevt.getLsbD bitNo then s
  else
    (s.setMailbox port { m with mbevt := m.mbevt ||| (1#32 <<< bitNo) }).sendMsix (257 * port) 0

/-- A write of MBEVT: writing 1 clears a bit (R6). -/
def State.mbevtNow (s : State) (port : Nat) (v : W32) : State :=
  let m := s.mailbox' port
  s.setMailbox port { m with mbevt := m.mbevt &&& ~~~v }
/-- MBEVT_CLEAR. -/
def execMbevtClear (port : Nat) (v : BitVec 32) (s : State) : Out :=
  .next (s.hostOrder port (.mbevtClear port v) (s.mbevtNow port v))

def Mailbox.req (m : Mailbox) : Nat := (m.mbcmd.extractLsb' 0 8).toNat
def Mailbox.tgt (m : Mailbox) : Nat := (m.mbcmd.extractLsb' 8 2).toNat
/-- Bytes of DATA, zero beyond those written. -/
def Mailbox.byte (m : Mailbox) (i : Nat) : Byte := m.data[i]?.getD 0
def Mailbox.bytes (m : Mailbox) (off n : Nat) : List Byte := (List.range n).map (fun i => m.byte (off + i))
/-- The request message of MBLEN bytes. -/
def Mailbox.message (m : Mailbox) : List Byte := m.bytes 0 m.mblen.toNat

/-- MBLEN values that a request allows. -/
def lenOk (req n : Nat) : Bool :=
  match req with
  | 1 => decide (4 ≤ n) && decide (n ≤ 4096)
  | 2 => n == 0
  | 3 => decide (4 ≤ n) && decide (n ≤ 4096)
  | 4 => n == 8
  | 5 => decide (64 ≤ n) && decide (n ≤ 4096)
  | _ => false

/-- The event of an SPDM request, by its request code (R484; the codes are those of DSP0274; log 62, PRESUMED). -/
def spdmEvent (port code : Nat) : Event :=
  match code with
  | 0x84 => .getVersion port
  | 0xE1 => .getCapabilities port
  | 0xE3 => .negotiateAlgorithms port
  | 0x81 => .getDigests port
  | 0x82 => .getCertificate port
  | 0x83 => .challenge port
  | 0xE0 => .getMeasurements port
  | _ => .spdmUnsupportedRequest port

/-- The event that carries a mailbox request out. -/
def requestEvent (port : Nat) (v : W32) (m : Mailbox) : Event :=
  let req := (v.extractLsb' 0 8).toNat
  if v.extractLsb' 9 23 ≠ 0 || !lenOk req m.mblen.toNat then .mailboxBadreq port
  else
    match req with
    | 1 => .fwload port
    | 2 => .fwact port
    | 3 => spdmEvent port (m.byte 1).toNat
    | 4 => .logrd port
    | 5 => .mgmt port
    | _ => .mailboxBadreq port

/-- A write of MBCMD: dropped while BUSY; with REQ nonzero it starts a request. -/
def State.writeMbcmd (s : State) (port : Nat) (v : W32) : State :=
  let m := s.mailbox' port
  if m.busy then s
  else if v.extractLsb' 0 8 = 0 then s.setMailbox port { m with mbcmd := v &&& 0x3FF#32 }
  else
    (s.setMailbox port { m with mbcmd := v &&& 0x3FF#32, busy := true }).retry (requestEvent port v m)

/-- MAILBOX_BADREQ: status 6. -/
def execMailboxBadreq (port : Nat) (s : State) : Out := .next (s.endRequest port 6 [])

/-- A host write of a register by function, BAR and offset (R446). Reserved and read-only registers ignore it, a write that misses
every register is dropped, and DATA takes 4 bytes. -/
def State.registerNow (s : State) (fn bar off : Nat) (v : W64) : State :=
  let w : W32 := v.extractLsb' 0 32
  if bar = 0 then
    if off = 0x008 then s.fctlNow fn w
    else if 0x1000 ≤ off && off < 0x41000 then
      let q := off / 0x1000 - 1
      match off % 0x1000 with
      | 0x00 => s.wakeNow fn q w
      | 0x08 => s.rbaseNow fn q v
      | 0x10 => s.rcfgNow fn q w
      | _ => s
    else s
  else if bar = 4 && fn % 257 = 0 then
    let port := fn / 257
    let m := s.mailbox' port
    if off = 0x000 then s.writeMbcmd port w
    else if off = 0x008 then s.setMailbox port { m with mblen := w }
    else if off = 0x010 then s.mbevtNow port w
    else if 0x1000 ≤ off && off < 0x2000 then s.setMailbox port (m.put ((off - 0x1000) / 4 * 4) (bytesOf 4 w.toNat))
    else s
  else s
/-- REGISTER_WRITE. -/
def execRegisterWrite (fn : Nat) (bar : Nat) (off : Nat) (v : BitVec 64) (s : State) : Out :=
  .next (s.hostOrder (fnPort fn) (.registerWrite fn bar off v) (s.registerNow fn bar off v))

/-- What a host reads from a register of a function (R446, R447, R450, R473, R482): zero where there is none. -/
def State.hostRegister (s : State) (fn bar off : Nat) : W64 :=
  let f := s.getFunc fn
  let m := s.mailbox' (fn / 257)
  if bar = 0 then
    if off = 0x000 then f.fstat.setWidth 64
    else if off = 0x008 then (BitVec.ofNat 64 (bit f.en 0))
    else if 0x1000 ≤ off && off < 0x41000 then
      let k := f.queue (off / 0x1000 - 1)
      match off % 0x1000 with
      | 0x00 => k.pidx.setWidth 64
      | 0x08 => k.rbase
      | 0x10 => k.rcfg.setWidth 64
      | 0x18 => k.cons.setWidth 64
      | 0x1C => k.qstat.setWidth 64
      | _ => 0
    else 0
  else if bar = 4 && fn % 257 = 0 then
    match off with
    | 0x000 => m.mbcmd.setWidth 64
    | 0x004 => BitVec.ofNat 64 (bit m.busy 31 + m.status.toNat)
    | 0x008 => m.mblen.setWidth 64
    | 0x00C => m.mbrlen.setWidth 64
    | 0x010 => m.mbevt.setWidth 64
    | 0x040 => s.kaolin.ready
    | 0x048 => s.kaolin.deadMap
    | _ => if 0x1000 ≤ off && off < 0x2000 then BitVec.ofNat 64 (natOf (m.bytes ((off - 0x1000) / 4 * 4) 4)) else 0
  else 0

/-- A host read of a register: it follows the writes of its port that wait. -/
def execHostRead (fn bar off : Nat) (s : State) : Out :=
  .next (s.hostOrder (fnPort fn) (.hostRead fn bar off) (s.answerHost fn 0 (s.hostRegister fn bar off).toNat))

/-- A host access that waited, as it acts now: whether it still waits. -/
def State.hostNow (s : State) (ev : Event) : Bool × State :=
  match ev with
  | .bar2Access fn code off len v => s.bar2 fn code off len v
  | .wake fn q v => (false, s.wakeNow fn q v)
  | .rbaseWrite fn q v => (false, s.rbaseNow fn q v)
  | .rcfgWrite fn q v => (false, s.rcfgNow fn q v)
  | .fctlWrite fn v => (false, s.fctlNow fn v)
  | .mbevtClear port v => (false, s.mbevtNow port v)
  | .registerWrite fn bar off v => (false, s.registerNow fn bar off v)
  | .hostRead fn bar off => (false, s.answerHost fn 0 (s.hostRegister fn bar off).toNat)
  | _ => (false, s)

/-- The host accesses of a port but the first. -/
def dropHeld (port : Nat) : List (Nat × Event) → List (Nat × Event)
  | [] => []
  | x :: r => if x.1 = port then r else x :: dropHeld port r

/-- The first host access of a port that waits is tried again, and the next one follows it at once. -/
def execHostTurn (port : Nat) (s : State) : Out :=
  match s.hostHeld.find? (fun x => x.1 == port) with
  | none => .next s
  | some x =>
    let r := s.hostNow x.2
    if r.1 then .next (r.2.retry (.hostTurn port))
    else
      let s1 := { r.2 with hostHeld := dropHeld port r.2.hostHeld }
      .next (if s1.hostHeld.any (fun y => y.1 == port) then s1.schedWall 0 (.hostTurn port) else s1)

/-! ### Firmware images (R474) -/

/-- Firmware offset of an image slot, and of the supervisor's state block of 64 KiB. -/
def slotBase (slot : Nat) : Nat := 0x800000 + 0x400000 * slot
def stateBlock : Nat := 0x100000

/-- A word of the header of the image in a slot of an I/O die. -/
def State.imageWord (s : State) (io slot off : Nat) : W32 := s.load (fwKey (16 + io) (slotBase slot + off)) 4 32

def State.ioOf (s : State) (io : Nat) : Io := s.io[io]?.getD { port := io, slot := 0, update := none }
def State.setIo (s : State) (io : Nat) (o : Io) : State := { s with io := s.io.setIfInBounds io o }

/-- The bytes that an image's signature covers, and the signature of 7,856 bytes that follows them. -/
def State.imageBytes (s : State) (io slot : Nat) : List Byte :=
  let len := Nat.min (s.imageWord io slot 0x14).toNat 0x400000
  let sig := Nat.min (s.imageWord io slot 0x18).toNat 0x400000
  (List.range len).map (fun i => memGet s.mem (fwKey (16 + io) (slotBase slot + i))) ++
  (List.range 7856).map (fun i => memGet s.mem (fwKey (16 + io) (slotBase slot + sig + i)))

/-- The digest of the image in a slot. -/
def State.imageDigest (s : State) (io slot : Nat) : BitVec 256 := sha256 (s.imageBytes io slot)

/-- A turn of a control core starts at a firmware address. -/
def State.startTurn (s : State) (die core turn : Nat) (priv : Priv) (pc : W64) (x1 x2 : W32) : State :=
  let old := fun (t : Thread) => t.die == die && t.core == 256 + core && t.turn == turn
  let gone := (s.threads.filter old).map (·.tid)
  let t : Thread := { Thread.init with
    tid := s.nextId, part := 0xFFFFFFFF, die := die, core := 256 + core, turn := turn, st := .running, priv := priv, pc := pc
    x := wr (wr (Vector.replicate 32 0) 1 x1) 2 x2 }
  { s with
    nextId := s.nextId + 1, threads := s.threads.filter (fun t => !old t) ++ [t]
    slots := s.slots.filter (fun k => !gone.contains k), traps := s.traps.filter (fun r => !gone.contains r.tid) }

/-- The turns of an I/O die that run its supervisor image: turn 0 of control cores 0 to 3, turn 1 of those, which makes the calls of
plug-ins, and turn 0 of control cores 4 to 15, which run the page directory (R463, R464; log 18, DESIGN CHOICE). -/
def supervisorTurns : List (Nat × Nat) :=
  (List.range 4).flatMap (fun c => [(c, 0), (c, 1)]) ++ (List.range 12).map (fun c => (4 + c, 0))

/-- The supervisor turns of an I/O die start at the ENTRY of a slot (R463, R475). -/
def State.startSupervisor (s : State) (io slot : Nat) : State :=
  let pc : W64 := (s.imageWord io slot 0x0C).setWidth 64
  supervisorTurns.foldl (fun a x =>
    a.startTurn (16 + io) x.1 x.2 .supervisor pc (BitVec.ofNat 32 stateBlock) (BitVec.ofNat 32 (slotBase slot))) s

/-- %fwslot of a slot: the slot, and its image version (R464). -/
def State.fwslotWord (s : State) (io slot : Nat) : W32 :=
  BitVec.ofNat 32 (slot + (s.imageWord io slot 0).toNat % 256 * 256)

/-! ### Requests of the mailbox -/

/-- FWLOAD (R473): bytes into the inactive slot of TGT. While an update of TGT is under way its slot is not inactive, and
the request is answered BUSY. -/
def execFwload (port : Nat) (s : State) : Out :=
  let m := s.mailbox' port
  let io := m.tgt
  let o := s.ioOf io
  let off := natOf (m.bytes 0 4)
  let n := m.mblen.toNat - 4
  if o.update.isSome then .next (s.endRequest port 4 [])
  else if 0x400000 < off + n then .next (s.endRequest port 6 [])
  else
    let s1 := s.store (fwKey (16 + io) (slotBase (1 - o.slot) + off)) n (BitVec.ofNat (8 * n) (natOf (m.bytes 4 n)))
    .next (s1.endRequest port 1 [])

/-- Steps 4 and 5 of R475: the state block is copied, the image is logged, and the new image starts. -/
def State.tryImage (s : State) (io : Nat) (o : Io) (u : Update) : State :=
  let shadow := (List.range 0x10000).map (fun i => memGet s.mem (fwKey (16 + io) (stateBlock + i)))
  let s1 := s.extendLog 4 1 (16 + io) (s.imageWord io u.slot 0) (s.imageDigest io u.slot)
  let s2 := (s1.setIo io { o with update := some { u with phase := 3, shadow := shadow } }).startSupervisor io u.slot
  (s2.unsched (fun e => e == Event.quiesceTimeout io)).schedWall (50000000 * Config.ns) (.updateTimeout io)

/-- FWACT (R475): the image is verified, its ACCEPT compared, and the supervisor asked to quiesce; once it has, the image
runs on trial. A request from the other port while an update is under way is answered BUSY. -/
def execFwact (port : Nat) (s : State) : Out :=
  let io := (s.mailbox' port).tgt
  let o := s.ioOf io
  match o.update with
  | some u =>
    if u.port = port then .next (if u.phase = 2 then s.tryImage io o u else s)
    else .next (if (s.mailbox' port).busy then s.endRequest port 4 [] else s)
  | none =>
    if !(s.mailbox' port).busy then .next s
    else
      let slot := 1 - o.slot
      if s.logFull then .next ((s.extendLog 4 3 (16 + io) 0 (s.imageDigest io slot)).endRequest port 3 [])
      else if !Config.signatureOk (s.imageBytes io slot) then
        .next ((s.extendLog 4 3 (16 + io) (s.imageWord io slot 0) (s.imageDigest io slot)).endRequest port 2 [])
      else if BitVec.ult (s.load (fwKey (16 + io) stateBlock) 4 32 : W32) (s.imageWord io slot 8) then
        .next (s.endRequest port 3 [])
      else
        let s1 := s.setIo io { o with update := some { slot := slot, phase := 1, shadow := [], port := port } }
        .next (s1.schedWall (1000000 * Config.ns) (.quiesceTimeout io))

/-- QUIESCE_TIMEOUT (R475): the supervisor has not quiesced in time, and everything stays as it was. -/
def execQuiesceTimeout (io : Nat) (s : State) : Out :=
  let o := s.ioOf io
  match o.update with
  | some u => if u.phase = 1 then .next ((s.setIo io { o with update := none }).endRequest u.port 4 []) else .next s
  | none => .next s

/-- HEARTBEAT (R475): the first one while an image is on trial commits it. -/
def execHeartbeat (die : Nat) (s : State) : Out :=
  let io := die - 16
  let o := s.ioOf io
  match o.update with
  | none => .next s
  | some u =>
    if die < 16 || u.phase ≠ 3 then .next s
    else
      let s1 := (s.setIo io { o with slot := u.slot, update := none }).onDie die
        (fun d => { d with fwslot := s.fwslotWord io u.slot })
      let s2 := s1.unsched (fun e => e == Event.updateTimeout io)
      .next ((s2.endRequest u.port 1 []).raiseEvent u.port 1)

/-- UPDATE_TIMEOUT (R476): an update is rolled back, when its timer expires or a supervisor turn traps before the commit; the state
block comes back if it has been copied. With no update under way the committed slot is restarted. -/
def execUpdateTimeout (io : Nat) (s : State) : Out :=
  let o := s.ioOf io
  let s0 := s.unsched (fun e => e == Event.updateTimeout io || e == Event.quiesceTimeout io)
  match o.update with
  | none => .next (s0.startSupervisor io o.slot)
  | some u =>
    let s1 := if u.phase = 3 then s0.store (fwKey (16 + io) stateBlock) 0x10000 (BitVec.ofNat (8 * 0x10000) (natOf u.shadow)) else s0
    let s2 := (s1.setIo io { o with update := none }).startSupervisor io o.slot
    let s3 := s2.extendLog 4 1 (16 + io) (s2.imageWord io o.slot 0) (s2.imageDigest io o.slot)
    .next ((s3.endRequest u.port 5 []).raiseEvent u.port 1)

/-- An entry of the log as 64 bytes (R481). -/
def LogEntry.image (e : LogEntry) (i : Nat) : List Byte :=
  bytesOf 4 i ++ bytesOf 1 e.mr ++ bytesOf 1 e.kind ++ bytesOf 2 e.die ++ bytesOf 4 e.version.toNat ++ bytesOf 4 0 ++
  bytesOf 32 e.digest.toNat ++ bytesOf 16 0

/-- The whole log, with the number of each entry. -/
def Kaolin.logBytes (k : Kaolin) : List Byte := k.log.zipIdx.flatMap (fun x => x.1.image x.2)

/-- LOGRD (R473): entries from the first, up to the end of the log. -/
def execLogrd (port : Nat) (s : State) : Out :=
  let m := s.mailbox' port
  let first := natOf (m.bytes 0 4)
  let n := natOf (m.bytes 4 4)
  if n = 0 || 63 < n then .next (s.endRequest port 6 [])
  else .next (s.endRequest port 1 ((((s.kaolin.log.zipIdx).drop first).take n).flatMap (fun x => x.1.image x.2)))

/-- MGMT (R473): the block in DATA, at monitor privilege. A reserved OP completes BADCMD. -/
def execMgmt (port : Nat) (s : State) : Out :=
  let m := s.mailbox' port
  let mid := s.nextId
  let b := BitVec.ofNat 512 (natOf (m.bytes 0 64))
  let c : Mgmt := { mid := mid, src := .mailbox port, block := b, monitor := true, begun := false }
  match mgmtEvent (b.extractLsb' 0 8).toNat mid with
  | some ev => .next ({ s with nextId := s.nextId + 1, mgmt := s.mgmt ++ [c] }.retry ev)
  | none => .next (s.endMgmt c 2 0)

/-! ### Keys and attestation (R478, R484) -/

/-- What the alias key grows from: the device seed and the values of MR0 to MR3 (R478). No core, engine, host or debug path reads
it: only signatures and the public key that the chain carries come from it. -/
def State.aliasSeed (s : State) : List Byte :=
  bytesOf 32 Config.deviceSeed.toNat ++ (List.range 4).flatMap (fun n => bytesOf 32 (rd s.kaolin.mr n).toNat)
/-- What the identity key grows from (R478). -/
def identitySeed : List Byte := bytesOf 32 Config.deviceSeed.toNat

/-- The chain of slot 0 (R484): the certificates of Mornaef's root and of the identity key from the boot flash, and the alias
certificate, which the identity key signs at each boot (R478). -/
def State.chain (s : State) : List Byte :=
  let aliasKey := Config.publicKey s.aliasSeed
  Config.certificates ++ aliasKey ++ Config.sign identitySeed aliasKey

/-- Measurement block n (R484): MRn for 0 to 7, the whole log for 8. -/
def State.measurementBlock (s : State) (n : Nat) : List Byte :=
  if n < 8 then bytesOf 32 (rd s.kaolin.mr n).toNat else if n = 8 then s.kaolin.logBytes else []

/-- The hash and the algorithm that the responder negotiates: SHA-256, and SLH-DSA-SHA2-128s by Mornaef's vendor identifier and
algorithm code (R484). -/
def vendorId : Nat := 0x1F3A
def algorithmCode : Nat := 1

/-- The fields of the response to a request (R484): code and contents. The layout of a message is a standard's, and so is what a
request says (log 14, DESIGN CHOICE). -/
def State.spdmFields (s : State) (code : Nat) (msg : List Byte) : Nat × List (List Byte) :=
  if code = 0xE3 && !Config.spdmOffers msg vendorId algorithmCode then (0x7F, [[Config.negotiationFail]])
  else
    let chain := if Config.spdmSlot msg = 0 then s.chain else []
    let digest := bytesOf 32 (sha256 chain).toNat
    let blocks := (List.range 9).map s.measurementBlock
    let n := Config.spdmBlock msg
    match code with
    | 0xE3 => (code, [bytesOf 2 vendorId, bytesOf 2 algorithmCode])
    | 0x81 => (code, [digest])
    | 0x82 => (code, [chain])
    | 0x83 => (code, [digest, bytesOf 32 (sha256 blocks.flatten).toNat])
    | 0xE0 => (code, if n = 0 then [bytesOf 1 9] else if n = 0xFF then blocks else [s.measurementBlock (n - 1)])
    | _ => (code, [])

/-- The responder answers a request; a response that CHALLENGE or GET_MEASUREMENTS asks for is signed by the alias key (R484). -/
def State.spdmAnswer (s : State) (port code : Nat) : State :=
  if !s.kaolin.ready.getLsbD 37 then s.endRequest port 3 []
  else
    let msg := (s.mailbox' port).message
    let r := s.spdmFields code msg
    let body := msg ++ r.2.flatten
    let signed := if code = 0x83 || code = 0xE0 then [Config.sign s.aliasSeed body] else []
    s.endRequest port 1 ((Config.spdmEncode r.1 (r.2 ++ signed)).take 4096)

/-- GET_VERSION. -/
def execGetVersion (port : Nat) (s : State) : Out := .next (s.spdmAnswer port 0x84)
/-- GET_CAPABILITIES. -/
def execGetCapabilities (port : Nat) (s : State) : Out := .next (s.spdmAnswer port 0xE1)
/-- NEGOTIATE_ALGORITHMS. -/
def execNegotiateAlgorithms (port : Nat) (s : State) : Out := .next (s.spdmAnswer port 0xE3)
/-- GET_DIGESTS. -/
def execGetDigests (port : Nat) (s : State) : Out := .next (s.spdmAnswer port 0x81)
/-- GET_CERTIFICATE. -/
def execGetCertificate (port : Nat) (s : State) : Out := .next (s.spdmAnswer port 0x82)
/-- CHALLENGE. -/
def execChallenge (port : Nat) (s : State) : Out := .next (s.spdmAnswer port 0x83)
/-- GET_MEASUREMENTS. -/
def execGetMeasurements (port : Nat) (s : State) : Out := .next (s.spdmAnswer port 0xE0)

/-- SPDM_UNSUPPORTED_REQUEST: ERROR with code UnsupportedRequest, in the layout of DSP0274 (log 62, PRESUMED). -/
def execSpdmUnsupportedRequest (port : Nat) (s : State) : Out :=
  if !s.kaolin.ready.getLsbD 37 then .next (s.endRequest port 3 [])
  else .next (s.endRequest port 1 [0x13, 0x7F, 0x07, (s.mailbox' port).byte 1])

/-! ### Reset order and readiness (R479-R483) -/

def Kaolin.setReady (k : Kaolin) (i : Nat) : Kaolin := { k with ready := k.ready ||| (1#64 <<< i) }

/-- Readiness of the stacks: a stack is ready with its owner die, and not usable once both its dies are dead (R482). -/
def State.readyStacks (s : State) : State :=
  let k := (List.range 16).foldl (fun (k : Kaolin) st =>
    let k1 := if (s.getDie (s.ownerDie st)).up then k.setReady (16 + st) else k
    if (s.getDie st).dead && (s.getDie ((st + 1) % 16)).dead then { k1 with deadMap := k1.deadMap ||| (1#64 <<< (16 + st)) }
    else k1) s.kaolin
  { s with kaolin := k }

/-- A die leaves reset: its cycles begin, and on a compute die turn 0 of its four control cores starts (R22, R482). Their first
address is no part of the manual: it is 0 (log 18, DESIGN CHOICE). -/
def State.releaseDie (s : State) (d : Nat) : State :=
  let s1 := s.onDie d (fun k => { k with up := true, next := s.wall })
  if 16 ≤ d then s1 else (List.range 4).foldl (fun a c => a.startTurn d c 0 .supervisor 0 0 0) s1

/-- Kaolin loads a die's image into its firmware memory (R479), from address 0 on, up to the image slots of an I/O die (log 18,
DESIGN CHOICE). -/
def State.loadFirmware (s : State) (d : Nat) : State :=
  let bytes := (Config.bootImage d).take (if d < 16 then Config.fwSizeDie else stateBlock)
  s.store (fwKey d 0) bytes.length (BitVec.ofNat (8 * bytes.length) (natOf bytes))

/-- An I/O die runs: its monitor and supervisor turns start from the boot slot, whose image MR4 takes (R481), its Dziaris ports
are trained, and with the first one the responder and the key service answer (R482). The monitor's first address is no part of the
manual: it is 0 (log 18, DESIGN CHOICE). -/
def State.startIo (s : State) (p : Nat) : State :=
  let d := 16 + p
  let slot := (s.ioOf p).slot
  let s0 := s.extendLog 4 1 d (s.imageWord p slot 0) (s.imageDigest p slot)
  let s1 := (s0.releaseDie d).onDie d (fun k => { k with fwslot := s.fwslotWord p slot })
  let s2 := (s1.startTurn d 0 7 .monitor 0 0 0).startSupervisor p slot
  let s3 := (List.range 8).foldl (fun a q => a.portUp (8 * p + q)) s2
  let k := (List.range 8).foldl (fun (k : Kaolin) q => k.setReady (39 + 8 * p + q)) (s3.kaolin.setReady (33 + p))
  { s3 with kaolin := (k.setReady 37).setReady 38 }

/-- Compute die d is dead (R480): stack d goes to port 1 (R14). -/
def State.killDie (s : State) (d : Nat) : State :=
  let s1 := s.onDie d (fun k => { k with dead := true })
  { s1 with stackPort := s1.stackPort ||| (1#16 <<< d), kaolin := { s1.kaolin with deadMap := s1.kaolin.deadMap ||| (1#64 <<< d) } }

/-- By its first bring-up the Kaolin die runs its firmware (KAO of R482), which MR0 holds (R481): the version of that image is a
free value (log 16, DEDUCED). -/
def State.kaolinRuns (s : State) : State :=
  if s.kaolin.nextDie = 0 then
    let s1 := s.extendLog 0 1 18 (Config.freeBits 32 s.free) (sha256 (Config.bootImage 18))
    { s1 with free := s.free + 1, kaolin := s1.kaolin.setReady 32 }
  else s

/-- The die that the boot brings up next (R479). -/
def Kaolin.bootDie (k : Kaolin) : Nat := if k.nextDie < 2 then 16 + k.nextDie else k.nextDie - 2

/-- DIE_BRINGUP (R479, R480): the image of the next die in order, whose digest is measured, is loaded, and the die leaves reset or
is dead. The link routers leave reset with the I/O dies; `router` has the bit of each one that trains. -/
def execDieBringup (verified : Nat) (tested : Nat) (router : Nat) (version : BitVec 32) (digest : BitVec 256) (s : State) : Out :=
  let k := s.kaolin
  let n := k.nextDie
  if k.tripped || 18 ≤ n then .next s
  else
    let d := k.bootDie
    let good := verified ≠ 0 && tested ≠ 0
    let mr := if n < 2 then n + 1 else 3
    let s1 := s.kaolinRuns.extendLog mr (if verified = 0 then 3 else 1) d version digest
    let s2 := { s1 with kaolin := { s1.kaolin with nextDie := n + 1 } }
    let loaded := if verified ≠ 0 then s2.loadFirmware d else s2
    if n < 2 then
      let s3 := if good then
          (List.range 16).foldl (fun a e => a.onDie e (fun x => { x with routerOk := x.routerOk || router.testBit e })) (loaded.startIo n)
        else loaded.onDie d (fun x => { x with dead := true })
      -- both I/O dies dead: nothing else leaves reset
      let none' := n = 1 && !good && (s2.getDie 16).dead
      .next (if none' then { s3 with kaolin := { s3.kaolin with nextDie := 18 } } else s3)
    else if good then
      let s3 := loaded.releaseDie d
      .next { s3 with kaolin := s3.kaolin.setReady d }.readyStacks
    else .next (loaded.killDie d).readyStacks

/-- PCIE_LINK_UP (R482). -/
def execPcieLinkUp (port : Nat) (s : State) : Out :=
  if (s.getDie (16 + port)).up && port < 2 then .next { s with kaolin := s.kaolin.setReady (35 + port) } else .next s

/-- The package back in reset: everything but what the memories and the boot slots hold is as at power-on (R475, R479). -/
def State.inReset (s : State) : State :=
  { State.reset with
    mem := s.mem, mem0 := s.mem, ecc := s.ecc, lineKeys := s.lineKeys, tick := s.tick, wall := s.wall, free := s.free, nextId := s.nextId
    archive := s.archive, io := s.io.map (fun o => { o with update := none }) }

/-- PACKAGE_RESET (R479): a tripped package stays in reset until power is cycled (R488; log 50, DESIGN CHOICE). -/
def execPackageReset (s : State) : Out := if s.kaolin.tripped then .next s else .next s.inReset

/-! ### Power, cooling and corrected errors (R486, R488) -/

/-- THERMAL_STEPDOWN: one step of R52. -/
def execThermalStepdown (die : Nat) (s : State) : Out := execPowerStep die ((s.getDie die).freq - 1) s

/-- THERMAL_TRIP: every die stops, the state of the partitions is lost, and both mailboxes report it, which the host can still read;
from then on the package takes no request. -/
def execThermalTrip (s : State) : Out :=
  let s1 : State := { s.inReset with
    mailbox := s.mailbox.map (fun m => { m with busy := false }), hostReplies := s.hostReplies
    kaolin := { s.kaolin with tripped := true }, stackPort := s.stackPort }
  .next ((s1.raiseEvent 0 0).raiseEvent 1 0)

/-- A die corrects an error (R486): it changes nothing but the count of its class (log 52, DESIGN CHOICE). -/
def execCorrectedError (die cls : Nat) (s : State) : Out :=
  .next (s.onDie die (fun k => { k with corrected := k.corrected.setIfInBounds cls (k.corrected[cls]?.getD 0 + 1) }))

end Sys2Proof.Machine
end

