-- ==== Sys2Proof/Machine/Scalar.lean ====
section
/-! DEFINITION. Integer arithmetic, conditions and pull-copies of the S slot (R178-R185, R199-R201). -/

namespace Sys2Proof.Machine

/-- Bits [63:32] of the signed and unsigned products (R178). -/
def mulHigh (a b : W32) : W32 := (a.signExtend 64 * b.signExtend 64).extractLsb' 32 32
def mulHighB (a b : W32) : W32 := (a.setWidth 64 * b.setWidth 64).extractLsb' 32 32
/-- Signed and unsigned division (R179). -/
def divS (a b : W32) : W32 := if b = 0 then BitVec.allOnes 32 else BitVec.sdiv a b
def remS (a b : W32) : W32 := if b = 0 then a else BitVec.srem a b
def divU (a b : W32) : W32 := if b = 0 then BitVec.allOnes 32 else a / b
def remU (a b : W32) : W32 := if b = 0 then a else a % b
/-- Shifts by b[4:0] (R178). -/
def shlW (a b : W32) : W32 := a <<< (b.extractLsb' 0 5).toNat
def shrW (a b : W32) : W32 := a >>> (b.extractLsb' 0 5).toNat
def sarW (a b : W32) : W32 := a.sshiftRight (b.extractLsb' 0 5).toNat
def rolW (a b : W32) : W32 := a.rotateLeft (b.extractLsb' 0 5).toNat
/-- Minimum and maximum (R178). -/
def minS (a b : W32) : W32 := if BitVec.slt b a then b else a
def maxS (a b : W32) : W32 := if BitVec.slt a b then b else a
def minU (a b : W32) : W32 := if BitVec.ult b a then b else a
def maxU (a b : W32) : W32 := if BitVec.ult a b then b else a

/-- A binary operation written to xd for the next bundle (R178, R83). -/
def State.alu (s : State) (d : BitVec 5) (v : W32) : Out := .next (s.wx d.toNat v)
/-- A division: a long operation with a bound of 3 rotations (R179). -/
def State.aluLong (s : State) (d : BitVec 5) (v : W32) : Out :=
  .next (s.issueLong .x d.toNat 3 (v.setWidth 2048) 0)

/-- NOP (R201). -/
def execNop (s : State) : Out := .next s

def execAdd (d a b : BitVec 5) (s : State) : Out := s.alu d (s.rx a.toNat + s.rx b.toNat)
def execSub (d a b : BitVec 5) (s : State) : Out := s.alu d (s.rx a.toNat - s.rx b.toNat)
def execMul (d a b : BitVec 5) (s : State) : Out := s.alu d (s.rx a.toNat * s.rx b.toNat)
def execMulh (d a b : BitVec 5) (s : State) : Out := s.alu d (mulHigh (s.rx a.toNat) (s.rx b.toNat))
def execMulhb (d a b : BitVec 5) (s : State) : Out := s.alu d (mulHighB (s.rx a.toNat) (s.rx b.toNat))
def execDiv (d a b : BitVec 5) (s : State) : Out := s.aluLong d (divS (s.rx a.toNat) (s.rx b.toNat))
def execDivb (d a b : BitVec 5) (s : State) : Out := s.aluLong d (divU (s.rx a.toNat) (s.rx b.toNat))
def execRem (d a b : BitVec 5) (s : State) : Out := s.aluLong d (remS (s.rx a.toNat) (s.rx b.toNat))
def execRemb (d a b : BitVec 5) (s : State) : Out := s.aluLong d (remU (s.rx a.toNat) (s.rx b.toNat))
def execAnd (d a b : BitVec 5) (s : State) : Out := s.alu d (s.rx a.toNat &&& s.rx b.toNat)
def execOr (d a b : BitVec 5) (s : State) : Out := s.alu d (s.rx a.toNat ||| s.rx b.toNat)
def execXor (d a b : BitVec 5) (s : State) : Out := s.alu d (s.rx a.toNat ^^^ s.rx b.toNat)
def execAndn (d a b : BitVec 5) (s : State) : Out := s.alu d (s.rx a.toNat &&& ~~~s.rx b.toNat)
def execShl (d a b : BitVec 5) (s : State) : Out := s.alu d (shlW (s.rx a.toNat) (s.rx b.toNat))
def execShr (d a b : BitVec 5) (s : State) : Out := s.alu d (shrW (s.rx a.toNat) (s.rx b.toNat))
def execSar (d a b : BitVec 5) (s : State) : Out := s.alu d (sarW (s.rx a.toNat) (s.rx b.toNat))
def execRol (d a b : BitVec 5) (s : State) : Out := s.alu d (rolW (s.rx a.toNat) (s.rx b.toNat))
def execMin (d a b : BitVec 5) (s : State) : Out := s.alu d (minS (s.rx a.toNat) (s.rx b.toNat))
def execMax (d a b : BitVec 5) (s : State) : Out := s.alu d (maxS (s.rx a.toNat) (s.rx b.toNat))
def execMinb (d a b : BitVec 5) (s : State) : Out := s.alu d (minU (s.rx a.toNat) (s.rx b.toNat))
def execMaxb (d a b : BitVec 5) (s : State) : Out := s.alu d (maxU (s.rx a.toNat) (s.rx b.toNat))

def execAddImm (d a : BitVec 5) (i : BitVec 11) (s : State) : Out := s.alu d (s.rx a.toNat + simm11 i)
def execSubImm (d a : BitVec 5) (i : BitVec 11) (s : State) : Out := s.alu d (s.rx a.toNat - simm11 i)
def execMulImm (d a : BitVec 5) (i : BitVec 11) (s : State) : Out := s.alu d (s.rx a.toNat * simm11 i)
def execMulhImm (d a : BitVec 5) (i : BitVec 11) (s : State) : Out := s.alu d (mulHigh (s.rx a.toNat) (simm11 i))
def execMulhbImm (d a : BitVec 5) (i : BitVec 11) (s : State) : Out := s.alu d (mulHighB (s.rx a.toNat) (simm11 i))
def execDivImm (d a : BitVec 5) (i : BitVec 11) (s : State) : Out := s.aluLong d (divS (s.rx a.toNat) (simm11 i))
def execDivbImm (d a : BitVec 5) (i : BitVec 11) (s : State) : Out := s.aluLong d (divU (s.rx a.toNat) (simm11 i))
def execRemImm (d a : BitVec 5) (i : BitVec 11) (s : State) : Out := s.aluLong d (remS (s.rx a.toNat) (simm11 i))
def execRembImm (d a : BitVec 5) (i : BitVec 11) (s : State) : Out := s.aluLong d (remU (s.rx a.toNat) (simm11 i))
def execAndImm (d a : BitVec 5) (i : BitVec 11) (s : State) : Out := s.alu d (s.rx a.toNat &&& simm11 i)
def execOrImm (d a : BitVec 5) (i : BitVec 11) (s : State) : Out := s.alu d (s.rx a.toNat ||| simm11 i)
def execXorImm (d a : BitVec 5) (i : BitVec 11) (s : State) : Out := s.alu d (s.rx a.toNat ^^^ simm11 i)
def execAndnImm (d a : BitVec 5) (i : BitVec 11) (s : State) : Out := s.alu d (s.rx a.toNat &&& ~~~simm11 i)
def execShlImm (d a : BitVec 5) (i : BitVec 5) (s : State) : Out := s.alu d (shlW (s.rx a.toNat) (i.setWidth 32))
def execShrImm (d a : BitVec 5) (i : BitVec 5) (s : State) : Out := s.alu d (shrW (s.rx a.toNat) (i.setWidth 32))
def execSarImm (d a : BitVec 5) (i : BitVec 5) (s : State) : Out := s.alu d (sarW (s.rx a.toNat) (i.setWidth 32))
def execRolImm (d a : BitVec 5) (i : BitVec 5) (s : State) : Out := s.alu d (rolW (s.rx a.toNat) (i.setWidth 32))
def execMinImm (d a : BitVec 5) (i : BitVec 11) (s : State) : Out := s.alu d (minS (s.rx a.toNat) (simm11 i))
def execMaxImm (d a : BitVec 5) (i : BitVec 11) (s : State) : Out := s.alu d (maxS (s.rx a.toNat) (simm11 i))
def execMinbImm (d a : BitVec 5) (i : BitVec 11) (s : State) : Out := s.alu d (minU (s.rx a.toNat) (simm11 i))
def execMaxbImm (d a : BitVec 5) (i : BitVec 11) (s : State) : Out := s.alu d (maxU (s.rx a.toNat) (simm11 i))

/-- Zero bits above the highest set bit among the low n (R180). -/
def clzGo (v : W32) : Nat → Nat
  | 0 => 0
  | n + 1 => if v.getLsbD n then 0 else clzGo v n + 1
/-- Zero bits below the lowest set bit from bit 32 − n on (R180). -/
def ctzGo (v : W32) : Nat → Nat
  | 0 => 0
  | n + 1 => if v.getLsbD (31 - n) then 0 else ctzGo v n + 1
/-- Set bits among the low n (R180, R253). -/
def popGo {w : Nat} (v : BitVec w) : Nat → Nat
  | 0 => 0
  | n + 1 => popGo v n + (if v.getLsbD n then 1 else 0)

def execClz (d a : BitVec 5) (s : State) : Out := s.alu d (BitVec.ofNat 32 (clzGo (s.rx a.toNat) 32))
def execCtz (d a : BitVec 5) (s : State) : Out := s.alu d (BitVec.ofNat 32 (ctzGo (s.rx a.toNat) 32))
def execPopc (d a : BitVec 5) (s : State) : Out := s.alu d (BitVec.ofNat 32 (popGo (s.rx a.toNat) 32))
def execBrev (d a : BitVec 5) (s : State) : Out := s.alu d ((s.rx a.toNat).reverse)

/-- The low n bits set. -/
def lowMask (n : Nat) : W32 := BitVec.ofNat 32 (2 ^ n - 1)

/-- SEXT of the low w + 1 bits (R181). -/
def execSext (d a w : BitVec 5) (s : State) : Out :=
  let n := w.toNat + 1
  s.alu d (((s.rx a.toNat) <<< (32 - n)).sshiftRight (32 - n))
/-- EXT (R181). -/
def execExt (d a b w : BitVec 5) (s : State) : Out :=
  let p := ((s.rx b.toNat).extractLsb' 0 5).toNat
  s.alu d (((s.rx a.toNat) >>> p) &&& lowMask (w.toNat + 1))
/-- INS (R181): xd is a source. -/
def execIns (d a b w : BitVec 5) (s : State) : Out :=
  let p := ((s.rx b.toNat).extractLsb' 0 5).toNat
  let m := lowMask (w.toNat + 1) <<< p
  s.alu d ((s.rx d.toNat &&& ~~~m) ||| (((s.rx a.toNat) <<< p) &&& m))
/-- SEL (R182). -/
def execSel (d a b : BitVec 5) (n : BitVec 1) (c : BitVec 4) (s : State) : Out :=
  s.alu d (if xor (s.rc c.toNat) (n == 1) then s.rx a.toNat else s.rx b.toNat)
/-- LI (R183). -/
def execLi (d : BitVec 5) (i : BitVec 16) (xx : Option (BitVec 26)) (s : State) : Out := s.alu d (liImm i xx)
/-- CMP (R184). -/
def execCmp (c k : BitVec 3) (a b i : BitVec 5) (s : State) : Out :=
  .next (s.wc c.toNat (cmpOutcome k (s.rx a.toNat) (s.rx b.toNat + i.signExtend 32)))
/-- CLOG (R185). -/
def execClog (d o : BitVec 3) (n : BitVec 1) (a : BitVec 4) (m : BitVec 1) (c : BitVec 4) (s : State) : Out :=
  .next (s.wc d.toNat (clogOutcome o (xor (s.rc a.toNat) (n == 1)) (xor (s.rc c.toNat) (m == 1))))

/-- One half of a 64-bit register. -/
def half (v : W64) (h : BitVec 1) : W32 := if h = 1 then v.extractLsb' 32 32 else v.extractLsb' 0 32

/-- XFA (R199). -/
def execXfa (d : BitVec 5) (a : BitVec 4) (h : BitVec 1) (s : State) : Out := s.alu d (half (s.ra a.toNat) h)
/-- XFE (R199). -/
def execXfe (d : BitVec 5) (e : BitVec 3) (h : BitVec 1) (s : State) : Out := s.alu d (half (s.re e.toNat) h)

/-- The element that XFV reads from a lane (R200): kinds 0 w, 1 h, 2 hz, 3 b, 4 bz. -/
def xfvElem (k : BitVec 3) (v : VReg) (l e : Nat) : W32 :=
  match k.toNat with
  | 0 => elem 32 v l
  | 1 => (elem 16 v (2 * l + e)).signExtend 32
  | 2 => (elem 16 v (2 * l + e)).setWidth 32
  | 3 => (elem 8 v (4 * l + e)).signExtend 32
  | _ => (elem 8 v (4 * l + e)).setWidth 32
/-- XFV (R200): long, 2 rotations. A control core has no v-registers to read: the file is all zero there. -/
def execXfv (d : BitVec 5) (v : BitVec 4) (k : BitVec 3) (e : BitVec 2) (l : BitVec 6) (s : State) : Out :=
  .next (s.issueLong .x d.toNat 2 ((xfvElem k (s.rv v.toNat) l.toNat e.toNat).setWidth 2048) 0)

end Sys2Proof.Machine
end

