-- ==== Sys2Proof/Machine/Vector.lean ====
section
/-! DEFINITION. The V slot (R226-R257): elementwise arithmetic, moves, conversions, reductions, masks and VMM. -/

namespace Sys2Proof.Machine

/-! ### Writing a vector register lane by lane (R228, R229) -/

/-- The image whose lanes are the words of a list, lane 0 first, with the OR of their flags. -/
def packLanes (rs : List (W32 × Flags)) : VReg × Flags :=
  rs.foldr (fun r a => ((a.1 <<< 32) ||| r.1.setWidth 2048, a.2 ||| r.2)) (0, 0)

/-- The lanes of a result under a mask: an inactive lane keeps its old word and raises nothing. -/
def maskedLanes (k : W64) (old : VReg) (f : Nat → W32 × Flags) : VReg × Flags :=
  packLanes ((List.range 64).map (fun l => if k.getLsbD l then f l else (elem 32 old l, 0)))

/-- A lane from its elements of width w. -/
def laneOf (w : Nat) (g : Nat → Nat × Flags) : W32 × Flags :=
  (List.range (32 / w)).foldl (fun a e => (a.1 ||| (BitVec.ofNat 32 ((g e).1 % 2 ^ w) <<< (w * e)), a.2 ||| (g e).2)) (0, 0)

/-- Element e of lane l as a pattern, of width w. -/
def el (w : Nat) (v : VReg) (l e : Nat) : Nat := (elem w v (32 / w * l + e)).toNat
/-- Element with a flat index. -/
def elFlat (w : Nat) (v : VReg) (i : Nat) : Nat := (elem w v i).toNat

/-- A V syllable that writes vd for the next bundle, element by element. -/
def State.vmap (s : State) (d : Nat) (k : BitVec 3) (w : Nat) (g : Nat → Nat → Nat × Flags) : State :=
  let r := maskedLanes (s.rk k.toNat) (s.rv d) (fun l => laneOf w (g l))
  (s.wv d r.1).orFlags r.2
/-- A long V syllable with a bound of n rotations (R231). -/
def State.vmapLong (s : State) (d : Nat) (k : BitVec 3) (w n : Nat) (g : Nat → Nat → Nat × Flags) : State :=
  let r := maskedLanes (s.rk k.toNat) (s.rv d) (fun l => laneOf w (g l))
  s.issueLong .v d n r.1 r.2
/-- A V syllable that writes whole lanes. -/
def State.vlanes (s : State) (d : Nat) (k : W64) (f : Nat → W32 × Flags) : State :=
  let r := maskedLanes k (s.rv d) f
  (s.wv d r.1).orFlags r.2

/-- The operand formats of a syllable. -/
def fmtF (y : BitVec 3) : Fmt := Fmt.ofCode y false
def fmtI (y : BitVec 3) (u : BitVec 1) : Fmt := Fmt.ofCode y (u == 1)

/-! ### Floating arithmetic (R233-R236) -/

/-- A rounding syllable on two sources and the old destination: y gives the exact value. -/
def State.vfArith (s : State) (d a b k : Nat) (y : BitVec 3) (op : Nat → FNum → FNum → FNum → FNum × Flags) : State :=
  let f := fmtF y
  let r := s.rndCtx
  let dec := fun v l e => fDecode f (el f.width v l e)
  (s.vmap d (BitVec.ofNat 3 k) f.width (fun l e =>
    let x := op r.mode (dec (s.rv a) l e) (dec (s.rv b) l e) (dec (s.rv d) l e)
    let z := roundTo f r.mode x.1 (r.sr l e)
    (z.1, x.2 ||| z.2))).takeCount

def execVfadd (d a b : BitVec 4) (k y : BitVec 3) (s : State) : Out :=
  s.onCompute 2 (fun s => s.vfArith d.toNat a.toNat b.toNat k.toNat y (fun m p q _ => p.add m q))
def execVfsub (d a b : BitVec 4) (k y : BitVec 3) (s : State) : Out :=
  s.onCompute 2 (fun s => s.vfArith d.toNat a.toNat b.toNat k.toNat y (fun m p q _ => p.add m q.negate))
def execVfmul (d a b : BitVec 4) (k y : BitVec 3) (s : State) : Out :=
  s.onCompute 2 (fun s => s.vfArith d.toNat a.toNat b.toNat k.toNat y (fun _ p q _ => p.mul q))
def execVfma (d a b : BitVec 4) (k y : BitVec 3) (s : State) : Out :=
  s.onCompute 2 (fun s => s.vfArith d.toNat a.toNat b.toNat k.toNat y (fun m p q c => FNum.fma m p q c))
def execVfnma (d a b : BitVec 4) (k y : BitVec 3) (s : State) : Out :=
  s.onCompute 2 (fun s => s.vfArith d.toNat a.toNat b.toNat k.toNat y (fun m p q c => FNum.fma m p.negate q c))

/-- minimumNumber and maximumNumber of each pair (R234). -/
def State.vfMinMax (s : State) (big : Bool) (d a b : BitVec 4) (k y : BitVec 3) : State :=
  let f := fmtF y
  s.vmap d.toNat k f.width (fun l e => minMaxNum f big (el f.width (s.rv a.toNat) l e) (el f.width (s.rv b.toNat) l e))

def execVfmin (d a b : BitVec 4) (k y : BitVec 3) (s : State) : Out :=
  s.onCompute 2 (fun s => s.vfMinMax false d a b k y)
def execVfmax (d a b : BitVec 4) (k y : BitVec 3) (s : State) : Out :=
  s.onCompute 2 (fun s => s.vfMinMax true d a b k y)

/-- A bit operation on the sign (R105, R234): the new sign from the old one and that of the second source. -/
def State.vfSign (s : State) (d a b : BitVec 4) (k y : BitVec 3) (g : Bool → Bool → Bool) : State :=
  let f := fmtF y
  s.vmap d.toNat k f.width (fun l e =>
    let x := el f.width (s.rv a.toNat) l e
    let z := el f.width (s.rv b.toNat) l e
    (x % f.signBit + (if g (f.signBit ≤ x) (f.signBit ≤ z) then f.signBit else 0), 0))

def execVfabs (d a : BitVec 4) (k y : BitVec 3) (s : State) : Out :=
  s.onCompute 2 (fun s => s.vfSign d a a k y (fun _ _ => false))
def execVfneg (d a : BitVec 4) (k y : BitVec 3) (s : State) : Out :=
  s.onCompute 2 (fun s => s.vfSign d a a k y (fun p _ => !p))
def execVfcps (d a b : BitVec 4) (k y : BitVec 3) (s : State) : Out :=
  s.onCompute 2 (fun s => s.vfSign d a b k y (fun _ q => q))

/-- A compare of lanes into a mask (R236): 0 for an inactive lane. -/
def State.vcompare (s : State) (d k : BitVec 3) (f : Nat → Bool × Flags) : State :=
  let m := s.rk k.toNat
  let act := (List.range 64).filter (fun l => m.getLsbD l)
  let rs := act.map (fun l => (l, f l))
  let v := rs.foldl (fun (v : W64) r => if r.2.1 then v ||| (1#64 <<< r.1) else v) 0
  (s.wk d.toNat v).orFlags (rs.foldl (fun a r => a ||| r.2.2) 0)

def execVfcmp (d : BitVec 3) (a b : BitVec 4) (k : BitVec 3) (n : BitVec 2) (s : State) : Out :=
  s.onCompute 2 (fun s => s.vcompare d k (fun l => cmpNum .f32 n.toNat (el 32 (s.rv a.toNat) l 0) (el 32 (s.rv b.toNat) l 0)))

/-- The correctly rounded functions of one operand (R235), with their bounds. -/
def State.vfFun (s : State) (n : Nat) (d a : BitVec 4) (k y : BitVec 3) (g : Fmt → Nat → FNum → Nat → Nat × Flags) :
    State :=
  let f := fmtF y
  let r := s.rndCtx
  (s.vmapLong d.toNat k f.width n (fun l e => g f r.mode (fDecode f (el f.width (s.rv a.toNat) l e)) (r.sr l e))).takeCount

def execVfrcp (d a : BitVec 4) (k y : BitVec 3) (s : State) : Out :=
  s.onCompute 2 (fun s => s.vfFun 2 d a k y (fun f m x sr => divNum f m (.fin false 1 0) x sr))
def execVfrsq (d a : BitVec 4) (k y : BitVec 3) (s : State) : Out :=
  s.onCompute 2 (fun s => s.vfFun 2 d a k y rsqrtNum)
def execVfsqrt (d a : BitVec 4) (k y : BitVec 3) (s : State) : Out :=
  s.onCompute 2 (fun s => s.vfFun 3 d a k y sqrtNum)
def execVfexp2 (d a : BitVec 4) (k y : BitVec 3) (s : State) : Out :=
  s.onCompute 2 (fun s => s.vfFun 2 d a k y exp2Num)
def execVflog2 (d a : BitVec 4) (k y : BitVec 3) (s : State) : Out :=
  s.onCompute 2 (fun s => s.vfFun 2 d a k y log2Num)

/-- VFDIV (R233): a long operation with a bound of 3. -/
def execVfdiv (d a b : BitVec 4) (k y : BitVec 3) (s : State) : Out :=
  s.onCompute 2 (fun s =>
    let f := fmtF y
    let r := s.rndCtx
    (s.vmapLong d.toNat k f.width 3 (fun l e =>
      divNum f r.mode (fDecode f (el f.width (s.rv a.toNat) l e)) (fDecode f (el f.width (s.rv b.toNat) l e)) (r.sr l e))).takeCount)

/-! ### Integer arithmetic (R237-R239) -/

/-- An element operation on exact integers; saturated or modulo 2^w. -/
def State.viArith (s : State) (d a b : BitVec 4) (k : BitVec 3) (f : Fmt) (sat : Bool) (op : Int → Int → Int) : State :=
  s.vmap d.toNat k f.width (fun l e =>
    let v := op (intOf f (el f.width (s.rv a.toNat) l e)) (intOf f (el f.width (s.rv b.toNat) l e))
    if sat then saturate f v else (intBits f.width v, 0))

def execVadd (d a b : BitVec 4) (k y : BitVec 3) (q u : BitVec 1) (s : State) : Out :=
  s.onCompute 2 (fun s => s.viArith d a b k (fmtI y u) (q == 1) (· + ·))
def execVsub (d a b : BitVec 4) (k y : BitVec 3) (q u : BitVec 1) (s : State) : Out :=
  s.onCompute 2 (fun s => s.viArith d a b k (fmtI y u) (q == 1) (· - ·))
def execVmul (d a b : BitVec 4) (k y : BitVec 3) (q u : BitVec 1) (s : State) : Out :=
  s.onCompute 2 (fun s => s.viArith d a b k (fmtI y u) (q == 1) (· * ·))
def execVmulh (d a b : BitVec 4) (k y : BitVec 3) (u : BitVec 1) (s : State) : Out :=
  s.onCompute 2 (fun s => s.viArith d a b k (fmtI y u) false (fun p q => p * q / 2 ^ (fmtI y u).width))
def execVmin (d a b : BitVec 4) (k y : BitVec 3) (u : BitVec 1) (s : State) : Out :=
  s.onCompute 2 (fun s => s.viArith d a b k (fmtI y u) false (fun p q => if q < p then q else p))
def execVmax (d a b : BitVec 4) (k y : BitVec 3) (u : BitVec 1) (s : State) : Out :=
  s.onCompute 2 (fun s => s.viArith d a b k (fmtI y u) false (fun p q => if p < q then q else p))

/-- VMADW (R239): the widening dot-multiply-add. -/
def execVmadw (d a b : BitVec 4) (k y : BitVec 3) (q u : BitVec 1) (s : State) : Out :=
  s.onCompute 2 (fun s =>
    let f := fmtI y u
    let g : Fmt := if u = 1 then .b32 else .i32
    s.vlanes d.toNat (s.rk k.toNat) (fun l =>
      let acc := (List.range (32 / f.width)).foldl (fun (c : Int) e =>
          c + intOf f (el f.width (s.rv a.toNat) l e) * intOf f (el f.width (s.rv b.toNat) l e))
        (intOf g (el 32 (s.rv d.toNat) l 0))
      let r := if q = 1 then saturate g acc else (intBits 32 acc, 0)
      (BitVec.ofNat 32 r.1, r.2)))

/-- A bitwise operation on lanes (R237). -/
def State.vbits (s : State) (d a b : BitVec 4) (k : BitVec 3) (op : W32 → W32 → W32) : State :=
  s.vlanes d.toNat (s.rk k.toNat) (fun l => (op (elem 32 (s.rv a.toNat) l) (elem 32 (s.rv b.toNat) l), 0))

def execVand (d a b : BitVec 4) (k : BitVec 3) (s : State) : Out :=
  s.onCompute 2 (fun s => s.vbits d a b k (· &&& ·))
def execVor (d a b : BitVec 4) (k : BitVec 3) (s : State) : Out :=
  s.onCompute 2 (fun s => s.vbits d a b k (· ||| ·))
def execVxor (d a b : BitVec 4) (k : BitVec 3) (s : State) : Out :=
  s.onCompute 2 (fun s => s.vbits d a b k (· ^^^ ·))

/-- A shift of an element pattern by c (R237): 0 left, 1 right, 2 right with the sign. -/
def shiftElem (w kind x c : Nat) : Nat :=
  match kind with
  | 0 => if w ≤ c then 0 else x * 2 ^ c % 2 ^ w
  | 1 => if w ≤ c then 0 else x / 2 ^ c
  | _ =>
    let v : Int := if x.testBit (w - 1) then (x : Int) - 2 ^ w else x
    intBits w (v / 2 ^ (Nat.min c w))

/-- Shifts with counts per element, and by one count. -/
def State.vshift (s : State) (kind : Nat) (d a : BitVec 4) (k y : BitVec 3) (c : Nat → Nat → Nat) : State :=
  let w := (fmtF y).width
  s.vmap d.toNat k w (fun l e => (shiftElem w kind (el w (s.rv a.toNat) l e) (c l e), 0))

def execVshl (d a b : BitVec 4) (k y : BitVec 3) (s : State) : Out :=
  s.onCompute 2 (fun s => s.vshift 0 d a k y (fun l e => el (fmtF y).width (s.rv b.toNat) l e))
def execVshr (d a b : BitVec 4) (k y : BitVec 3) (s : State) : Out :=
  s.onCompute 2 (fun s => s.vshift 1 d a k y (fun l e => el (fmtF y).width (s.rv b.toNat) l e))
def execVsar (d a b : BitVec 4) (k y : BitVec 3) (s : State) : Out :=
  s.onCompute 2 (fun s => s.vshift 2 d a k y (fun l e => el (fmtF y).width (s.rv b.toNat) l e))
def execVshlImm (d a : BitVec 4) (y k : BitVec 3) (c : BitVec 5) (s : State) : Out :=
  s.onCompute 2 (fun s => s.vshift 0 d a k y (fun _ _ => c.toNat))
def execVshrImm (d a : BitVec 4) (y k : BitVec 3) (c : BitVec 5) (s : State) : Out :=
  s.onCompute 2 (fun s => s.vshift 1 d a k y (fun _ _ => c.toNat))
def execVsarImm (d a : BitVec 4) (y k : BitVec 3) (c : BitVec 5) (s : State) : Out :=
  s.onCompute 2 (fun s => s.vshift 2 d a k y (fun _ _ => c.toNat))

def execVcmp (d : BitVec 3) (a b : BitVec 4) (k : BitVec 3) (n : BitVec 2) (u : BitVec 1) (s : State) : Out :=
  s.onCompute 2 (fun s => s.vcompare d k (fun l =>
    let f : Fmt := if u = 1 then .b32 else .i32
    let p := intOf f (el 32 (s.rv a.toNat) l 0)
    let q := intOf f (el 32 (s.rv b.toNat) l 0)
    (match n.toNat with
     | 0 => p == q
     | 1 => p != q
     | 2 => decide (p < q)
     | _ => decide (p ≤ q), 0)))

def execVabs (d a : BitVec 4) (k y : BitVec 3) (q : BitVec 1) (s : State) : Out :=
  s.onCompute 2 (fun s => s.viArith d a a k (fmtF y) (q == 1) (fun p _ => (p.natAbs : Int)))

/-- The type of half the width (R238). -/
def halfOf : Fmt → Fmt
  | .i32 => .i16 | .b32 => .b16 | .i16 => .i8 | _ => .b8

/-- VSAT (R238). -/
def execVsat (d a b : BitVec 4) (k y : BitVec 3) (r u : BitVec 1) (s : State) : Out :=
  s.onCompute 2 (fun s =>
    let f := fmtI y u
    let n := b.toNat
    s.vmap d.toNat k f.width (fun l e =>
      let x := intOf f (el f.width (s.rv a.toNat) l e)
      let x := if r = 1 && 0 < n then x + 2 ^ (n - 1) else x
      let z := saturate (halfOf f) (x / 2 ^ n)
      (intBits f.width (intOf (halfOf f) z.1), z.2)))

/-! ### Moves and permutes (R240-R244) -/

def execVmov (d a : BitVec 4) (k : BitVec 3) (s : State) : Out :=
  s.onCompute 2 (fun s => s.vlanes d.toNat (s.rk k.toNat) (fun l => (elem 32 (s.rv a.toNat) l, 0)))
def execVmovImm (d : BitVec 4) (i : BitVec 1) (n : BitVec 12) (s : State) : Out :=
  s.onCompute 2 (fun s => s.vlanes d.toNat (BitVec.allOnes 64) (fun l =>
    (n.signExtend 32 + (if i = 1 then BitVec.ofNat 32 l else 0), 0)))

/-- VFX (R241). -/
def execVfx (d : BitVec 4) (x : BitVec 5) (n : BitVec 2) (l : BitVec 6) (s : State) : Out :=
  s.onCompute 2 (fun s =>
    let v := s.rx x.toNat
    match n.toNat with
    | 0 => s.vlanes d.toNat (BitVec.allOnes 64) (fun _ => (v, 0))
    | 1 => s.vlanes d.toNat (1#64 <<< l.toNat) (fun _ => (v, 0))
    | 2 => s.vlanes d.toNat (BitVec.allOnes 64) (fun _ => (v.extractLsb' 0 16 ++ v.extractLsb' 0 16, 0))
    | _ => s.vlanes d.toNat (BitVec.allOnes 64) (fun _ =>
        (v.extractLsb' 0 8 ++ v.extractLsb' 0 8 ++ v.extractLsb' 0 8 ++ v.extractLsb' 0 8, 0)))

/-- An element as an engine writes it (R103): bits [7:6] of a T6 byte are zero. -/
def t6Clean (y : BitVec 3) (v : Nat) : Nat := if y = 7 then v % 64 else v

/-- VPERM (R243). -/
def execVperm (d a b : BitVec 4) (k y : BitVec 3) (s : State) : Out :=
  s.onCompute 2 (fun s =>
    let w := (fmtF y).width
    let n := 64 * (32 / w)
    s.vmap d.toNat k w (fun l e => (t6Clean y (elFlat w (s.rv a.toNat) (el w (s.rv b.toNat) l e % n)), 0)))

/-- Element i of a slide by c of two registers of n elements (R242). -/
def slideElem (w n : Nat) (up : Bool) (c : Nat) (a b : VReg) (i : Nat) : Nat :=
  if up then (if c ≤ i then elFlat w a (i - c) else elFlat w b (n - c + i))
  else (if i + c < n then elFlat w a (i + c) else elFlat w b (i + c - n))

/-- VSLIDE (R242). -/
def execVslide (d a b : BitVec 4) (k y : BitVec 3) (m : BitVec 2) (p : BitVec 1) (s : State) : Out :=
  s.onCompute 2 (fun s =>
    let w := (fmtF y).width
    let n := 64 * (32 / w)
    let c := if m = 0 then 1 else if m = 1 then 32 / w else n / 2
    s.vmap d.toNat k w (fun l e =>
      (t6Clean y (slideElem w n (p == 1) c (s.rv a.toNat) (s.rv b.toNat) (32 / w * l + e)), 0)))
def execVslideImm (d a : BitVec 4) (y : BitVec 3) (u : BitVec 1) (n : BitVec 9) (s : State) : Out :=
  s.onCompute 2 (fun s =>
    let w := (fmtF y).width
    s.vmap d.toNat 0 w (fun l e =>
      (t6Clean y (slideElem w (64 * (32 / w)) (u == 1) n.toNat (s.rv a.toNat) 0 (32 / w * l + e)), 0)))

/-- VSEL (R244): the mask is the selector. -/
def execVsel (d a b : BitVec 4) (k : BitVec 3) (s : State) : Out :=
  s.onCompute 2 (fun s => s.vlanes d.toNat (BitVec.allOnes 64) (fun l =>
    (if (s.rk k.toNat).getLsbD l then elem 32 (s.rv a.toNat) l else elem 32 (s.rv b.toNat) l, 0)))

/-! ### Widths and formats (R245-R248) -/

/-- The type of twice the width that VPACK narrows and VUNPK widens to (R245, R246). -/
def doubleOf : Fmt → Fmt
  | .i16 => .i32 | .b16 => .b32 | .i8 => .i16 | .b8 => .b16 | _ => .f32

/-- VPACK (R245): the float types round. -/
def execVpack (d a b : BitVec 4) (k y : BitVec 3) (u : BitVec 1) (s : State) : Out :=
  s.onCompute 2 (fun s =>
    let f := fmtI y u
    let g := doubleOf f
    let m := 64 * (32 / g.width)
    let r := s.rndCtx
    let s1 := s.vmap d.toNat k f.width (fun l e =>
      let i := 32 / f.width * l + e
      let x := if i < m then elFlat g.width (s.rv a.toNat) i else elFlat g.width (s.rv b.toNat) (i - m)
      if f.isInt then saturate f (intOf g x) else convert .f32 f r.mode x (r.sr l e))
    if f.isInt then s1 else s1.takeCount)

/-- VUNPK (R246). -/
def execVunpk (d a : BitVec 4) (k y : BitVec 3) (h u : BitVec 1) (s : State) : Out :=
  s.onCompute 2 (fun s =>
    let f := fmtI y u
    let g := doubleOf f
    let m := 64 * (32 / g.width)
    s.vmap d.toNat k g.width (fun l e =>
      convert f g 0 (elFlat f.width (s.rv a.toNat) (32 / g.width * l + e + m * h.toNat)) 0))

/-- A VCVT that rounds (R247): all but the exact rows of R126. -/
def cvtRounds (src dst : Fmt) : Bool :=
  !(src.isInt && dst.isInt) && !(dst.isIeee && !src.isInt && (!src.isIeee || src.width < dst.width))

/-- VCVT (R247). -/
def execVcvt (d a : BitVec 4) (c : BitVec 1) (g k y : BitVec 3) (p : BitVec 2) (z : BitVec 1) (s : State) : Out :=
  s.onCompute 2 (fun s =>
    let src := fmtI g c
    let dst := fmtI y z
    let wu := src.width
    let wt := dst.width
    let r := s.rndCtx
    let s1 := s.vmap d.toNat k wt (fun l e =>
      if wu = wt then convert src dst r.mode (el wu (s.rv a.toNat) l e) (r.sr l e)
      else if wt < wu then
        let lo := 32 / wu * p.toNat
        if lo ≤ e && e < lo + 32 / wu then convert src dst r.mode (el wu (s.rv a.toNat) l (e - lo)) (r.sr l e)
        else (el wt (s.rv d.toNat) l e, 0)
      else convert src dst r.mode (el wu (s.rv a.toNat) l (e + 32 / wt * p.toNat)) (r.sr l e))
    if cvtRounds src dst then s1.takeCount else s1)

/-- Q of R248 for an exact product. -/
def quantProduct (f : Fmt) (mode : Nat) (x : FNum) (sr : Nat) : Nat × Flags :=
  if f.isInt then
    match x with
    | .fin n m e =>
      let r := roundInt mode n m e sr
      let z := saturate f r.1
      (z.1, if z.2 = 0 then Flags.when r.2 Flags.nx else z.2)
    | _ => toIntFmt f mode x sr
  else roundTo f mode x sr

/-- VQNT (R248; log 70, DEDUCED). -/
def execVqnt (d a b : BitVec 4) (k y : BitVec 3) (p : BitVec 2) (u : BitVec 1) (s : State) : Out :=
  s.onCompute 2 (fun s =>
    let f := fmtI y u
    let r := s.rndCtx
    (s.vmap d.toNat k f.width (fun l e =>
      if e = p.toNat then
        let x := (fDecode .f32 (el 32 (s.rv a.toNat) l 0)).mul (fDecode .f32 (el 32 (s.rv b.toNat) l 0))
        let z := quantProduct f r.mode x.1 (r.sr l e)
        (z.1, x.2 ||| z.2)
      else (el f.width (s.rv d.toNat) l e, 0))).takeCount)

/-- VDQNT (R248). -/
def execVdqnt (d a b : BitVec 4) (k y : BitVec 3) (p : BitVec 2) (u : BitVec 1) (s : State) : Out :=
  s.onCompute 2 (fun s =>
    let f := fmtI y u
    let r := s.rndCtx
    (s.vlanes d.toNat (s.rk k.toNat) (fun l =>
      let x := (decodeNum f (el f.width (s.rv a.toNat) l p.toNat)).mul (fDecode .f32 (el 32 (s.rv b.toNat) l 0))
      let z := roundTo .f32 r.mode x.1 (r.sr l 0)
      (BitVec.ofNat 32 z.1, x.2 ||| z.2))).takeCount)

/-! ### Reductions and scans (R249, R250, R127, R128) -/

/-- The tree of R127 over patterns, with an operation that does not round. -/
def treePat (op : Nat → Nat → Nat × Flags) : Nat → List Nat → Flags → Nat × Flags
  | 0, t, fl => (t.headD 0, fl)
  | fuel + 1, t, fl =>
    if t.length ≤ 1 then (t.headD 0, fl)
    else
      let n := t.length / 2
      let rs := ((t.take n).zip (t.drop n)).map (fun p => op p.1 p.2)
      treePat op fuel (rs.map (·.1)) (rs.foldl (fun a p => a ||| p.2) fl)

/-- The scan of R128 over patterns, with an operation that does not round. -/
def scanPat (op : Nat → Nat → Nat × Flags) : Nat → Nat → List Nat → Flags → List Nat × Flags
  | 0, _, t, fl => (t, fl)
  | fuel + 1, n, t, fl =>
    if t.length ≤ n then (t, fl)
    else
      let rs := ((t.take (t.length - n)).zip (t.drop n)).map (fun p => op p.1 p.2)
      scanPat op fuel (2 * n) (t.take n ++ rs.map (·.1)) (rs.foldl (fun a p => a ||| p.2) fl)

/-- The elements of a register, with the value c in place of those of inactive lanes. -/
def contributed (f : Fmt) (v : VReg) (k : W64) (c : Nat) : List Nat :=
  let p := 32 / f.width
  (List.range (64 * p)).map (fun i => if k.getLsbD (i / p) then elFlat f.width v i else c)

/-- The value that an inactive lane contributes (R249, R250). -/
def neutral (f : Fmt) (op : Nat) : Nat :=
  if f.isInt then
    (if op = 0 then 0 else intBits f.width (if op = 1 then f.minInt else f.maxInt))
  else (if op = 0 then f.signBit else f.canonNaN)

/-- The integer operation of a reduction: 0 sum, 1 max, 2 min, on exact integers. -/
def intCombine (op : Nat) (a b : Int) : Int :=
  if op = 0 then a + b else if op = 1 then (if a < b then b else a) else (if b < a then b else a)

/-- The value of a reduction, 32 bits (R249). -/
def reduced (f : Fmt) (op : Nat) (r : RndCtx) (v : VReg) (k : W64) : Nat × Flags :=
  let es := contributed f v k (neutral f op)
  if f.isInt then
    let is := es.map (intOf f)
    (intBits 32 (is.tail.foldl (intCombine op) (is.headD 0)), 0)
  else if op = 0 then
    let t := reduceTree .f32 r 8 0 (es.map (fDecode f)) 0
    ((roundTo .f32 0 t.1 0).1, t.2)
  else
    let t := treePat (minMaxNum f (op = 1)) 8 es 0
    ((convert f .f32 0 t.1 0).1, t.2)

/-- VRED (R249): every lane takes the result, whatever the mask. -/
def execVred (d a : BitVec 4) (k y : BitVec 3) (o : BitVec 2) (u : BitVec 1) (s : State) : Out :=
  s.onCompute 2 (fun s =>
    let f := fmtI y u
    let z := reduced f o.toNat s.rndCtx (s.rv a.toNat) (s.rk k.toNat)
    let v := (packLanes (List.replicate 64 (BitVec.ofNat 32 z.1, (0 : Flags)))).1
    let s1 := s.issueLong .v d.toNat 2 v z.2
    if o = 0 && !f.isInt then s1.takeCount else s1)

/-- The elements of a scan (R250). -/
def scanned (f : Fmt) (op : Nat) (r : RndCtx) (v : VReg) (k : W64) : List Nat × Flags :=
  let es := contributed f v k (neutral f op)
  if f.isInt then
    let t := scanPat (fun a b => (intBits f.width (intCombine op (intOf f a) (intOf f b)), 0)) 8 1 es 0
    (t.1, 0)
  else if op = 0 then
    let t := scanSteps f r 8 0 1 (es.map (fDecode f)) 0
    (t.1.map (fun x => (roundTo f 0 x 0).1), t.2)
  else
    let t := scanPat (minMaxNum f (op = 1)) 8 1 es 0
    (t.1.map (fun x => if (fDecode f x).isNaN then f.canonNaN else x), t.2)

/-- VSCAN (R250). -/
def execVscan (d a : BitVec 4) (k y : BitVec 3) (o : BitVec 2) (u : BitVec 1) (s : State) : Out :=
  s.onCompute 2 (fun s =>
    let f := fmtI y u
    let p := 32 / f.width
    let m := s.rk k.toNat
    let z := scanned f o.toNat s.rndCtx (s.rv a.toNat) m
    let r := maskedLanes m (s.rv d.toNat) (fun l => laneOf f.width (fun e => (z.1[p * l + e]?.getD 0, 0)))
    let s1 := s.issueLong .v d.toNat 2 r.1 z.2
    if o = 0 && !f.isInt then s1.takeCount else s1)

/-! ### Keys (R251) -/

/-- floor(m × 2^e), signed. -/
def floorNum (neg : Bool) (m : Nat) (e : Int) : Int :=
  let v : Int := if neg then -(m : Int) else m
  if 0 ≤ e then v * 2 ^ e.toNat else v / 2 ^ (-e).toNat

/-- The tick of an exact difference scaled by sc (R251). -/
def keyTick (d sc : FNum) (w : Nat) (nf : Bool) : Nat :=
  match d with
  | .nan _ => if nf then 0 else 2 * w - 1
  | _ =>
    let top := 2 * w - 2
    let u : Nat := match (d.mul sc).1 with
      | .inf n => if n then 0 else top
      | .fin n m e => Nat.min (floorNum n m e).toNat top
      | .nan _ => 0
    if nf then u + 1 else u

/-- VKEY (R251): ticks for the Prism engine, from the parameters in vs2. A difference with −0 equal to +0 is exact. -/
def execVkey (d a b : BitVec 4) (k y : BitVec 3) (p n r : BitVec 1) (s : State) : Out :=
  s.onCompute 2 (fun s =>
    let f := fmtF y
    let par := s.rv b.toNat
    let off := decodeNum (if f.isInt then .i32 else .f32) (el 32 par 0 0)
    let sc := fDecode .f32 (el 32 par 1 0)
    let w := el 32 par 2 0 % 256
    let badSc := match sc with
      | .fin neg m _ => neg || m = 0
      | _ => true
    let badOff := match off with
      | .fin _ _ _ => false
      | _ => true
    if w = 0 || 256 ≤ el 32 par 2 0 || badSc || badOff then s.trapSyl .trap 2 tcWindow 0 0
    else
      let tick := fun x => keyTick (if r = 1 then (off.add 0 x.negate).1 else (x.add 0 off.negate).1) sc w (n == 1)
      s.vmap d.toNat k 16 (fun l e =>
        if f.width = 16 then (tick (decodeNum f (el 16 (s.rv a.toNat) l e)), 0)
        else if e = p.toNat then (tick (decodeNum f (el 32 (s.rv a.toNat) l 0)), 0)
        else (el 16 (s.rv d.toNat) l e, 0)))

/-! ### Masks (R252-R255) -/

def execKop (d a c o : BitVec 3) (s : State) : Out :=
  s.onCompute 2 (fun s =>
    let x := s.rk a.toNat
    let y := s.rk c.toNat
    s.wk d.toNat (match o.toNat with
      | 0 => x &&& y
      | 1 => x ||| y
      | 2 => x ^^^ y
      | 3 => x &&& ~~~y
      | _ => ~~~x))

/-- Set bits of a mask below bit n. -/
def popBelow (k : W64) (n : Nat) : Nat := ((List.range n).filter (fun i => k.getLsbD i)).length

def execKpop (d : BitVec 4) (a : BitVec 3) (p : BitVec 1) (s : State) : Out :=
  s.onCompute 2 (fun s =>
    let k := s.rk a.toNat
    s.vlanes d.toNat (BitVec.allOnes 64) (fun l => (BitVec.ofNat 32 (popBelow k (if p = 1 then l else 64)), 0)))

def execKfirst (d a m : BitVec 3) (s : State) : Out :=
  s.onCompute 2 (fun s =>
    let k := s.rk a.toNat
    let one := k &&& (0 - k)
    s.wk d.toNat (match m.toNat with
      | 0 => one
      | 1 => if k = 0 then BitVec.allOnes 64 else one - 1
      | _ => if k = 0 then BitVec.allOnes 64 else (one - 1) ||| one))

def execKset (d : BitVec 3) (n : BitVec 8) (i : BitVec 1) (s : State) : Out :=
  s.onCompute 2 (fun s =>
    let v := BitVec.ofNat 64 (2 ^ n.toNat - 1)
    s.wk d.toNat (if i = 1 then ~~~v else v))

/-! ### VMM (R256, R257) -/

/-- Lines that a 256-byte operand touches (R257). -/
def linesOf (o : Nat) : List Nat := if o % 256 = 0 then [o / 256] else [o / 256, o / 256 + 1]

/-- The delay D of a VMM: AB bank of a line is the line modulo 3 (R136). -/
def vmmDelay (d a b : Nat) (fma : Bool) : Nat :=
  let reads := (linesOf a ++ linesOf b ++ (if fma then linesOf d else [])).eraseDups
  let touches := reads ++ linesOf d
  ((List.range 3).map (fun k => (touches.filter (fun t => t % 3 == k)).length - 1)).foldl (· + ·) 0

/-- VMM (R256, R257): its reads see every write of the cycle that stands before it. -/
def execVmm (d a b : BitVec 4) (k y o : BitVec 3) (s : State) : Out :=
  s.onCompute 2 (fun s =>
    -- what an acquire of the same bundle needs comes first (R145)
    let s := s.applyNow s.me.before
    let f := fmtF y
    let ds := s.ra d.toNat
    let s1 := s.ra a.toNat
    let s2 := s.ra b.toNat
    let bad := [ds, s1, s2].find? (fun p => p.toNat % 8 ≠ 0 || Config.abSize < p.toNat + 256)
    match bad with
    | some p => s.trapSyl .trap 2 (if p.toNat % 8 ≠ 0 then tcAlign else tcBufferRange) 0 p
    | none =>
      let key := fun (p : W64) => bufKey s.pre.die s.pre.core 1 p.toNat
      let eccAt := fun (p : W64) => (List.range 64).find? (fun l => s.eccRead (key p + 4 * l) 4)
      let srcs := [s1, s2] ++ (if o = 3 then [ds] else [])
      match srcs.find? (fun p => (eccAt p).isSome) with
      | some p =>
        let l := (eccAt p).getD 0
        s.trapSyl .trap 2 tcEcc (BitVec.ofNat 32 l) (p + BitVec.ofNat 64 (4 * l))
      | none =>
        let va : VReg := s.load (key s1) 256 2048
        let vb : VReg := s.load (key s2) 256 2048
        let vc : VReg := s.load (key ds) 256 2048
        let r := s.rndCtx
        let m := s.rk k.toNat
        let g := fun l e =>
          let x := el f.width va l e
          let z := el f.width vb l e
          let c := el f.width vc l e
          if f.isInt then
            let p := intOf f x
            let q := intOf f z
            let v := match o.toNat with
              | 0 => p + q
              | 1 => p - q
              | 2 => p * q
              | 3 => p * q + intOf f c
              | 4 => if q < p then q else p
              | _ => if p < q then q else p
            (intBits f.width v, (0 : Flags))
          else if 4 ≤ o.toNat then minMaxNum f (o = 5) x z
          else
            let p := fDecode f x
            let q := fDecode f z
            let v := match o.toNat with
              | 0 => p.add r.mode q
              | 1 => p.add r.mode q.negate
              | 2 => p.mul q
              | _ => FNum.fma r.mode p q (fDecode f c)
            let w := roundTo f r.mode v.1 (r.sr l e)
            (w.1, v.2 ||| w.2)
        let lanes := (List.range 64).filter (fun l => m.getLsbD l)
        let rs := lanes.map (fun l => (l, laneOf f.width (g l)))
        -- an active lane stores its 4 bytes; one that meets an uncorrectable granule in part faults as a read does
        let whole := fun l => m.getLsbD (if (ds.toNat / 4 + l) % 2 = 0 then l + 1 else l - 1)
        match lanes.find? (fun l => s.eccWrite (key ds + 4 * l) 4 && !whole l) with
        | some l => s.trapSyl .trap 2 tcEcc (BitVec.ofNat 32 l) (ds + BitVec.ofNat 64 (4 * l))
        | none =>
          let st := srcs.foldl (fun (q : State) p => q.noteRead (key p) 256) s
          let st := rs.foldl (fun (q : State) p => (q.noteWrite false (key ds + 4 * p.1) 4 []).store (key ds + 4 * p.1) 4 p.2.1) st
          -- granules written by two lanes are covered whole (R487)
          let st := { st with ecc := st.ecc.filter (fun c =>
            !(key ds ≤ 8 * c && 8 * c + 8 ≤ key ds + 256 && m.getLsbD ((8 * c - key ds) / 4) &&
              m.getLsbD ((8 * c - key ds) / 4 + 1))) }
          let st := st.orFlags (rs.foldl (fun a p => a ||| p.2.2) 0)
          let st := (([d.toNat, a.toNat, b.toNat].eraseDups).foldl (fun (q : State) n => q.wa n (s.ra n + 256)) st)
          let st := { st with me := { st.me with vdly := vmmDelay ds.toNat s1.toNat s2.toNat (o = 3) } }
          if f.isInt || 4 ≤ o.toNat then st else st.takeCount)

end Sys2Proof.Machine
end

