-- ==== Sys2Proof/Machine/Dispatch.lean ====
section
/-! DEFINITION. The dispatch of every row of the opcode table to its meaning. -/

namespace Sys2Proof.Machine

def exec (i : Instr) (s : State) : Host.Outcome State Fault Refusal :=
  match i with
  | .nop => Sys2Proof.Machine.execNop s
  | .add d src t => Sys2Proof.Machine.execAdd d src t s
  | .sub d src t => Sys2Proof.Machine.execSub d src t s
  | .mul d src t => Sys2Proof.Machine.execMul d src t s
  | .mulh d src t => Sys2Proof.Machine.execMulh d src t s
  | .mulhb d src t => Sys2Proof.Machine.execMulhb d src t s
  | .div d src t => Sys2Proof.Machine.execDiv d src t s
  | .divb d src t => Sys2Proof.Machine.execDivb d src t s
  | .rem d src t => Sys2Proof.Machine.execRem d src t s
  | .remb d src t => Sys2Proof.Machine.execRemb d src t s
  | .and d src t => Sys2Proof.Machine.execAnd d src t s
  | .or d src t => Sys2Proof.Machine.execOr d src t s
  | .xor d src t => Sys2Proof.Machine.execXor d src t s
  | .andn d src t => Sys2Proof.Machine.execAndn d src t s
  | .shl d src t => Sys2Proof.Machine.execShl d src t s
  | .shr d src t => Sys2Proof.Machine.execShr d src t s
  | .sar d src t => Sys2Proof.Machine.execSar d src t s
  | .rol d src t => Sys2Proof.Machine.execRol d src t s
  | .min d src t => Sys2Proof.Machine.execMin d src t s
  | .max d src t => Sys2Proof.Machine.execMax d src t s
  | .minb d src t => Sys2Proof.Machine.execMinb d src t s
  | .maxb d src t => Sys2Proof.Machine.execMaxb d src t s
  | .addImm d src imm => Sys2Proof.Machine.execAddImm d src imm s
  | .subImm d src imm => Sys2Proof.Machine.execSubImm d src imm s
  | .mulImm d src imm => Sys2Proof.Machine.execMulImm d src imm s
  | .mulhImm d src imm => Sys2Proof.Machine.execMulhImm d src imm s
  | .mulhbImm d src imm => Sys2Proof.Machine.execMulhbImm d src imm s
  | .divImm d src imm => Sys2Proof.Machine.execDivImm d src imm s
  | .divbImm d src imm => Sys2Proof.Machine.execDivbImm d src imm s
  | .remImm d src imm => Sys2Proof.Machine.execRemImm d src imm s
  | .rembImm d src imm => Sys2Proof.Machine.execRembImm d src imm s
  | .andImm d src imm => Sys2Proof.Machine.execAndImm d src imm s
  | .orImm d src imm => Sys2Proof.Machine.execOrImm d src imm s
  | .xorImm d src imm => Sys2Proof.Machine.execXorImm d src imm s
  | .andnImm d src imm => Sys2Proof.Machine.execAndnImm d src imm s
  | .shlImm d src imm => Sys2Proof.Machine.execShlImm d src imm s
  | .shrImm d src imm => Sys2Proof.Machine.execShrImm d src imm s
  | .sarImm d src imm => Sys2Proof.Machine.execSarImm d src imm s
  | .rolImm d src imm => Sys2Proof.Machine.execRolImm d src imm s
  | .minImm d src imm => Sys2Proof.Machine.execMinImm d src imm s
  | .maxImm d src imm => Sys2Proof.Machine.execMaxImm d src imm s
  | .minbImm d src imm => Sys2Proof.Machine.execMinbImm d src imm s
  | .maxbImm d src imm => Sys2Proof.Machine.execMaxbImm d src imm s
  | .clz d src => Sys2Proof.Machine.execClz d src s
  | .ctz d src => Sys2Proof.Machine.execCtz d src s
  | .popc d src => Sys2Proof.Machine.execPopc d src s
  | .brev d src => Sys2Proof.Machine.execBrev d src s
  | .sext d src w => Sys2Proof.Machine.execSext d src w s
  | .ext d src t w => Sys2Proof.Machine.execExt d src t w s
  | .ins d src t w => Sys2Proof.Machine.execIns d src t w s
  | .sel d src t n c => Sys2Proof.Machine.execSel d src t n c s
  | .li d imm xx => Sys2Proof.Machine.execLi d imm xx s
  | .cmp c k src t imm => Sys2Proof.Machine.execCmp c k src t imm s
  | .clog d o n a m c => Sys2Proof.Machine.execClog d o n a m c s
  | .br c n imm => Sys2Proof.Machine.execBr c n imm s
  | .jmp imm xx => Sys2Proof.Machine.execJmp imm xx s
  | .call imm xx => Sys2Proof.Machine.execCall imm xx s
  | .jmpr src => Sys2Proof.Machine.execJmpr src s
  | .ret => Sys2Proof.Machine.execRet s
  | .loop n src imm => Sys2Proof.Machine.execLoop n src imm s
  | .bar l => Sys2Proof.Machine.execBar l s
  | .exit l => Sys2Proof.Machine.execExit l s
  | .trap n => Sys2Proof.Machine.execTrap n s
  | .brk n => Sys2Proof.Machine.execBrk n s
  | .rte => Sys2Proof.Machine.execRte s
  | .sysr x r h => Sys2Proof.Machine.execSysr x r h s
  | .sysw x r h => Sys2Proof.Machine.execSysw x r h s
  | .frame l => Sys2Proof.Machine.execFrame l s
  | .xfa d a h => Sys2Proof.Machine.execXfa d a h s
  | .xfe d e h => Sys2Proof.Machine.execXfe d e h s
  | .xfv d v k e l => Sys2Proof.Machine.execXfv d v k e l s
  | .ldB d a m src o => Sys2Proof.Machine.execLdB d a m src o s
  | .ldH d a m src o => Sys2Proof.Machine.execLdH d a m src o s
  | .ldW d a m src o => Sys2Proof.Machine.execLdW d a m src o s
  | .ldD d a m src o => Sys2Proof.Machine.execLdD d a m src o s
  | .ldzB d a m src o => Sys2Proof.Machine.execLdzB d a m src o s
  | .ldzH d a m src o => Sys2Proof.Machine.execLdzH d a m src o s
  | .ldzW d a m src o => Sys2Proof.Machine.execLdzW d a m src o s
  | .stB d a m src o => Sys2Proof.Machine.execStB d a m src o s
  | .stH d a m src o => Sys2Proof.Machine.execStH d a m src o s
  | .stW d a m src o => Sys2Proof.Machine.execStW d a m src o s
  | .stD d a m src o => Sys2Proof.Machine.execStD d a m src o s
  | .ldv d a m src o => Sys2Proof.Machine.execLdv d a m src o s
  | .stv d a m src o => Sys2Proof.Machine.execStv d a m src o s
  | .ldvs v a m src k x => Sys2Proof.Machine.execLdvs v a m src k x s
  | .stvs v a m src k x => Sys2Proof.Machine.execStvs v a m src k x s
  | .gld v a src k imm => Sys2Proof.Machine.execGld v a src k imm s
  | .gst v a src k imm => Sys2Proof.Machine.execGst v a src k imm s
  | .ldk k a m src o => Sys2Proof.Machine.execLdk k a m src o s
  | .stk k a m src o => Sys2Proof.Machine.execStk k a m src o s
  | .aadd d src imm => Sys2Proof.Machine.execAadd d src imm s
  | .ali d imm xx => Sys2Proof.Machine.execAli d imm xx s
  | .afx h a l o => Sys2Proof.Machine.execAfx h a l o s
  | .peer d a c x y q => Sys2Proof.Machine.execPeer d a c x y q s
  | .amo d a src o z p xx => Sys2Proof.Machine.execAmo d a src o z p xx s
  | .rld d a h z => Sys2Proof.Machine.execRld d a h z s
  | .rst d a h z => Sys2Proof.Machine.execRst d a h z s
  | .ramo d a h z n o xx => Sys2Proof.Machine.execRamo d a h z n o xx s
  | .vfadd d src t k y => Sys2Proof.Machine.execVfadd d src t k y s
  | .vfsub d src t k y => Sys2Proof.Machine.execVfsub d src t k y s
  | .vfmul d src t k y => Sys2Proof.Machine.execVfmul d src t k y s
  | .vfma d src t k y => Sys2Proof.Machine.execVfma d src t k y s
  | .vfnma d src t k y => Sys2Proof.Machine.execVfnma d src t k y s
  | .vfmin d src t k y => Sys2Proof.Machine.execVfmin d src t k y s
  | .vfmax d src t k y => Sys2Proof.Machine.execVfmax d src t k y s
  | .vfabs d src k y => Sys2Proof.Machine.execVfabs d src k y s
  | .vfneg d src k y => Sys2Proof.Machine.execVfneg d src k y s
  | .vfcps d src t k y => Sys2Proof.Machine.execVfcps d src t k y s
  | .vfcmp d src t k n => Sys2Proof.Machine.execVfcmp d src t k n s
  | .vfrcp d src k y => Sys2Proof.Machine.execVfrcp d src k y s
  | .vfrsq d src k y => Sys2Proof.Machine.execVfrsq d src k y s
  | .vfsqrt d src k y => Sys2Proof.Machine.execVfsqrt d src k y s
  | .vfdiv d src t k y => Sys2Proof.Machine.execVfdiv d src t k y s
  | .vfexp2 d src k y => Sys2Proof.Machine.execVfexp2 d src k y s
  | .vflog2 d src k y => Sys2Proof.Machine.execVflog2 d src k y s
  | .vadd d src t k y q u => Sys2Proof.Machine.execVadd d src t k y q u s
  | .vsub d src t k y q u => Sys2Proof.Machine.execVsub d src t k y q u s
  | .vmul d src t k y q u => Sys2Proof.Machine.execVmul d src t k y q u s
  | .vmulh d src t k y u => Sys2Proof.Machine.execVmulh d src t k y u s
  | .vmadw d src t k y q u => Sys2Proof.Machine.execVmadw d src t k y q u s
  | .vmin d src t k y u => Sys2Proof.Machine.execVmin d src t k y u s
  | .vmax d src t k y u => Sys2Proof.Machine.execVmax d src t k y u s
  | .vand d src t k => Sys2Proof.Machine.execVand d src t k s
  | .vor d src t k => Sys2Proof.Machine.execVor d src t k s
  | .vxor d src t k => Sys2Proof.Machine.execVxor d src t k s
  | .vshl d src t k y => Sys2Proof.Machine.execVshl d src t k y s
  | .vshr d src t k y => Sys2Proof.Machine.execVshr d src t k y s
  | .vsar d src t k y => Sys2Proof.Machine.execVsar d src t k y s
  | .vcmp d src t k n u => Sys2Proof.Machine.execVcmp d src t k n u s
  | .vabs d src k y q => Sys2Proof.Machine.execVabs d src k y q s
  | .vsat d src t k y r u => Sys2Proof.Machine.execVsat d src t k y r u s
  | .vmov d src k => Sys2Proof.Machine.execVmov d src k s
  | .vfx d x n l => Sys2Proof.Machine.execVfx d x n l s
  | .vperm d src t k y => Sys2Proof.Machine.execVperm d src t k y s
  | .vslide d src t k y m p => Sys2Proof.Machine.execVslide d src t k y m p s
  | .vsel d src t k => Sys2Proof.Machine.execVsel d src t k s
  | .vpack d src t k y u => Sys2Proof.Machine.execVpack d src t k y u s
  | .vunpk d src k y h u => Sys2Proof.Machine.execVunpk d src k y h u s
  | .vcvt d src c g k y p z => Sys2Proof.Machine.execVcvt d src c g k y p z s
  | .vqnt d src t k y p u => Sys2Proof.Machine.execVqnt d src t k y p u s
  | .vdqnt d src t k y p u => Sys2Proof.Machine.execVdqnt d src t k y p u s
  | .vred d src k y o u => Sys2Proof.Machine.execVred d src k y o u s
  | .vscan d src k y o u => Sys2Proof.Machine.execVscan d src k y o u s
  | .vkey d src t k y p n r => Sys2Proof.Machine.execVkey d src t k y p n r s
  | .kop d a c o => Sys2Proof.Machine.execKop d a c o s
  | .kpop d a p => Sys2Proof.Machine.execKpop d a p s
  | .kfirst d a m => Sys2Proof.Machine.execKfirst d a m s
  | .kset d n imm => Sys2Proof.Machine.execKset d n imm s
  | .vmm d src t k y o => Sys2Proof.Machine.execVmm d src t k y o s
  | .vshlImm d src y k c => Sys2Proof.Machine.execVshlImm d src y k c s
  | .vshrImm d src y k c => Sys2Proof.Machine.execVshrImm d src y k c s
  | .vsarImm d src y k c => Sys2Proof.Machine.execVsarImm d src y k c s
  | .vslideImm d src y u n => Sys2Proof.Machine.execVslideImm d src y u n s
  | .vmovImm d imm n => Sys2Proof.Machine.execVmovImm d imm n s
  | .qset q x f n => Sys2Proof.Machine.execQset q x f n s
  | .qld q x n => Sys2Proof.Machine.execQld q x n s
  | .qst q x n => Sys2Proof.Machine.execQst q x n s
  | .mown => Sys2Proof.Machine.execMown s
  | .mownRel => Sys2Proof.Machine.execMownRel s
  | .mmul a c t h k => Sys2Proof.Machine.execMmul a c t h k s
  | .mmuls a c t h k => Sys2Proof.Machine.execMmuls a c t h k s
  | .mmrot a c t h k => Sys2Proof.Machine.execMmrot a c t h k s
  | .mzero t h => Sys2Proof.Machine.execMzero t h s
  | .mdrn a o t h => Sys2Proof.Machine.execMdrn a o t h s
  | .mldc a o t h => Sys2Proof.Machine.execMldc a o t h s
  | .pwin k x o h w => Sys2Proof.Machine.execPwin k x o h w s
  | .pldw q m h x => Sys2Proof.Machine.execPldw q m h x s
  | .plaunch q m h => Sys2Proof.Machine.execPlaunch q m h s
  | .pcap q m h => Sys2Proof.Machine.execPcap q m h s
  | .pcapList q h => Sys2Proof.Machine.execPcapList q h s
  | .prst m h => Sys2Proof.Machine.execPrst m h s
  | .send src p => Sys2Proof.Machine.execSend src p s
  | .recv d p => Sys2Proof.Machine.execRecv d p s
  | .pbind p => Sys2Proof.Machine.execPbind p s
  | .pbindRel p => Sys2Proof.Machine.execPbindRel p s
  | .efx d h l o => Sys2Proof.Machine.execEfx d h l o s
  | .cpy d src e h c => Sys2Proof.Machine.execCpy d src e h c s
  | .cpyt d src e h c v r q => Sys2Proof.Machine.execCpyt d src e h c v r q s
  | .gath d src e h c imm => Sys2Proof.Machine.execGath d src e h c imm s
  | .scat d src e h c imm => Sys2Proof.Machine.execScat d src e h c imm s
  | .sig d e h c => Sys2Proof.Machine.execSig d e h c s
  | .wait h c a e q => Sys2Proof.Machine.execWait h c a e q s
  | .test h c a e => Sys2Proof.Machine.execTest h c a e s
  | .cancel h a e => Sys2Proof.Machine.execCancel h a e s
  | .tlwait h n a e => Sys2Proof.Machine.execTlwait h n a e s
  | .tlrd h f n d a e => Sys2Proof.Machine.execTlrd h f n d a e s
  | .fenceRel e => Sys2Proof.Machine.execFenceRel e s
  | .fenceAcq => Sys2Proof.Machine.execFenceAcq s
  | .fenceSc e => Sys2Proof.Machine.execFenceSc e s
  | .spawn a f n y h d => Sys2Proof.Machine.execSpawn a f n y h d s
  | .fanout h x a => Sys2Proof.Machine.execFanout h x a s
  | .trig => Sys2Proof.Machine.execTrig s
  | .migr d => Sys2Proof.Machine.execMigr d s
  | .migrHome d => Sys2Proof.Machine.execMigrHome d s
  | .yield c => Sys2Proof.Machine.execYield c s
  | .coll d h c => Sys2Proof.Machine.execColl d h c s
  | .handoff src h => Sys2Proof.Machine.execHandoff src h s
  | .xlinv h l e => Sys2Proof.Machine.execXlinv h l e s
  | .issueStamp x src => Sys2Proof.Machine.execIssueStamp x src s
  | .nullBundle => Sys2Proof.Machine.execNullBundle s
  | .bundleRelease => Sys2Proof.Machine.execBundleRelease s
  | .stampTarget => Sys2Proof.Machine.execStampTarget s
  | .threadResume tid tpc => Sys2Proof.Machine.execThreadResume tid tpc s
  | .groupKill tid level => Sys2Proof.Machine.execGroupKill tid level s
  | .frameStart gid die => Sys2Proof.Machine.execFrameStart gid die s
  | .frameWrap => Sys2Proof.Machine.execFrameWrap s
  | .barrierComplete gid => Sys2Proof.Machine.execBarrierComplete gid s
  | .exitArrival tid => Sys2Proof.Machine.execExitArrival tid s
  | .longResultLanding => Sys2Proof.Machine.execLongResultLanding s
  | .snapshotLanding => Sys2Proof.Machine.execSnapshotLanding s
  | .vmmDelayEnd => Sys2Proof.Machine.execVmmDelayEnd s
  | .regionStretch die region => Sys2Proof.Machine.execRegionStretch die region s
  | .stretchEnd die => Sys2Proof.Machine.execStretchEnd die s
  | .edgeHold die region => Sys2Proof.Machine.execEdgeHold die region s
  | .skewForcedStretch die region => Sys2Proof.Machine.execSkewForcedStretch die region s
  | .powerStep die freq => Sys2Proof.Machine.execPowerStep die freq s
  | .taskDispatch die core => Sys2Proof.Machine.execTaskDispatch die core s
  | .taskAgeing die => Sys2Proof.Machine.execTaskAgeing die s
  | .stealRequest die => Sys2Proof.Machine.execStealRequest die s
  | .stealAnswer die nb => Sys2Proof.Machine.execStealAnswer die nb s
  | .stealBackoffExpiry die => Sys2Proof.Machine.execStealBackoffExpiry die s
  | .turnShortageSpill die => Sys2Proof.Machine.execTurnShortageSpill die s
  | .spillComplete tid => Sys2Proof.Machine.execSpillComplete tid s
  | .bufferScrub die core => Sys2Proof.Machine.execBufferScrub die core s
  | .peerRequest rid => Sys2Proof.Machine.execPeerRequest rid s
  | .offCoreReply rid => Sys2Proof.Machine.execOffCoreReply rid s
  | .fanoutForward lid => Sys2Proof.Machine.execFanoutForward lid s
  | .fanoutHeaderRead lid => Sys2Proof.Machine.execFanoutHeaderRead lid s
  | .launchPlacement lid die core => Sys2Proof.Machine.execLaunchPlacement lid die core s
  | .launchFinish lid => Sys2Proof.Machine.execLaunchFinish lid s
  | .dependencySatisfied lid pid level => Sys2Proof.Machine.execDependencySatisfied lid pid level s
  | .spawnRecordArrival rid => Sys2Proof.Machine.execSpawnRecordArrival rid s
  | .migrationDepart tid => Sys2Proof.Machine.execMigrationDepart tid s
  | .migrationArrival tid die core => Sys2Proof.Machine.execMigrationArrival tid die core s
  | .forwardWindowExpiry die core tid => Sys2Proof.Machine.execForwardWindowExpiry die core tid s
  | .remoteReply rid => Sys2Proof.Machine.execRemoteReply rid s
  | .envelopeArrival die core port env => Sys2Proof.Machine.execEnvelopeArrival die core port env s
  | .creditArrival die core port => Sys2Proof.Machine.execCreditArrival die core port s
  | .probeLaunch tid => Sys2Proof.Machine.execProbeLaunch tid s
  | .probe tid => Sys2Proof.Machine.execProbe tid s
  | .copyStart die core ctx => Sys2Proof.Machine.execCopyStart die core ctx s
  | .copyUnit die core ctx => Sys2Proof.Machine.execCopyUnit die core ctx s
  | .copyComplete die core ctx => Sys2Proof.Machine.execCopyComplete die core ctx s
  | .completionNotice tid => Sys2Proof.Machine.execCompletionNotice tid s
  | .matrixStart die core num elapsed => Sys2Proof.Machine.execMatrixStart die core num elapsed s
  | .matrixComplete die core num => Sys2Proof.Machine.execMatrixComplete die core num s
  | .mmrotRingNotice die core num => Sys2Proof.Machine.execMmrotRingNotice die core num s
  | .mmrotTransfer die core num side cycle => Sys2Proof.Machine.execMmrotTransfer die core num side cycle s
  | .prismStart die core num elapsed => Sys2Proof.Machine.execPrismStart die core num elapsed s
  | .prismComplete die core num => Sys2Proof.Machine.execPrismComplete die core num s
  | .collStart die ctx => Sys2Proof.Machine.execCollStart die ctx s
  | .collSegment die ctx num => Sys2Proof.Machine.execCollSegment die ctx num s
  | .collComplete die ctx num => Sys2Proof.Machine.execCollComplete die ctx num s
  | .flitData port hdr off data => Sys2Proof.Machine.execFlitData port hdr off data s
  | .flitWindowAck port hdr => Sys2Proof.Machine.execFlitWindowAck port hdr s
  | .flitIdle port hdr => Sys2Proof.Machine.execFlitIdle port hdr s
  | .flitReplayRequest port hdr => Sys2Proof.Machine.execFlitReplayRequest port hdr s
  | .flitLinkControl port hdr => Sys2Proof.Machine.execFlitLinkControl port hdr s
  | .linkSilenceTimeout port => Sys2Proof.Machine.execLinkSilenceTimeout port s
  | .linkReplayLimit port => Sys2Proof.Machine.execLinkReplayLimit port s
  | .handoverStart die num => Sys2Proof.Machine.execHandoverStart die num s
  | .handoverFlip die num => Sys2Proof.Machine.execHandoverFlip die num s
  | .memoryRequest rid => Sys2Proof.Machine.execMemoryRequest rid s
  | .pageWalkComplete die part va => Sys2Proof.Machine.execPageWalkComplete die part va s
  | .xlinvComplete die num => Sys2Proof.Machine.execXlinvComplete die num s
  | .pageMigrateIn part va => Sys2Proof.Machine.execPageMigrateIn part va s
  | .pageMigrateOut part va host => Sys2Proof.Machine.execPageMigrateOut part va host s
  | .migrationEventAnswer part va leaf => Sys2Proof.Machine.execMigrationEventAnswer part va leaf s
  | .hysteresisExpiry part va => Sys2Proof.Machine.execHysteresisExpiry part va s
  | .quiesceComplete die => Sys2Proof.Machine.execQuiesceComplete die s
  | .partitionEvicted part => Sys2Proof.Machine.execPartitionEvicted part s
  | .wake fn q v => Sys2Proof.Machine.execWake fn q v s
  | .rbaseWrite fn q v => Sys2Proof.Machine.execRbaseWrite fn q v s
  | .rcfgWrite fn q v => Sys2Proof.Machine.execRcfgWrite fn q v s
  | .fctlWrite fn v => Sys2Proof.Machine.execFctlWrite fn v s
  | .mbevtClear port v => Sys2Proof.Machine.execMbevtClear port v s
  | .registerWrite fn bar off v => Sys2Proof.Machine.execRegisterWrite fn bar off v s
  | .commandFetch fn q => Sys2Proof.Machine.execCommandFetch fn q s
  | .commandStart cid => Sys2Proof.Machine.execCommandStart cid s
  | .commandComplete cid => Sys2Proof.Machine.execCommandComplete cid s
  | .launch cid => Sys2Proof.Machine.execLaunch cid s
  | .pipe cid => Sys2Proof.Machine.execPipe cid s
  | .signal cid => Sys2Proof.Machine.execSignal cid s
  | .waitsig cid => Sys2Proof.Machine.execWaitsig cid s
  | .waitsigTimeout cid => Sys2Proof.Machine.execWaitsigTimeout cid s
  | .copyh cid => Sys2Proof.Machine.execCopyh cid s
  | .handoffq cid => Sys2Proof.Machine.execHandoffq cid s
  | .pipeStageStart cid => Sys2Proof.Machine.execPipeStageStart cid s
  | .channelTeardown chan => Sys2Proof.Machine.execChannelTeardown chan s
  | .functionLevelReset fn => Sys2Proof.Machine.execFunctionLevelReset fn s
  | .hotReset port => Sys2Proof.Machine.execHotReset port s
  | .bar2Access fn write off len v => Sys2Proof.Machine.execBar2Access fn write off len v s
  | .pluginCall v => Sys2Proof.Machine.execPluginCall v s
  | .pluginOverrun tid => Sys2Proof.Machine.execPluginOverrun tid s
  | .heartbeat die => Sys2Proof.Machine.execHeartbeat die s
  | .timeSliceExpiry fn q => Sys2Proof.Machine.execTimeSliceExpiry fn q s
  | .budgetPeriod part => Sys2Proof.Machine.execBudgetPeriod part s
  | .hostTrapAnswer tid kill => Sys2Proof.Machine.execHostTrapAnswer tid kill s
  | .pform mid => Sys2Proof.Machine.execPform mid s
  | .pdiss mid => Sys2Proof.Machine.execPdiss mid s
  | .keyld mid => Sys2Proof.Machine.execKeyld mid s
  | .stkmove mid => Sys2Proof.Machine.execStkmove mid s
  | .pool mid => Sys2Proof.Machine.execPool mid s
  | .evict mid => Sys2Proof.Machine.execEvict mid s
  | .resume mid => Sys2Proof.Machine.execResume mid s
  | .memcfg mid => Sys2Proof.Machine.execMemcfg mid s
  | .xroot mid => Sys2Proof.Machine.execXroot mid s
  | .gtab mid => Sys2Proof.Machine.execGtab mid s
  | .budget mid => Sys2Proof.Machine.execBudget mid s
  | .swin mid => Sys2Proof.Machine.execSwin mid s
  | .croute mid => Sys2Proof.Machine.execCroute mid s
  | .fassign mid => Sys2Proof.Machine.execFassign mid s
  | .qmap mid => Sys2Proof.Machine.execQmap mid s
  | .qunmap mid => Sys2Proof.Machine.execQunmap mid s
  | .hyst mid => Sys2Proof.Machine.execHyst mid s
  | .pload mid => Sys2Proof.Machine.execPload mid s
  | .tslice mid => Sys2Proof.Machine.execTslice mid s
  | .fpool mid => Sys2Proof.Machine.execFpool mid s
  | .kill mid => Sys2Proof.Machine.execKill mid s
  | .fwload port => Sys2Proof.Machine.execFwload port s
  | .fwact port => Sys2Proof.Machine.execFwact port s
  | .quiesceTimeout io => Sys2Proof.Machine.execQuiesceTimeout io s
  | .updateTimeout io => Sys2Proof.Machine.execUpdateTimeout io s
  | .logrd port => Sys2Proof.Machine.execLogrd port s
  | .mgmt port => Sys2Proof.Machine.execMgmt port s
  | .getVersion port => Sys2Proof.Machine.execGetVersion port s
  | .getCapabilities port => Sys2Proof.Machine.execGetCapabilities port s
  | .negotiateAlgorithms port => Sys2Proof.Machine.execNegotiateAlgorithms port s
  | .getDigests port => Sys2Proof.Machine.execGetDigests port s
  | .getCertificate port => Sys2Proof.Machine.execGetCertificate port s
  | .challenge port => Sys2Proof.Machine.execChallenge port s
  | .getMeasurements port => Sys2Proof.Machine.execGetMeasurements port s
  | .spdmUnsupportedRequest port => Sys2Proof.Machine.execSpdmUnsupportedRequest port s
  | .packageReset => Sys2Proof.Machine.execPackageReset s
  | .dieBringup verified tested router version digest => Sys2Proof.Machine.execDieBringup verified tested router version digest s
  | .thermalStepdown die => Sys2Proof.Machine.execThermalStepdown die s
  | .thermalTrip => Sys2Proof.Machine.execThermalTrip s
  | .illegalSyllable slot word => Sys2Proof.Machine.execIllegalSyllable slot word s
  | .fetchPageFault cause addr => Sys2Proof.Machine.execFetchPageFault cause addr s
  | .flitReservedKind port hdr => Sys2Proof.Machine.execFlitReservedKind port hdr s
  | .flitFailsCheck port => Sys2Proof.Machine.execFlitFailsCheck port s
  | .pcieLinkUp port => Sys2Proof.Machine.execPcieLinkUp port s
  | .mailboxBadreq port => Sys2Proof.Machine.execMailboxBadreq port s

end Sys2Proof.Machine
end

