-- ==== Sys2Proof/Machine/Engines.lean ====
section
/-! DEFINITION. What the engines of a die begin in a cycle of their own accord: copy contexts, matrix and Prism queues,
collectives, handovers, launches, tasks, groups, spills, probes, scrubs, and the stop and start of a partition. -/

namespace Sys2Proof.Machine

/-- Add an entry unless one that p picks is pending. -/
def State.once (s : State) (p : Event → Bool) (add : State → State) : State := if s.pending p then s else add s

/-- The cores of a die that have any state, by number: compute cores, or control cores. -/
def State.coreList (s : State) (d : Nat) (control : Bool) : List Core :=
  s.cores.filter (fun k => k.die == d && (if control then decide (256 ≤ k.core) else decide (k.core < 256)))

/-- The partition of a die. -/
def State.partOfDie (s : State) (d : Nat) : Option Partition := s.parts.find? (fun p => p.dies.contains d)

/-! ### Launches, tasks and buffers -/

def isScrub (d c : Nat) : Event → Bool
  | .bufferScrub d' c' => d' == d && c' == c
  | _ => false

/-- A core whose launch has left begins its scrub: from now on it belongs to no launch (R37). -/
def State.scrubHouse (s : State) (k : Core) : State :=
  match k.owner with
  | none => s
  | some lid =>
    if k.scrubbing || s.coreInUse k lid then s
    else
      let r := (s.setCore { k with scrubbing := true }).freeDelay
      r.2.schedIn k.die r.1 rankEngine (.bufferScrub k.die k.core)

/-- The launch that a core can place now (R362): of several, the one that reserved the core first (log 109, DESIGN CHOICE). -/
def State.placeHouse (s : State) (k : Core) : State :=
  match (k.reserved.filterMap s.getLaunch?).find? (fun l => s.canPlace l k.die k.core) with
  | some l => s.schedIn k.die 0 rankEngine (.launchPlacement l.lid k.die k.core)
  | none => s

/-- A core with a free turn and a thread or record of its own to fill it (R39). -/
def State.dispatchHouse (s : State) (k : Core) : State :=
  if (s.freeTurns k.die k.core).isEmpty then s
  else if !(s.restorables k.die k.core).isEmpty || (s.arrival? k.die k.core).isSome ||
      (!(s.restorablesOf true k.die k.core).isEmpty && !s.wantsCore k.die k.core) then
    s.schedIn k.die 0 rankEngine (.taskDispatch k.die k.core)
  else s

/-- The engines of one compute core. -/
def State.coreHouse (s : State) (d c : Nat) : State :=
  let s1 := ((s.copyHouse d c).matHouse d c).prismHouse d c
  let s2 := s1.scrubHouse (s1.getCore d c)
  let s3 := s2.placeHouse (s2.getCore d c)
  s3.dispatchHouse (s3.getCore d c)

/-- The die's ready queue: one task, its ageing, stealing, and a shortage of turns (R36, R39-R41). -/
def State.taskHouse (s : State) (d : Nat) : State :=
  let s1 := match s.nextTask d with
    | some (_, c) => s.schedIn d 0 (rankEngine + 1) (.taskDispatch d c)
    | none => s
  let k := s1.getDie d
  let old := k.ready.any (fun r => r.here && decide (r.prio < 3) && decide (r.since + 2 ^ 20 ≤ k.now))
  let s2 := if old then s1.schedIn d 0 rankEngine (.taskAgeing d) else s1
  let ask := s2.dieIdle d && !k.stealing && k.stealBack == 0 && !(s2.stealOrder d).isEmpty
  let s3 := if ask then
      let r := s2.freeDelay
      s2.once (fun e => e == Event.stealRequest d) (fun _ => r.2.schedIn d r.1 rankEngine (.stealRequest d))
    else s2
  if (s3.shortage d).isSome then s3.schedIn d 0 rankEngine (.turnShortageSpill d) else s3

/-- Launches whose FANOUT a die carries: dependencies and ends (R363, R370). -/
def State.launchHouse (s : State) (d : Nat) : State :=
  (s.launches.filter (fun l => l.fanDie == d)).foldl (fun a l =>
    let a1 := (List.range 7).foldl (fun b t => if l.finished then b else b.markTriggered l.lid t) a
    let a2 := l.deps.foldl (fun b x =>
      if b.depMet x.1 x.2 then b.schedIn d 0 rankEngine (.dependencySatisfied l.lid x.1 x.2) else b) a1
    if a2.launchDone l || l.owed ≠ 0 then a2.schedIn d 0 (rankEngine + 2) (.launchFinish l.lid) else a2) s

/-! ### Groups (R56, R192) -/

/-- A frame instance that every member has reached: the last arrival reaches its own die in the cycle of the arrival, and
each other die of the group within the bound of R56. -/
def State.startFrames (s : State) (g : Group) : State :=
  if g.kind ≠ .frame || !g.starts.isEmpty || !s.allArrived g ||
      s.pending (fun e => match e with | .frameStart x _ => x == g.gid | _ => false) then s
  else
    let dies := ((s.liveMembers g.lid g.level g.key).map (·.die)).eraseDups
    dies.foldl (fun a e =>
      if e = g.lastDie then a.schedIn e 0 0 (.frameStart g.gid e)
      else
        let r := a.freeUpTo (groupBound (g.lastDie :: dies) - 1)
        r.2.schedIn e (r.1 + 1) 0 (.frameStart g.gid e)) s

/-- Frame instances are looked at after whatever may complete them. -/
def State.framesHouse (s : State) : State := s.groups.foldl (fun a g => a.startFrames g) s

/-- An instance that every member has reached: a barrier completes within the bound of R192. The writes that it covers are
brought forward, to be applied before it completes (R145). -/
def State.groupHouse (s : State) (d : Nat) (g : Group) : State :=
  if g.lastDie ≠ d || !s.allArrived g || g.complete then s
  else
    let dies := ((s.liveMembers g.lid g.level g.key).map (·.die)).eraseDups
    match g.kind with
    | .barrier =>
      s.once (fun e => e == Event.barrierComplete g.gid) (fun a =>
        let r := (a.expedite (a.liveIds g.ids)).freeUpTo (groupBound dies - 4)
        r.2.schedIn d (r.1 + 2) rankEngine (.barrierComplete g.gid))
    | .frame => s
    | .trigger => s
    | .exited => s

/-! ### One cycle of a die -/

/-- The boot brings up the next die (R479): it measures the image; what verification, self-test and training give is free. -/
def State.bootHouse (s : State) : State :=
  if s.kaolin.tripped || 18 ≤ s.kaolin.nextDie then s
  else s.once (fun e => match e with | .dieBringup .. => true | _ => false) (fun a =>
    let v := a.freeUpTo 1
    let t := v.2.freeUpTo 1
    let r := t.2.freeUpTo 65535
    let u := Config.freeBits 32 r.2.free
    let w := { r.2 with free := r.2.free + 1 }.freeDelay
    w.2.schedWall w.1 (.dieBringup v.1 t.1 r.1 u (sha256 (Config.bootImage s.kaolin.bootDie))))

/-- What the engines of a die begin in the cycle being served. -/
def State.tickHouse (s : State) (d : Nat) : State :=
  let s1 := (s.coreList d true).foldl (fun a k => a.copyHouse d k.core) (s.stretchHouse d)
  if (s1.getDie d).stopped then s1
  else
    let s2 := (s1.coreList d false).foldl (fun a k => a.coreHouse d k.core) s1
    let s3 := ((((s2.deliverLate d).collHouse d).pumpDie d).stackHouse d).taskHouse d
    let s4 := s3.launchHouse d
    let s5 := s4.groups.foldl (fun a g => a.groupHouse d g) s4
    (s5.probeHouse d).noticeHouse d

/-- The RESUME of a partition is taken up once its last die runs (R472). -/
def State.resumed (s : State) (p : Partition) : State :=
  if p.dies.any (fun d => (s.getDie d).stopped) then s
  else
    (s.mgmt.filter (fun m => m.begun && m.block.extractLsb' 0 8 == 7#8 && (m.block.extractLsb' 16 4).toNat == p.num)).foldl
      (fun a m => a.schedWall 0 (.resume m.mid)) s

/-- Between two rotations a die stops for the eviction of its partition, or runs on after its resumption (R51). -/
def State.rotationEdge (s : State) (d : Nat) : State :=
  let k := s.getDie d
  if k.cyc % 8 ≠ 7 then s
  else
    match s.partOfDie d with
    | none => s
    | some p =>
      if p.evicting && p.resident && !k.stopped then s.stopDie d
      else if p.resident && !p.evicting && k.stopped then (s.wakeDie d).resumed p
      else s

/-- The threads that a die serves in its current cycle, in core order (R17). -/
def State.served (s : State) (d : Nat) : List Nat :=
  let k := s.getDie d
  let ts := s.threads.filter (fun t => t.die == d && t.turn == k.cyc % 8 && t.occupies && t.spilled.isNone &&
    (!k.stopped || t.onControl))
  (ts.mergeSort (fun a b => decide (a.core ≤ b.core))).map (·.tid)

/-- The next cycle of a die begins: its turns are to be served and its engines act. -/
def State.tickDie (s : State) (d : Nat) : State :=
  let s1 := s.rotationEdge d
  let k := s1.getDie d
  let s2 := { s1 with wall := k.next, mem0 := s1.mem }.setDie { k with cyc := k.cyc + 1, next := k.next + k.period }
  { s2 with slots := s2.served d }.tickHouse d

/-- The order in which dies whose cycles fall together are served: that of their logical numbers, as R365 orders what they
charge to one place. -/
def State.dieKey (s : State) (d : Nat) : Nat :=
  match s.partOfDie d with
  | some p => p.dies.idxOf d * 32 + d
  | none => 1024 + d

/-- Wall time of the earliest entry that falls due by the wall, and the die whose next cycle comes first. -/
def State.nextWall (s : State) : Option Nat :=
  s.agenda.foldl (fun m e => match e.due, m with
    | .wall w, none => some w
    | .wall w, some v => some (Nat.min v w)
    | .cycle .., _ => m) none
def State.nextDie? (s : State) : Option Die :=
  (s.dies.filter (fun k => k.up && !k.dead)).foldl (fun (b : Option Die) k => match b with
    | none => some k
    | some q => if k.next < q.next || (k.next = q.next && s.dieKey k.die < s.dieKey q.die) then some k else b) none

/-- Nothing is due: time goes on to the next entry or the next cycle of a die. -/
def State.advance (s : State) : State :=
  let s0 := s.bootHouse
  match s0.nextWall, s0.nextDie? with
  | some w, some k => if w ≤ k.next then { s0 with wall := Nat.max s0.wall w } else s0.tickDie k.die
  | some w, none => { s0 with wall := Nat.max s0.wall w }
  | none, some k => s0.tickDie k.die
  | none, none => s0

end Sys2Proof.Machine
end

