-- ==== Sys2Proof/Machine/Events.lean ====
section
/-! DEFINITION. What an entry of the agenda does: the meaning of its row, the same that `exec` calls. -/

namespace Sys2Proof.Machine

/-- Carry out an entry of the agenda. -/
def runEvent (ev : Event) (s : State) : Out :=
  match ev with
  | .threadResume tid tpc => execThreadResume tid tpc s
  | .groupKill tid level => execGroupKill tid level s
  | .frameStart gid die => execFrameStart gid die s
  | .barrierComplete gid => execBarrierComplete gid s
  | .exitArrival tid => execExitArrival tid s
  | .regionStretch die region => execRegionStretch die region s
  | .stretchEnd die => execStretchEnd die s
  | .edgeHold die region => execEdgeHold die region s
  | .skewForcedStretch die region => execSkewForcedStretch die region s
  | .powerStep die freq => execPowerStep die freq s
  | .taskDispatch die core => execTaskDispatch die core s
  | .taskAgeing die => execTaskAgeing die s
  | .stealRequest die => execStealRequest die s
  | .stealAnswer die nb => execStealAnswer die nb s
  | .stealBackoffExpiry die => execStealBackoffExpiry die s
  | .turnShortageSpill die => execTurnShortageSpill die s
  | .spillComplete tid => execSpillComplete tid s
  | .bufferScrub die core => execBufferScrub die core s
  | .peerRequest rid => execPeerRequest rid s
  | .offCoreReply rid => execOffCoreReply rid s
  | .fanoutForward lid => execFanoutForward lid s
  | .fanoutHeaderRead lid => execFanoutHeaderRead lid s
  | .launchPlacement lid die core => execLaunchPlacement lid die core s
  | .launchFinish lid => execLaunchFinish lid s
  | .dependencySatisfied lid pid level => execDependencySatisfied lid pid level s
  | .spawnRecordArrival rid => execSpawnRecordArrival rid s
  | .migrationDepart tid => execMigrationDepart tid s
  | .migrationArrival tid die core => execMigrationArrival tid die core s
  | .forwardWindowExpiry die core tid => execForwardWindowExpiry die core tid s
  | .remoteReply rid => execRemoteReply rid s
  | .envelopeArrival die core port env => execEnvelopeArrival die core port env s
  | .creditArrival die core port => execCreditArrival die core port s
  | .probeLaunch tid => execProbeLaunch tid s
  | .probe tid => execProbe tid s
  | .copyStart die core ctx => execCopyStart die core ctx s
  | .copyUnit die core ctx => execCopyUnit die core ctx s
  | .copyComplete die core ctx => execCopyComplete die core ctx s
  | .completionNotice tid => execCompletionNotice tid s
  | .matrixStart die core num elapsed => execMatrixStart die core num elapsed s
  | .matrixComplete die core num => execMatrixComplete die core num s
  | .mmrotRingNotice die core num => execMmrotRingNotice die core num s
  | .mmrotTransfer die core num side cycle => execMmrotTransfer die core num side cycle s
  | .prismStart die core num elapsed => execPrismStart die core num elapsed s
  | .prismComplete die core num => execPrismComplete die core num s
  | .collStart die ctx => execCollStart die ctx s
  | .collSegment die ctx num => execCollSegment die ctx num s
  | .collComplete die ctx num => execCollComplete die ctx num s
  | .flitData port hdr off data => execFlitData port hdr off data s
  | .flitWindowAck port hdr => execFlitWindowAck port hdr s
  | .flitIdle port hdr => execFlitIdle port hdr s
  | .flitReplayRequest port hdr => execFlitReplayRequest port hdr s
  | .flitLinkControl port hdr => execFlitLinkControl port hdr s
  | .linkSilenceTimeout port => execLinkSilenceTimeout port s
  | .linkReplayLimit port => execLinkReplayLimit port s
  | .handoverStart die num => execHandoverStart die num s
  | .handoverFlip die num => execHandoverFlip die num s
  | .memoryRequest rid => execMemoryRequest rid s
  | .pageWalkComplete die part va => execPageWalkComplete die part va s
  | .xlinvComplete die num => execXlinvComplete die num s
  | .pageMigrateIn part va => execPageMigrateIn part va s
  | .pageMigrateOut part va host => execPageMigrateOut part va host s
  | .migrationEventAnswer part va leaf => execMigrationEventAnswer part va leaf s
  | .hysteresisExpiry part va => execHysteresisExpiry part va s
  | .quiesceComplete die => execQuiesceComplete die s
  | .partitionEvicted part => execPartitionEvicted part s
  | .wake fn q v => execWake fn q v s
  | .rbaseWrite fn q v => execRbaseWrite fn q v s
  | .rcfgWrite fn q v => execRcfgWrite fn q v s
  | .fctlWrite fn v => execFctlWrite fn v s
  | .mbevtClear port v => execMbevtClear port v s
  | .registerWrite fn bar off v => execRegisterWrite fn bar off v s
  | .commandFetch fn q => execCommandFetch fn q s
  | .commandStart cid => execCommandStart cid s
  | .commandComplete cid => execCommandComplete cid s
  | .launch cid => execLaunch cid s
  | .pipe cid => execPipe cid s
  | .signal cid => execSignal cid s
  | .waitsig cid => execWaitsig cid s
  | .waitsigTimeout cid => execWaitsigTimeout cid s
  | .copyh cid => execCopyh cid s
  | .handoffq cid => execHandoffq cid s
  | .pipeStageStart cid => execPipeStageStart cid s
  | .channelTeardown chan => execChannelTeardown chan s
  | .functionLevelReset fn => execFunctionLevelReset fn s
  | .hotReset port => execHotReset port s
  | .bar2Access fn write off len v => execBar2Access fn write off len v s
  | .pluginCall v => execPluginCall v s
  | .pluginOverrun tid => execPluginOverrun tid s
  | .heartbeat die => execHeartbeat die s
  | .timeSliceExpiry fn q => execTimeSliceExpiry fn q s
  | .budgetPeriod part => execBudgetPeriod part s
  | .hostTrapAnswer tid kill => execHostTrapAnswer tid kill s
  | .pform mid => execPform mid s
  | .pdiss mid => execPdiss mid s
  | .keyld mid => execKeyld mid s
  | .stkmove mid => execStkmove mid s
  | .pool mid => execPool mid s
  | .evict mid => execEvict mid s
  | .resume mid => execResume mid s
  | .memcfg mid => execMemcfg mid s
  | .xroot mid => execXroot mid s
  | .gtab mid => execGtab mid s
  | .budget mid => execBudget mid s
  | .swin mid => execSwin mid s
  | .croute mid => execCroute mid s
  | .fassign mid => execFassign mid s
  | .qmap mid => execQmap mid s
  | .qunmap mid => execQunmap mid s
  | .hyst mid => execHyst mid s
  | .pload mid => execPload mid s
  | .tslice mid => execTslice mid s
  | .fpool mid => execFpool mid s
  | .kill mid => execKill mid s
  | .fwload port => execFwload port s
  | .fwact port => execFwact port s
  | .quiesceTimeout io => execQuiesceTimeout io s
  | .updateTimeout io => execUpdateTimeout io s
  | .logrd port => execLogrd port s
  | .mgmt port => execMgmt port s
  | .getVersion port => execGetVersion port s
  | .getCapabilities port => execGetCapabilities port s
  | .negotiateAlgorithms port => execNegotiateAlgorithms port s
  | .getDigests port => execGetDigests port s
  | .getCertificate port => execGetCertificate port s
  | .challenge port => execChallenge port s
  | .getMeasurements port => execGetMeasurements port s
  | .spdmUnsupportedRequest port => execSpdmUnsupportedRequest port s
  | .packageReset => execPackageReset s
  | .dieBringup verified tested router version digest => execDieBringup verified tested router version digest s
  | .thermalStepdown die => execThermalStepdown die s
  | .thermalTrip => execThermalTrip s
  | .flitReservedKind port hdr => execFlitReservedKind port hdr s
  | .flitFailsCheck port => execFlitFailsCheck port s
  | .pcieLinkUp port => execPcieLinkUp port s
  | .mailboxBadreq port => execMailboxBadreq port s
  | .groupMove part dies => execGroupMove part dies s
  | .hostRead fn bar off => execHostRead fn bar off s
  | .hostStore port addr n v => execHostStore port addr n v s
  | .hostTurn port => execHostTurn port s
  | .msix fn vec => execMsix fn vec s
  | .correctedError die cls => execCorrectedError die cls s
  | .flitReceived port flit => execFlitReceived port flit s

end Sys2Proof.Machine
end

