-- ==== Sys2Proof/Machine/Issue.lean ====
section
/-! DEFINITION. One step: an entry of the agenda that is due, or the slot of a thread in the cycle being served (R17, R18,
R34, R57-R60, R75, R83), or the passage of time. -/

namespace Sys2Proof.Machine

/-- What follows an outcome that is a next state. -/
def andThen (o : Out) (f : State → Out) : Out :=
  match o with
  | .next s => f s
  | .fault r => .fault r
  | .refused r => .refused r

/-- How a syllable left the bundle. -/
def stopOf : Out → Stop
  | .next s => s.bun.stop
  | _ => .none

/-! ### The thread in the issue stage -/

def State.checkout (s : State) (t : Thread) : State := { s with me := t, pre := t, bun := Bundle.init }
/-- It goes back to its turn. -/
def State.commit (s : State) : State :=
  { s with threads := upsert (fun x => x.tid == s.me.tid) s.me s.threads, me := Thread.init, pre := Thread.init
           bun := Bundle.init }

/-- The read stage sees the thread as it stands now (R83). -/
def State.reread (s : State) : State := { s with pre := s.me }

/-- Instructions of class S that act after the rest of their bundle (R193, R195, R196, R465). -/
def actsLast (s : State) : Instr → Bool
  | .trap _ => true
  | .brk _ => true
  | .rte => true
  | .exit _ => true
  | .sysw _ r _ => r == 0x100#10 && s.pre.priv == .supervisor
  | _ => false

/-- A syllable carried out on the bundle's state, with its class. -/
structure Trial where
  cls : Nat
  instr : Option Instr
  out : Out

/-- VMM, whose reads see the A-slot access of its bundle (R151, R256). -/
def isVmm : Instr → Bool
  | .vmm .. => true
  | _ => false

/-- What a VMM of a bundle is tried against: the state that the bundle's A-slot access leaves, if it takes effect. -/
def State.afterA (s : State) (items : List Item) : State :=
  match items.find? (fun x => match x with | .syl 1 _ => true | _ => false) with
  | some (.syl _ i) => (match exec i s with
    | .next t => if t.bun.stop = .none then t else s
    | _ => s)
  | _ => s

/-- Every syllable tried alone against the read stage. -/
def State.trials (s : State) (items : List Item) : List Trial :=
  items.map (fun x => match x with
    | .syl c i => { cls := c, instr := some i, out := exec i (if isVmm i then s.afterA items else s) }
    | .bad slot w => { cls := slot, instr := none, out := execIllegalSyllable slot w s })

/-- Carry out instructions one after another. -/
def runAll : List Instr → State → Out
  | [], s => .next s
  | i :: r, s => andThen (exec i s) (runAll r)

/-- Carry out the syllables that hold the bundle: each registers what it waits for (R34). -/
def holdAll : List Instr → State → Out
  | [], s => .next s
  | i :: r, s => andThen (exec i { s with bun := { s.bun with stop := .none } }) (holdAll r)

/-- SCNT advances as the bundle takes effect, before TRAP or BRK traps (R119, R195). -/
def State.bumpCount (s : State) : State :=
  if s.bun.rndWritten || s.bun.counts = 0 then s
  else
    let c := ((s.pre.rnd.extractLsb' 8 24).toNat + s.bun.counts) % 2 ^ 24
    { s with me := { s.me with rnd := BitVec.ofNat 32 (c * 256) ||| (s.me.rnd &&& 0xFF#32) } }

/-- The bundle takes effect: its syllables in class order, those that act last after the others, then its release. -/
def State.takeEffect (s : State) (is : List Instr) : Out :=
  andThen (runAll (is.filter (fun i => !actsLast s i)) s) (fun s1 =>
    if s1.bun.stop ≠ .none then .next s1
    else
      let late := is.filter (actsLast s)
      let s2 := if late.any (fun i => match i with | .trap _ => true | .brk _ => true | _ => false) then
          { s1.bumpCount with me := { s1.bumpCount.me with target := none, since := 0, recvFrom := 0 } } else s1
      andThen (runAll late s2) (fun s3 =>
        if s3.bun.stop ≠ .none then .next s3 else execBundleRelease s3))

/-- The first trial that left the bundle for a reason. -/
def firstStop (ts : List Trial) (p : Stop → Bool) : Option Trial := ts.find? (fun t => p (stopOf t.out))

/-- A group that spans dies: a stamped BAR of it cannot pass its check (R192). -/
def State.spansDies (s : State) (g : Group) : Bool :=
  decide (1 < ((s.allThreads.filter (fun t => t.inGroup g.lid g.level g.key)).map (·.die)).eraseDups.length)

/-- The check of a stamped BAR by the first bundle that issues after its position s + 2 (R59, R60): overdue instances
that have completed are left; the first that has not traps. Where several are overdue at one bundle, that bundle has made
the check of each: the first incomplete one, in the order of their BARs, is recorded and the others are not checked again
after the resumption (the model's choice, log 27, DESIGN CHOICE). -/
def State.barrierDue (s : State) : State × Bool :=
  let z := s.cycleReg s.pre.die
  let due := s.pre.barChk.filter (fun b => decide (b.2.2.2 < z))
  let done := fun (b : Nat × W64 × W32 × Nat) => match s.getGroup? b.1 with
    | some g => g.complete && !s.spansDies g
    | none => true
  let rest := fun (t : Thread) => { t with barChk := t.barChk.filter (fun b => z ≤ b.2.2.2) }
  match due.find? (fun b => !done b) with
  | some b =>
    let s1 := { s with me := rest s.me, pre := rest s.pre }
    (s1.trapBundle .first tcOverrun (BitVec.ofNat 32 (2 ^ 23 + 2 ^ 21) ||| b.2.2.1) b.2.1, true)
  | none =>
    let s1 := due.foldl (fun a b => a.departGroup b.1 s.me.tid) s
    ({ s1 with me := rest s1.me, pre := rest s1.pre }, false)

/-- The bundle issues: the barrier checks that fall to it are made first (R59). Which overrun is recorded, when a bundle
fails this check and another of R58, is the model's choice (log 28, DESIGN CHOICE): the others rank first, since a bundle that fails them
does not issue. -/
def State.issueBundle (s : State) (is : List Instr) : Out :=
  let r := s.barrierDue
  if r.2 then .next r.1 else r.1.takeEffect is

/-- The outcome of an attempt whose syllables pass the checks of the first attempt (R34, R75, R267). -/
def State.attemptAll (s : State) (ts : List Trial) : Out :=
  let is := ts.filterMap (·.instr)
  let blocked := ts.any (fun t => stopOf t.out == .held || stopOf t.out == .attempt)
  if blocked then
    match firstStop ts (fun k => k == .attempt || k == .check) with
    | some t => t.out
    | none =>
      let hs := (ts.filter (fun t => stopOf t.out == .held)).filterMap (·.instr)
      if s.pre.stamped then holdAll (hs.take 1) s else holdAll hs s
  else
    match firstStop ts (fun k => k == .check || k == .trap) with
    | some t => t.out
    | none =>
      match firstStop ts (fun k => k == .report) with
      | some t => t.out
      | none => s.issueBundle is

/-- The thread reaches the bundle for the first time (R58). -/
def Thread.fresh (t : Thread) : Bool := t.target.isNone && t.st != .blocked

/-- A bundle whose first-attempt checks have passed. A stamped one waits for its target in null bundles (R57); where its
first attempt is earlier, the checks that its blocking syllables make at every attempt are made there too (R267, R280). -/
def State.attemptNow (s : State) (first : Bool) (ts : List Item) : Out :=
  let wait := match s.pre.target with
    | some g => s.pre.stamped && decide (s.cycleReg s.pre.die < g)
    | none => false
  if wait then
    match (if first then firstStop (s.trials ts) (fun k => k == .attempt || k == .check) else none) with
    | some t => t.out
    | none => execNullBundle s
  else s.attemptAll (s.trials ts)

/-- A bundle of well-formed shape (R75): at the first attempt ILLEGAL_SYLLABLE, PRIVILEGE and the first-attempt checks. -/
def State.attemptBundle (s : State) (b : Parsed) : Out :=
  let pass := fun (q : State) => { q with bun := { q.bun with checked := true } }
  if !s.pre.fresh then (pass s).attemptNow false b.items
  else
    let ts := s.trials b.items
    match firstStop ts (· == .illegal) with
    | some t => t.out
    | none =>
      match firstStop ts (· == .privilege) with
      | some t => t.out
      | none =>
        let z := s.cycleReg s.pre.die
        let fail := fun (q : State) (c : BitVec 8 × W32) => Host.Outcome.next (q.trapBundle .first c.1 c.2 0)
        match s.pre.firstCheck b z with
        | some c => fail s c
        | none =>
          andThen (if s.pre.stamped then execStampTarget s else .next s) (fun s1 =>
            match s1.pre.firstCheck b z with
            | some c => fail s1 c
            | none =>
              match firstStop (s1.trials b.items) (· == .first) with
              | some t => t.out
              | none => (pass s1).attemptNow true b.items)

/-- The stamp of a bundle takes effect as its syllable (R57, R70). -/
def State.readStamp (s : State) (b : Parsed) : Out :=
  match b.stamp with
  | none => .next s
  | some w =>
    match decode [w] with
    | .ok i => exec i s
    | .error _ => .next s

/-- The bundle at the program counter is attempted. At its first attempt it is fetched and its form checked (R73, R66,
R75); later attempts go on with the packet fetched then. -/
def State.attempt (s : State) : Out :=
  let run := fun (q : State) (b : Parsed) =>
    andThen ({ q with bun := { q.bun with next := b.next, words := b.words } }.readStamp b) (fun r => r.attemptBundle b)
  match s.pre.packet with
  | some p => run s (parseBundle p s.pre.pc)
  | none =>
    match s.fetchPacket s.pre (packetAddr s.pre.pc) with
    | (.error c, s1) => if c = fetchWaits then execNullBundle s1 else execFetchPageFault c.toNat s.pre.pc s1
    | (.ok p, s1) =>
      let b := parseBundle p s.pre.pc
      if b.form then .next (s1.trapBundle .illegal tcForm 0 0)
      else run { s1 with me := { s1.me with packet := some p }, pre := { s1.pre with packet := some p } } b

/-- What passes in a rotation for the thread of the issue stage, whatever it issues: long results and snapshot entries
land, and its frame goes on (R85, R174, R55). -/
def State.rotate (s : State) : Out :=
  andThen (execLongResultLanding s) (fun s1 =>
    andThen (execSnapshotLanding s1) (fun s2 =>
      andThen (if s2.me.frRun then execFrameWrap s2 else .next s2) (fun s3 => .next s3.reread)))

/-- The issue cycle of a thread (R17, R18, R193, R257, R273). -/
def State.issueSlot (s : State) : Out :=
  if s.me.exiting then .next (s.leave s.me.tid)
  -- a thread that the spill engine has stopped issues null bundles, and its long results stand still (R434)
  else if s.me.spilling then execNullBundle s
  else
    andThen s.rotate (fun s1 =>
      match s1.me.dlk, s1.me.st with
      | some (n, pos, l), .blocked => .next (s1.deadlock s1.me n pos l)
      | _, st =>
        if st = .trapped || st = .exited || st = .moving || s1.me.spilled.isSome then execNullBundle s1
        else if s1.me.vdly ≠ 0 then execVmmDelayEnd s1
        else s1.attempt)

/-- The slot of a thread. -/
def State.serveSlot (s : State) (tid : Nat) : Out :=
  match s.getThread? tid with
  | none => .next s
  | some t =>
    if t.again then andThen (s.checkout { t with again := false }).attempt (fun s1 => .next s1.commit)
    else andThen (s.checkout t).issueSlot (fun s1 => .next s1.commit)

/-! ### The order of a step -/

/-- Where an entry stands among those that are due: 0 by the wall, 1 in its cycle, 2 late in its cycle. -/
def Due.order : Due → Nat × Nat × Nat
  | .wall w => (0, w, 0)
  | .cycle _ c r => (if rankLate ≤ r then 2 else 1, c, r)

/-- One entry comes before another. -/
def Due.before (a b : Due) : Bool :=
  let x := a.order
  let y := b.order
  decide (x.1 < y.1) || (x.1 == y.1 && (decide (x.2.1 < y.2.1) || (x.2.1 == y.2.1 && decide (x.2.2 < y.2.2))))

/-- An entry is due. -/
def State.isDue (s : State) (d : Due) : Bool :=
  match d with
  | .wall w => decide (w ≤ s.wall)
  | .cycle e c _ => decide (c ≤ (s.getDie e).cyc)

/-- The place of an operation that an arrival belongs to in the order of issue (R151). -/
def State.issueOrder (s : State) : Event → Nat
  | .peerRequest r => r
  | .memoryRequest r => r
  | .copyUnit d c x => (match (s.copyCtx d c x).queue with
    | o :: _ => o.iss.oid
    | [] => 0)
  | _ => 0

/-- The first of the entries that are due, late ones or the others; arrivals with equal keys in the order of issue (R151). -/
def State.dueEntry (s : State) (late : Bool) : Option Pending :=
  let l := s.agenda.filter (fun e => s.isDue e.due && ((e.due.order.1 == 2) == late))
  l.foldl (fun m e => match m with
    | none => some e
    | some q =>
      if e.due.before q.due || (!q.due.before e.due && decide (s.issueOrder e.ev < s.issueOrder q.ev)) then some e else some q) none

/-- Take an entry off the agenda and carry it out. -/
def State.runEntry (s : State) (e : Pending) : Out := runEvent e.ev { s with agenda := s.agenda.erase e }

/-- Saved contexts that have changed are written to their images again (R122, R273). -/
def State.savesHouse (s : State) : State := (s.threads.filter (·.stale)).foldl (fun a t => a.resave t) s

/-- What follows whatever a step has done. -/
def State.afterStep (s : State) : State := s.framesHouse.savesHouse

/-- One step: what is due, the next slot of the cycle, what is due late, or the passage of time. -/
def State.turn (s0 : State) : Out :=
  let s := { s0 with tick := s0.tick + 1 }
  match s.dueEntry false with
  | some e => andThen (s.runEntry e) (fun s1 => .next s1.afterStep)
  | none =>
    match s.slots with
    | t :: r => andThen ({ s with slots := r }.serveSlot t) (fun s1 => .next s1.afterStep)
    | [] =>
      match s.dueEntry true with
      | some e => andThen (s.runEntry e) (fun s1 => .next s1.savesHouse)
      | none => .next s.advance

end Sys2Proof.Machine
end

