-- ==== Sys2Proof/Machine/Step.lean ====
section
/-! DEFINITION. The step of the machine, and a machine about to fetch a given word. -/

namespace Sys2Proof.Machine

/-- One step. -/
def step (s : State) : Host.Outcome State Fault Refusal := s.turn

/-- The virtual address of the word that `withFetchWord` places: a fetch packet of its own. -/
def fetchPc : W64 := 0x10000

/-- The words of the packet for a word of the table: an issue stamp stands behind a NOP, and every other word starts its
bundle (log 8, DESIGN CHOICE); PAD fills the rest. -/
def fetchPacketFor (w : Nat) : BitVec 256 :=
  let v := BitVec.ofNat 32 w
  let pad := BitVec.allOnes 256 &&& ~~~(packElems 256 32 (fun _ => 0x80000000#32) 8)
  if wordClass v = 5 then setElem 32 (setElem 32 pad 0 0x80000000#32) 1 v
  else setElem 32 pad 0 (v ||| 0x80000000#32)

/-- A launch of one thread on core 0 of die 0, carried by die 0. -/
def fetchLaunch (lid : Nat) : Launch :=
  { (default : Launch) with lid := lid, part := 0, accepted := true, reached := [(0, 0)], place := 0x0000010100000001#64
                            placed := [(0, 0)], entry := fetchPc }

/-- The state with a word as the next instruction (log 7, DESIGN CHOICE): the package has booted as far as die 0, a partition of that
die and its stack maps the first GiB of virtual addresses onto itself, and a launch has placed one thread, whose slot
in this cycle is the next to be served. -/
def State.withFetchWord (s : State) (_nbits w : Nat) : State :=
  let lid := s.nextId
  let tid := s.nextId + 1
  let t : Thread := { Thread.init with tid := tid, lid := lid, st := .running, pc := fetchPc, frLen := 1048576 }
  let p := { newPartition 0 [0] [0] 0 with root := 0x1000 }
  let s1 := ((((s.store (stackKey 0 0x1000) 8 (0x2011#64)).store (stackKey 0 0x2000) 8 (0x3011#64)).store
    (stackKey 0 0x3000) 8 (0x9F#64)).store (stackKey 0 0x10000) 32 (fetchPacketFor w))
  { s1 with
    mem0 := s1.mem, ecc := [], me := Thread.init, pre := Thread.init, bun := Bundle.init, nextId := s.nextId + 2
    agenda := [], slots := [tid], threads := [t], launches := [fetchLaunch lid], parts := [p], stackPort := 0
    cores := [{ Core.init 0 0 with owner := some lid }]
    dies := [{ Die.init 0 with up := true, routerOk := true, cyc := 8, base := 8 }] }

end Sys2Proof.Machine
end

