-- ==== Sys2Proof/Safety.lean ====
section
/-! DEFINITION. The words the statements are written in: what it is for an instruction to complete, to write one register
and nothing else, and to trap. -/

namespace Sys2Proof.Machine

/-- `exec i s` answers a next state, of which P holds. -/
def Completes (i : Instr) (s : State) (P : State → Prop) : Prop := ∃ t, exec i s = .next t ∧ P t

/-- t is s with v in register r of the x file, every other register and every other part of the state as before; x0 is
never written (R79). The results and remote deliveries under way to a register that is written are cancelled (R86,
R223). -/
def WritesX (s t : State) (r : Nat) (v : W32) : Prop :=
  let u := if r = 0 then s else s.cancelTo 0 r
  (∀ k, k < 32 → rd t.me.x k = if k = r ∧ k ≠ 0 then v else rd s.me.x k) ∧
    t = { u with me := { u.me with x := t.me.x } }

/-- The same for the a file. -/
def WritesA (s t : State) (r : Nat) (v : W64) : Prop :=
  let u := s.cancelTo 1 r
  (∀ k, k < 16 → rd t.me.a k = if k = r then v else rd s.me.a k) ∧ t = { u with me := { u.me with a := t.me.a } }

/-- The same for the k file: k0 is never written (R79). -/
def WritesK (s t : State) (r : Nat) (v : W64) : Prop :=
  let u := if r = 0 then s else s.cancelTo 3 r
  (∀ k, k < 8 → rd t.me.k k = if k = r ∧ k ≠ 0 then v else rd s.me.k k) ∧
    t = { u with me := { u.me with k := t.me.k } }

/-- t is s with register r of the v file written so that `P` holds of it, every other register and every other part of the
state as before. -/
def WritesV (s t : State) (r : Nat) (P : VReg → Prop) : Prop :=
  let u := s.cancelTo 2 r
  P (rd t.me.v r) ∧ (∀ k, k < 16 → k ≠ r → rd t.me.v k = rd s.me.v k) ∧
    t = { u with me := { u.me with v := t.me.v } }

/-- The same for a condition, a q-, an e- and an h-register, to which nothing is delivered late. -/
def WritesC (s t : State) (r : Nat) (v : Bool) : Prop :=
  (∀ k, k < 8 → t.me.c.getLsbD k = if k = r then v else s.me.c.getLsbD k) ∧
    t = { s with me := { s.me with c := t.me.c } }
def WritesQ (s t : State) (r : Nat) (v : QReg) : Prop :=
  (∀ k, k < 8 → rd t.me.q k = if k = r then v else rd s.me.q k) ∧ t = { s with me := { s.me with q := t.me.q } }
def WritesE (s t : State) (r : Nat) (v : W64) : Prop :=
  (∀ k, k < 8 → rd t.me.e k = if k = r then v else rd s.me.e k) ∧ t = { s with me := { s.me with e := t.me.e } }
def WritesH (s t : State) (r : Nat) (v : W64) : Prop :=
  (∀ k, k < 8 → rd t.me.h k = if k = r then v else rd s.me.h k) ∧ t = { s with me := { s.me with h := t.me.h } }

/-- i completes and writes v to register r of the x file, and nothing else. -/
def PutsX (i : Instr) (s : State) (r : BitVec 5) (v : W32) : Prop := Completes i s (fun t => WritesX s t r.toNat v)
/-- i completes and writes to register r of the x file a value of which P holds, and nothing else. -/
def PutsXOf (i : Instr) (s : State) (r : BitVec 5) (P : W32 → Prop) : Prop := ∃ v, P v ∧ PutsX i s r v

/-- A long operation (R85, R86): it completes, its destination is undefined until the result v lands, n rotations after
its issue, and everything else is as before. -/
def PutsLong (i : Instr) (s : State) (r : BitVec 5) (n : Nat) (v : W32) : Prop :=
  Completes i s (fun t =>
    let u := if r = 0#5 then s else s.cancelTo 0 r.toNat
    (∀ k, k < 32 → k ≠ r.toNat ∨ k = 0 → rd t.me.x k = rd s.me.x k) ∧
    t = { u with
          me := { u.me with
            x := t.me.x, undefs := s.me.undefs + 1
            longs := u.me.longs ++ [{ file := .x, reg := r.toNat, value := v.setWidth 2048, left := n, flags := 0,
                                      latched := false, snap := false, cancelled := r == 0#5 }] } })

/-- The word at a, a multiple of 4, is fetched, leaving the state s1, and starts a bundle (R72, R73). -/
def StartsBundle (s : State) (a : W64) (s1 : State) : Prop :=
  a.toNat % 4 = 0 ∧ ∃ p, s.fetchPacket s.pre (packetAddr a) = (.ok p, s1) ∧ (packetWord p a).getLsbD 31 = true
/-- What is fetched at a, leaving the state s1, starts no bundle: a is no multiple of 4, or its word has B = 0. -/
def StartsNone (s : State) (a : W64) (s1 : State) : Prop :=
  ∃ p, s.fetchPacket s.pre (packetAddr a) = (.ok p, s1) ∧ (a.toNat % 4 ≠ 0 ∨ (packetWord p a).getLsbD 31 = false)

/-- The bundle transfers control to a. -/
def State.goTo (s : State) (a : W64) : State := { s with bun := { s.bun with taken := some a } }

/-- t is s with the n bytes from a key holding the little-endian number v, every other byte and every other part of the state
as before; granules that the bytes cover lose their uncorrectable error (R487). -/
def StoresAt (s t : State) (key n v : Nat) : Prop :=
  (∀ b, memGet t.mem b = if key ≤ b ∧ b < key + n then BitVec.ofNat 8 (v / 256 ^ (b - key)) else memGet s.mem b) ∧
    t = { s with mem := t.mem, ecc := s.ecc.filter (fun g => !(decide (key ≤ 8 * g) && decide (8 * g + 8 ≤ key + n))) }

/-- The state that a post-increment leaves: in mode 10 the base register moves by the scaled offset, in the others nothing
changes (R204). -/
def BaseMoved (s u : State) (m : BitVec 2) (a : BitVec 4) (by' : W64) : Prop :=
  if m = 2#2 then WritesA s u a.toNat (s.ra a.toNat + by') else u = s

/-- u is s after accesses to the core's own buffers have been noted for the orders of R142-R147 (log 38, DESIGN CHOICE): what the thread and
its core have seen, what releases hand on, which writes a collective has to ask about, and when requests under way reach their
homes. Nothing that a program reads
differs. -/
def Noted (s u : State) : Prop :=
  u = { s with
    msgs := u.msgs, cores := u.cores, reqs := u.reqs, agenda := u.agenda, dies := u.dies, parts := u.parts, touched := u.touched
    me := { s.me with seen := u.me.seen, got := u.me.got } } ∧
  (∀ d c, { u.getCore d c with locals := [] } = { s.getCore d c with locals := [] }) ∧
  u.reqs.map (fun q => { q with rush := false }) = s.reqs.map (fun q => { q with rush := false }) ∧
  u.parts.map (fun p => { p with holding := [] }) = s.parts.map (fun p => { p with holding := [] }) ∧
  ∀ d, { u.getDie d with frozen := [] } = { s.getDie d with frozen := [] }

/-- u is s after a release or an acquire of the thread in the issue stage (R145): which writes its later accesses and its die
see has changed (log 38, DESIGN CHOICE), and no register, no byte of memory and nothing else of the machine. -/
def Ordered (s u : State) : Prop :=
  u = { s with
    late := u.late, reqs := u.reqs, agenda := u.agenda, dies := u.dies, parts := u.parts, scLog := u.scLog
    me := { s.me with
      seen := u.me.seen, got := u.me.got, before := u.me.before, carry := u.me.carry, reads := u.me.reads } } ∧
  u.reqs.map (fun q => { q with rush := false, shown := 0 }) = s.reqs.map (fun q => { q with rush := false, shown := 0 }) ∧
  u.parts.map (fun p => { p with holding := [] }) = s.parts.map (fun p => { p with holding := [] }) ∧
  ∀ d, { u.getDie d with frozen := [] } = { s.getDie d with frozen := [] }

/-- A long result that a trap latches (R174): it has not been cancelled, and where the trapping bundle took effect itself
(`after`), it does not land before the bundle that resumes. -/
def snapped (after : Bool) (g : Long) : Bool := !g.cancelled && (g.latched || !(after && decide (g.left ≤ 1)))

/-- rec is the trap record of R175 for thread m; SNAP fills its four bits from the low end (log 22, DESIGN CHOICE). -/
def RecordFields (s : State) (m : Thread) (rec : BitVec 512) (cause : BitVec 8) (slot : Nat) (run after : Bool) (detail : W32)
    (tpc addr : W64) (syl : W32) : Prop :=
  rec.extractLsb' 0 8 = cause ∧ rec.extractLsb' 8 8 = BitVec.ofNat 8 slot ∧ rec.extractLsb' 16 8 = BitVec.ofNat 8 m.turn ∧
  rec.extractLsb' 24 8 = BitVec.ofNat 8 ((if run then 1 else 0) + (if m.priv.isSys then 2 else 0)) ∧
  rec.extractLsb' 32 32 = detail ∧ rec.extractLsb' 64 64 = m.pc ∧ rec.extractLsb' 128 64 = tpc ∧
  rec.extractLsb' 192 64 = m.wid ∧ rec.extractLsb' 256 64 = BitVec.ofNat 64 (s.cycleReg m.die) ∧
  rec.extractLsb' 320 32 = m.frameReg (s.cycleReg m.die) ∧ rec.extractLsb' 352 32 = s.loc m ∧
  rec.extractLsb' 384 64 = addr ∧ rec.extractLsb' 448 32 = (if slot = 7 then 0 else syl) ∧
  rec.extractLsb' 480 32 = BitVec.ofNat 32 (2 ^ min 4 (m.longs.filter (snapped after)).length - 1)

/-- The registers of a thread that a program reads and that a trap leaves alone. -/
def SameRegisters (m n : Thread) : Prop :=
  n.x = m.x ∧ n.a = m.a ∧ n.v = m.v ∧ n.k = m.k ∧ n.q = m.q ∧ n.e = m.e ∧ n.h = m.h ∧ n.c = m.c ∧ n.lc = m.lc ∧
  n.ls = m.ls ∧ n.le = m.le ∧ n.rnd = m.rnd ∧ n.fflags = m.fflags ∧ n.seed = m.seed ∧ n.dscale = m.dscale ∧
  n.tvec = m.tvec ∧ n.trec = m.trec ∧ n.wid = m.wid ∧ n.widf = m.widf ∧ n.ext = m.ext ∧ n.ctl = m.ctl ∧ n.priv = m.priv

/-- t is the state in which thread m of the issue stage of s has trapped to the control cores (R173): its resumption address
and cause are saved, a record of the trap stands behind those already there, and the thread's other registers and memory
are as they were. -/
def TrappedOut (s t : State) (m : Thread) (cause : BitVec 8) (slot : Nat) (after : Bool) (detail : W32) (tpc addr : W64)
    (syl : W32) : Prop :=
  t.me.st = .trapped ∧ t.me.pc = m.pc ∧ t.me.tpc = tpc ∧
  t.me.tcause = (m.tcause &&& 0xFFFFFF00#32) ||| cause.setWidth 32 ∧ SameRegisters m t.me ∧
  (∀ g, g ∈ t.me.longs → snapped after g = true → g.latched = true) ∧ t.mem = s.mem ∧
  ∃ r, t.traps = s.traps ++ [r] ∧ r.tid = m.tid ∧ r.die = m.die ∧
    RecordFields s m r.rec512 cause slot false after detail tpc addr syl

/-- An asynchronous request of the thread of the issue stage is on its way (R219): the next number of its remote context is
taken, h holds the handle, and one request for the bytes at ad is in flight. -/
def RemoteIssued (s t : State) (h : Nat) (ad : W64) (size : Nat) (P : Req → Prop) : Prop :=
  let num := seqNext s.me.rc.i
  t.me.rc.i = num ∧ rd t.me.h h = mkHandle 1 0 s.pre.turn num ∧
  (∀ k, k < 8 → k ≠ h → rd t.me.h k = rd s.me.h k) ∧ t.mem = s.mem ∧ t.me.c = s.me.c ∧ t.me.q = s.me.q ∧
  t.me.e = s.me.e ∧ t.me.fflags = s.me.fflags ∧
  (∃ q, q ∈ t.reqs ∧ q.rid = s.nextId ∧ q.addrs = [ad] ∧ q.size = size ∧ q.sync = false ∧ q.applied = false ∧
    q.iss.num = num ∧ q.iss.tid = s.pre.tid ∧ q.noDeliver = false ∧ P q) ∧
  ∃ e, e ∈ t.agenda ∧ e.ev = if addrForm ad < 2 then .memoryRequest s.nextId else .peerRequest s.nextId

/-- Registers of the files x, a, v and k, numbered 0 to 3, are as before but for register r of file f. -/
def SameButOne (s t : State) (f r : Nat) : Prop :=
  (∀ k, k < 32 → ¬ (f = 0 ∧ k = r) → rd t.me.x k = rd s.me.x k) ∧
  (∀ k, k < 16 → ¬ (f = 1 ∧ k = r) → rd t.me.a k = rd s.me.a k) ∧
  (∀ k, k < 16 → ¬ (f = 2 ∧ k = r) → rd t.me.v k = rd s.me.v k) ∧
  (∀ k, k < 8 → ¬ (f = 3 ∧ k = r) → rd t.me.k k = rd s.me.k k)

/-! ### Vector results (R228, R229) -/

/-- The new vector holds g's element e of lane l in every lane of the mask, and the old word in every other. -/
def ElemsAre (w : Nat) (k : W64) (old new : VReg) (g : Nat → Nat → Nat) : Prop :=
  ∀ l, l < 64 →
    (k.getLsbD l = false → elem 32 new l = elem 32 old l) ∧
    (k.getLsbD l = true → ∀ e, e < 32 / w → elem w new (32 / w * l + e) = BitVec.ofNat w (g l e))

/-- A flag is raised when an element of an active lane raises it. -/
def FlagsAre (w : Nat) (k : W64) (f : Flags) (g : Nat → Nat → Flags) : Prop :=
  ∀ j, j < 7 → (f.getLsbD j = true ↔
    ∃ l e, l < 64 ∧ e < 32 / w ∧ k.getLsbD l = true ∧ (g l e).getLsbD j = true)

/-- A syllable that rounds takes one counter value in mode 5 (R119). -/
def State.countsOf (s : State) (rounds : Bool) : Nat :=
  if rounds = true ∧ s.pre.rnd.toNat % 8 = 5 then s.bun.counts + 1 else s.bun.counts

/-- i completes and writes, under mask k, the elements g of width w to register d of the v file, with their flags; every other
part of the state is as before. -/
def VMaps (i : Instr) (s : State) (d : Nat) (k : W64) (w : Nat) (rounds : Bool) (g : Nat → Nat → Nat × Flags) : Prop :=
  let u := s.cancelTo 2 d
  ∃ v f, ElemsAre w k (s.rv d) v (fun l e => (g l e).1) ∧ FlagsAre w k f (fun l e => (g l e).2) ∧
    exec i s = .next { u with
      me := { u.me with v := wr s.me.v d v, fflags := s.me.fflags ||| f.setWidth 32 }
      bun := { s.bun with flags := s.bun.flags ||| f, counts := s.countsOf rounds } }

/-- The same for a long syllable with a bound of n rotations (R231): until its result lands the destination is undefined, and
its flags come with it. -/
def VMapsLong (i : Instr) (s : State) (d : Nat) (k : W64) (w n : Nat) (rounds : Bool) (g : Nat → Nat → Nat × Flags) :
    Prop :=
  let u := s.cancelTo 2 d
  ∃ v f x, ElemsAre w k (s.rv d) v (fun l e => (g l e).1) ∧ FlagsAre w k f (fun l e => (g l e).2) ∧
    exec i s = .next { u with
      me := { u.me with
        v := wr s.me.v d x, undefs := s.me.undefs + 1
        longs := u.me.longs ++ [{ file := .v, reg := d, value := v, left := n, flags := f, latched := false, snap := false,
                                  cancelled := false }] }
      bun := { s.bun with counts := s.countsOf rounds } }

/-- The exact value of element e of lane l of an integer register (R111). -/
def intElem (f : Fmt) (v : VReg) (l e : Nat) : Int :=
  let x := elem f.width v (32 / f.width * l + e)
  if f.isSigned then x.toInt else (x.toNat : Int)

/-- An integer as an element modulo 2^w, and saturated to its type with SAT (R112). -/
def wrapped (f : Fmt) (v : Int) : Nat × Flags := ((BitVec.ofInt f.width v).toNat, 0)
def clamped (f : Fmt) (v : Int) : Nat × Flags :=
  let c := max f.minInt (min f.maxInt v)
  ((BitVec.ofInt f.width c).toNat, if c = v then 0 else Flags.sat)

/-- V syllables, which need a compute core (R22). -/
def isVector : Instr → Bool
  | .vfadd .. | .vfsub .. | .vfmul .. | .vfma .. | .vfnma .. | .vfmin .. | .vfmax .. | .vfabs .. | .vfneg .. | .vfcps ..
  | .vfcmp .. | .vfrcp .. | .vfrsq .. | .vfsqrt .. | .vfdiv .. | .vfexp2 .. | .vflog2 .. | .vadd .. | .vsub .. | .vmul ..
  | .vmulh .. | .vmadw .. | .vmin .. | .vmax .. | .vand .. | .vor .. | .vxor .. | .vshl .. | .vshr .. | .vsar .. | .vcmp ..
  | .vabs .. | .vsat .. | .vmov .. | .vfx .. | .vperm .. | .vslide .. | .vsel .. | .vpack .. | .vunpk .. | .vcvt ..
  | .vqnt .. | .vdqnt .. | .vred .. | .vscan .. | .vkey .. | .kop .. | .kpop .. | .kfirst .. | .kset .. | .vmm ..
  | .vshlImm .. | .vshrImm .. | .vsarImm .. | .vslideImm .. | .vmovImm .. => true
  | _ => false

/-- A thread of s is about to attempt the bundle at its pc, and nothing else happens in this step: no entry of the agenda is
due, its slot is next, and it is running and resident, with no result, delay, stamp or barrier check outstanding. -/
def Attempts (s : State) (tid : Nat) (rest : List Nat) (m : Thread) : Prop :=
  s.dueEntry false = none ∧ s.slots = tid :: rest ∧ s.getThread? tid = some m ∧ m.again = false ∧ m.exiting = false ∧
  m.dlk = none ∧ m.st = .running ∧ m.spilled = none ∧ m.spilling = false ∧ m.vdly = 0 ∧ m.longs = [] ∧ m.frRun = false ∧ m.stamped = false ∧
  m.barChk = [] ∧ m.target = none ∧ m.packet = none

/-- i raises a trap of a syllable of class c: the bundle takes none of its effects, and the thread takes the trap with this
cause, DETAIL and ADDR (R173, R175). -/
def Traps (i : Instr) (s : State) (why : Stop) (c : Nat) (cause : BitVec 8) (detail : W32) (addr : W64) : Prop :=
  exec i s = .next (s.trapSyl why c cause detail addr)

/-! ### Asynchronous operations -/

/-- Register h of the h file takes v; the other registers that a syllable can write and memory are as before. -/
def PutsHandle (s t : State) (h : Nat) (v : W64) : Prop :=
  (∀ k, k < 8 → rd t.me.h k = if k = h then v else rd s.me.h k) ∧ SameButOne s t 4 0 ∧ t.me.e = s.me.e ∧ t.me.c = s.me.c ∧
  t.me.q = s.me.q ∧ t.mem = s.mem

/-- Registers and memory are as before. -/
def SameStorage (s t : State) : Prop :=
  SameButOne s t 4 0 ∧ t.me.h = s.me.h ∧ t.me.e = s.me.e ∧ t.me.c = s.me.c ∧ t.me.q = s.me.q ∧ t.mem = s.mem

/-- Operation n of a context has completed (R283). What a WAIT for it acquires (R152) is not part of this. -/
def Counted (old new : Timeline) (n : Nat) : Prop := { new with rel := old.rel } = old.complete n

/-- The flags of a completed operation are in its thread's %fflags (R122), and nothing else that the thread's program reads
has changed. -/
def FlagsLand (s t : State) (tid : Nat) (f : Flags) : Prop :=
  ∀ m, s.getThread? tid = some m → ∃ o b,
    t.getThread? tid = some { m with fflags := m.fflags ||| f.setWidth 32, overIds := o, stale := b }

/-- The event is on the agenda. -/
def Awaits (t : State) (ev : Event) : Prop := ∃ e, e ∈ t.agenda ∧ e.ev = ev

/-- The syllables that issue a matrix command: its kind, stream registers, tile, handle register and groups of 32 (R328-R332). -/
def matrixCommand : Instr → Option (MatKind × Nat × Nat × Nat × BitVec 3 × Nat)
  | .mmul a c t h k => some (.mul false false, a.toNat, c.toNat, t.toNat, h, k.toNat + 1)
  | .mmuls a c t h k => some (.mul true false, a.toNat, c.toNat, t.toNat, h, k.toNat + 1)
  | .mmrot a c t h k => some (.mul false true, a.toNat, c.toNat, t.toNat, h, k.toNat + 1)
  | .mzero t h => some (.zero, 0, 0, t.toNat, h, 0)
  | .mdrn a o t h => some (.drn o.toNat, a.toNat, 0, t.toNat, h, 1)
  | .mldc a o t h => some (.ldc o.toNat, a.toNat, 0, t.toNat, h, 1)
  | _ => none

/-- The syllables that issue a Prism command: its kind, stream register, band mask and handle register (R349-R353). -/
def prismCommand : Instr → Option (PrismKind × Option Nat × BitVec 4 × BitVec 3)
  | .pwin k x o h w => some (.pwin w.toNat o.toNat (x == 1) (if o = 2 then k.toNat + 1 else 1), none, 0, h)
  | .pldw q m h x => some (.pldw (x == 1), some q.toNat, m, h)
  | .plaunch q m h => some (.plaunch, some q.toNat, m, h)
  | .pcap q m h => some (.pcap false, some q.toNat, m, h)
  | .pcapList q h => some (.pcap true, some q.toNat, 0, h)
  | .prst m h => some (.prst, none, m, h)
  | _ => none

end Sys2Proof.Machine
end

