-- ==== Sys2Proof/Certificates/Slice0/Obligations.lean ====
section
/-! DEFINITION. The statements for the provers. -/

open Sys2Proof Sys2Proof.Machine

/-! ### Scalar engine -/

/-- R178: the register and the immediate forms. A sum, a difference and a product are taken modulo 2^32; MULH and MULHB take the
high half of the exact product; shift and rotate amounts are b[4:0]; an immediate is simm11 sign-extended. -/
def Obligations.integerOperations : Prop :=
  (∀ (s : State) (d a b : BitVec 5),
    let x := s.rx a.toNat
    let y := s.rx b.toNat
    let n := y.toNat % 32
    PutsX (.add d a b) s d (BitVec.ofInt 32 (x.toInt + y.toInt)) ∧
    PutsX (.sub d a b) s d (BitVec.ofInt 32 (x.toInt - y.toInt)) ∧
    PutsX (.mul d a b) s d (BitVec.ofInt 32 (x.toInt * y.toInt)) ∧
    PutsX (.mulh d a b) s d (BitVec.ofInt 32 (x.toInt * y.toInt / 2 ^ 32)) ∧
    PutsX (.mulhb d a b) s d (BitVec.ofNat 32 (x.toNat * y.toNat / 2 ^ 32)) ∧
    PutsX (.and d a b) s d (x &&& y) ∧
    PutsX (.or d a b) s d (x ||| y) ∧
    PutsX (.xor d a b) s d (x ^^^ y) ∧
    PutsX (.andn d a b) s d (x &&& ~~~y) ∧
    PutsX (.shl d a b) s d (BitVec.ofNat 32 (x.toNat * 2 ^ n)) ∧
    PutsX (.shr d a b) s d (BitVec.ofNat 32 (x.toNat / 2 ^ n)) ∧
    PutsX (.sar d a b) s d (BitVec.ofInt 32 (x.toInt / 2 ^ n)) ∧
    PutsXOf (.rol d a b) s d (fun v => ∀ j, j < 32 → v.getLsbD j = x.getLsbD ((j + 32 - n) % 32)) ∧
    PutsX (.min d a b) s d (BitVec.ofInt 32 (min x.toInt y.toInt)) ∧
    PutsX (.max d a b) s d (BitVec.ofInt 32 (max x.toInt y.toInt)) ∧
    PutsX (.minb d a b) s d (BitVec.ofNat 32 (min x.toNat y.toNat)) ∧
    PutsX (.maxb d a b) s d (BitVec.ofNat 32 (max x.toNat y.toNat))) ∧
  (∀ (s : State) (d a : BitVec 5) (imm : BitVec 11) (sh : BitVec 5),
    let x := s.rx a.toNat
    let y := imm.toInt
    let z : W32 := BitVec.ofInt 32 imm.toInt
    PutsX (.addImm d a imm) s d (BitVec.ofInt 32 (x.toInt + y)) ∧
    PutsX (.subImm d a imm) s d (BitVec.ofInt 32 (x.toInt - y)) ∧
    PutsX (.mulImm d a imm) s d (BitVec.ofInt 32 (x.toInt * y)) ∧
    PutsX (.mulhImm d a imm) s d (BitVec.ofInt 32 (x.toInt * y / 2 ^ 32)) ∧
    PutsX (.mulhbImm d a imm) s d (BitVec.ofNat 32 (x.toNat * z.toNat / 2 ^ 32)) ∧
    PutsX (.andImm d a imm) s d (x &&& z) ∧
    PutsX (.orImm d a imm) s d (x ||| z) ∧
    PutsX (.xorImm d a imm) s d (x ^^^ z) ∧
    PutsX (.andnImm d a imm) s d (x &&& ~~~z) ∧
    PutsX (.shlImm d a sh) s d (BitVec.ofNat 32 (x.toNat * 2 ^ sh.toNat)) ∧
    PutsX (.shrImm d a sh) s d (BitVec.ofNat 32 (x.toNat / 2 ^ sh.toNat)) ∧
    PutsX (.sarImm d a sh) s d (BitVec.ofInt 32 (x.toInt / 2 ^ sh.toNat)) ∧
    PutsXOf (.rolImm d a sh) s d (fun v => ∀ j, j < 32 → v.getLsbD j = x.getLsbD ((j + 32 - sh.toNat) % 32)) ∧
    PutsX (.minImm d a imm) s d (BitVec.ofInt 32 (min x.toInt y)) ∧
    PutsX (.maxImm d a imm) s d (BitVec.ofInt 32 (max x.toInt y)) ∧
    PutsX (.minbImm d a imm) s d (BitVec.ofNat 32 (min x.toNat z.toNat)) ∧
    PutsX (.maxbImm d a imm) s d (BitVec.ofNat 32 (max x.toNat z.toNat)))

/-- R179–R181: division truncates toward zero, the remainder has the sign of the dividend, a division by zero gives all ones
and the dividend, and the one quotient that overflows gives −2^31 with remainder 0, all three rotations on and without a
trap; bit counts, bit order and bit fields. -/
def Obligations.divisionsAndBitFields : Prop :=
  (∀ (s : State) (d a b : BitVec 5) (imm : BitVec 11),
     let x := s.rx a.toNat
     let q := fun (y : W32) => if y = 0#32 then 0xFFFFFFFF#32 else BitVec.ofInt 32 (x.toInt.tdiv y.toInt)
     let r := fun (y : W32) => if y = 0#32 then x else BitVec.ofInt 32 (x.toInt.tmod y.toInt)
     let qb := fun (y : W32) => if y = 0#32 then 0xFFFFFFFF#32 else BitVec.ofNat 32 (x.toNat / y.toNat)
     let rb := fun (y : W32) => if y = 0#32 then x else BitVec.ofNat 32 (x.toNat % y.toNat)
     PutsLong (.div d a b) s d 3 (q (s.rx b.toNat)) ∧
     PutsLong (.rem d a b) s d 3 (r (s.rx b.toNat)) ∧
     PutsLong (.divb d a b) s d 3 (qb (s.rx b.toNat)) ∧
     PutsLong (.remb d a b) s d 3 (rb (s.rx b.toNat)) ∧
     PutsLong (.divImm d a imm) s d 3 (q (BitVec.ofInt 32 imm.toInt)) ∧
     PutsLong (.remImm d a imm) s d 3 (r (BitVec.ofInt 32 imm.toInt)) ∧
     PutsLong (.divbImm d a imm) s d 3 (qb (BitVec.ofInt 32 imm.toInt)) ∧
     PutsLong (.rembImm d a imm) s d 3 (rb (BitVec.ofInt 32 imm.toInt))) ∧
  (∀ (s : State) (d a b w : BitVec 5),
     let x := s.rx a.toNat
     let p := (s.rx b.toNat).toNat % 32
     PutsXOf (.clz d a) s d (fun v => v.toNat ≤ 32 ∧ (∀ j, 32 - v.toNat ≤ j → j < 32 → x.getLsbD j = false) ∧
       (v.toNat < 32 → x.getLsbD (31 - v.toNat) = true)) ∧
     PutsXOf (.ctz d a) s d (fun v => v.toNat ≤ 32 ∧ (∀ j, j < v.toNat → x.getLsbD j = false) ∧
       (v.toNat < 32 → x.getLsbD v.toNat = true)) ∧
     PutsX (.popc d a) s d (BitVec.ofNat 32 ((List.range 32).filter (fun j => x.getLsbD j)).length) ∧
     PutsXOf (.brev d a) s d (fun v => ∀ j, j < 32 → v.getLsbD (31 - j) = x.getLsbD j) ∧
     PutsXOf (.sext d a w) s d (fun v => ∀ j, j < 32 → v.getLsbD j = x.getLsbD (min j w.toNat)) ∧
     PutsXOf (.ext d a b w) s d (fun v => ∀ j, j < 32 → v.getLsbD j = (decide (j ≤ w.toNat) && x.getLsbD (j + p))) ∧
     PutsXOf (.ins d a b w) s d (fun v => ∀ j, j < 32 → v.getLsbD j =
       if p ≤ j ∧ j ≤ p + w.toNat then x.getLsbD (j - p) else (s.rx d.toNat).getLsbD j))

/-- R182–R185, R199, R200: selection, literals, conditions and pull-copies. -/
def Obligations.selectionsConditionsCopies : Prop :=
  ∀ (s : State) (d a b : BitVec 5) (c3 : BitVec 3) (c4 c4' : BitVec 4) (n n' : BitVec 1) (i5 : BitVec 5)
    (i16 : BitVec 16) (xx : BitVec 26) (e : BitVec 3) (e2 : BitVec 2) (l : BitVec 6),
    let x := s.rx a.toNat
    let y : W32 := BitVec.ofInt 32 ((s.rx b.toNat).toInt + i5.toInt)
    let cond := fun (c : BitVec 4) (neg : BitVec 1) => (s.rc c.toNat) != (neg == 1)
    PutsX (.sel d a b n c4) s d (if cond c4 n then x else s.rx b.toNat) ∧
    PutsX (.li d i16 none) s d (BitVec.ofInt 32 i16.toInt) ∧
    PutsX (.li d i16 (some xx)) s d (BitVec.ofNat 32 (xx.toNat % 2 ^ 16 * 2 ^ 16 + i16.toNat)) ∧
    Completes (.cmp c3 0 a b i5) s (fun t => WritesC s t c3.toNat (decide (x = y))) ∧
    Completes (.cmp c3 1 a b i5) s (fun t => WritesC s t c3.toNat (decide (x ≠ y))) ∧
    Completes (.cmp c3 2 a b i5) s (fun t => WritesC s t c3.toNat (decide (x.toInt < y.toInt))) ∧
    Completes (.cmp c3 3 a b i5) s (fun t => WritesC s t c3.toNat (decide (x.toInt ≤ y.toInt))) ∧
    Completes (.cmp c3 4 a b i5) s (fun t => WritesC s t c3.toNat (decide (x.toNat < y.toNat))) ∧
    Completes (.cmp c3 5 a b i5) s (fun t => WritesC s t c3.toNat (decide (x.toNat ≤ y.toNat))) ∧
    Completes (.cmp c3 6 a b i5) s (fun t => WritesC s t c3.toNat (decide (x &&& y ≠ 0))) ∧
    Completes (.cmp c3 7 a b i5) s (fun t => WritesC s t c3.toNat (decide (x &&& y = 0))) ∧
    Completes (.clog c3 0 n c4 n' c4') s (fun t => WritesC s t c3.toNat (cond c4 n && cond c4' n')) ∧
    Completes (.clog c3 1 n c4 n' c4') s (fun t => WritesC s t c3.toNat (cond c4 n || cond c4' n')) ∧
    Completes (.clog c3 2 n c4 n' c4') s (fun t => WritesC s t c3.toNat (cond c4 n != cond c4' n')) ∧
    Completes (.clog c3 3 n c4 0 0) s (fun t => WritesC s t c3.toNat (cond c4 n)) ∧
    PutsX (.xfa d c4 n) s d (BitVec.ofNat 32 ((s.ra c4.toNat).toNat / 2 ^ (32 * n.toNat))) ∧
    PutsX (.xfe d e n) s d (BitVec.ofNat 32 ((s.re e.toNat).toNat / 2 ^ (32 * n.toNat))) ∧
    PutsLong (.xfv d c4 0 0 l) s d 2 (elem 32 (s.rv c4.toNat) l.toNat) ∧
    (e2.toNat < 2 → PutsLong (.xfv d c4 1 e2 l) s d 2 ((elem 16 (s.rv c4.toNat) (2 * l.toNat + e2.toNat)).signExtend 32)) ∧
    (e2.toNat < 2 → PutsLong (.xfv d c4 2 e2 l) s d 2 ((elem 16 (s.rv c4.toNat) (2 * l.toNat + e2.toNat)).setWidth 32)) ∧
    PutsLong (.xfv d c4 3 e2 l) s d 2 ((elem 8 (s.rv c4.toNat) (4 * l.toNat + e2.toNat)).signExtend 32) ∧
    PutsLong (.xfv d c4 4 e2 l) s d 2 ((elem 8 (s.rv c4.toNat) (4 * l.toNat + e2.toNat)).setWidth 32)

/-- R186–R189, R72: a transfer goes to a target that starts a bundle; one that does not start a bundle traps
TARGET_NOT_START with the target in ADDR (log 64, DESIGN CHOICE: the manual names no ADDR for it), and a register target that is
not a multiple of 4 traps ALIGN. A branch whose condition fails changes nothing. LOOP fetches its end word, which must start a
bundle as well, and sets start, end and count of its loop; a count of 0 skips the body. -/
def Obligations.controlTransfers : Prop :=
  (∀ (s s1 : State) (c : BitVec 4) (n : BitVec 1) (i16 : BitVec 16) (i18 : BitVec 18) (xx : BitVec 26) (r : BitVec 5),
    let pc := s.pre.pc
    let br := pc + BitVec.ofInt 64 (4 * i16.toInt)
    let near := pc + BitVec.ofInt 64 (4 * i18.toInt)
    let far := pc + BitVec.ofInt 64 (4 * (xx ++ i18).toInt)
    let reg := fun (x : W32) => BitVec.ofNat 64 (pc.toNat / 2 ^ 32 * 2 ^ 32 + x.toNat)
    let link : W32 := BitVec.ofNat 32 s.bun.next.toNat
    let holds := (s.rc c.toNat) != (n == 1)
    (holds = false → exec (.br c n i16) s = .next s) ∧
    (holds = true → StartsBundle s br s1 → exec (.br c n i16) s = .next (s1.goTo br)) ∧
    (holds = true → StartsNone s br s1 → exec (.br c n i16) s = .next (s1.trapSyl .trap 0 tcTarget 0 br)) ∧
    (StartsBundle s near s1 → exec (.jmp i18 none) s = .next (s1.goTo near)) ∧
    (StartsBundle s far s1 → exec (.jmp i18 (some xx)) s = .next (s1.goTo far)) ∧
    (StartsNone s near s1 →
      exec (.jmp i18 none) s = .next (s1.trapSyl .trap 0 tcTarget 0 near) ∧
      exec (.call i18 none) s = .next (s1.trapSyl .trap 0 tcTarget 0 near)) ∧
    (StartsNone s far s1 →
      exec (.jmp i18 (some xx)) s = .next (s1.trapSyl .trap 0 tcTarget 0 far) ∧
      exec (.call i18 (some xx)) s = .next (s1.trapSyl .trap 0 tcTarget 0 far)) ∧
    ((s.rx r.toNat).toNat % 4 = 0 → StartsNone s (reg (s.rx r.toNat)) s1 →
      exec (.jmpr r) s = .next (s1.trapSyl .trap 0 tcTarget 0 (reg (s.rx r.toNat)))) ∧
    ((s.rx 31).toNat % 4 = 0 → StartsNone s (reg (s.rx 31)) s1 →
      exec .ret s = .next (s1.trapSyl .trap 0 tcTarget 0 (reg (s.rx 31)))) ∧
    (s.bun.stop = .none → StartsBundle s near s1 →
      Completes (.call i18 none) s (fun t => WritesX (s1.goTo near) t 31 link)) ∧
    (s.bun.stop = .none → StartsBundle s far s1 →
      Completes (.call i18 (some xx)) s (fun t => WritesX (s1.goTo far) t 31 link)) ∧
    ((s.rx r.toNat).toNat % 4 = 0 → StartsBundle s (reg (s.rx r.toNat)) s1 →
      exec (.jmpr r) s = .next (s1.goTo (reg (s.rx r.toNat)))) ∧
    ((s.rx r.toNat).toNat % 4 ≠ 0 → Traps (.jmpr r) s .trap 0 tcAlign 0 (reg (s.rx r.toNat))) ∧
    ((s.rx 31).toNat % 4 = 0 → StartsBundle s (reg (s.rx 31)) s1 → exec .ret s = .next (s1.goTo (reg (s.rx 31)))) ∧
    ((s.rx 31).toNat % 4 ≠ 0 → Traps .ret s .trap 0 tcAlign 0 (reg (s.rx 31)))) ∧
  (∀ (s s1 : State) (p : BitVec 256) (n : BitVec 1) (r : BitVec 5) (i : BitVec 11),
    let e := s.pre.pc + BitVec.ofInt 64 (4 * i.toInt)
    s.fetchPacket s.pre (packetAddr e) = (.ok p, s1) →
    ((packetWord p e).getLsbD 31 = false → exec (.loop n r i) s = .next (s1.trapSyl .trap 0 tcTarget 0 e)) ∧
    ((packetWord p e).getLsbD 31 = true → Completes (.loop n r i) s (fun t =>
      (∀ k, k < 2 → rd t.me.lc k = if k = n.toNat then s.rx r.toNat else rd s1.me.lc k) ∧
      (∀ k, k < 2 → rd t.me.ls k = if k = n.toNat then s.bun.next else rd s1.me.ls k) ∧
      (∀ k, k < 2 → rd t.me.le k = if k = n.toNat then e else rd s1.me.le k) ∧
      t.bun.taken = (if s.rx r.toNat = 0 then some (bundleNext p e) else s1.bun.taken) ∧
      t = { s1 with me := { s1.me with lc := t.me.lc, ls := t.me.ls, le := t.me.le }
                    bun := { s1.bun with
                      taken := t.bun.taken, lcWritten := s1.bun.lcWritten ||| BitVec.ofNat 2 (n.toNat + 1) } })))

/-- R190, R119: where a thread goes when its bundle has taken effect. A taken transfer wins and leaves the counts; else loop 1
is evaluated, and loop 0 when loop 1 falls through; a count that the bundle itself wrote stays as written. SCNT advances by
the counter values taken unless the bundle wrote %rnd. -/
def Obligations.bundleRelease : Prop :=
  ∀ (s : State),
    let ends := fun (n : Nat) => rd s.pre.lc n ≠ 0#32 ∧ rd s.pre.le n = s.pre.pc
    let more := fun (n : Nat) => ends n ∧ 1 < (rd s.pre.lc n).toNat
    Completes .bundleRelease s (fun t =>
      t.me.pc = (match s.bun.taken with
        | some a => a
        | none => if more 1 then rd s.pre.ls 1 else if more 0 then rd s.pre.ls 0 else s.bun.next) ∧
      rd t.me.lc 1 = (if s.bun.taken = none ∧ ends 1 ∧ s.bun.lcWritten.getLsbD 1 = false then rd s.pre.lc 1 - 1
        else rd s.me.lc 1) ∧
      rd t.me.lc 0 = (if s.bun.taken = none ∧ ¬ more 1 ∧ ends 0 ∧ s.bun.lcWritten.getLsbD 0 = false then rd s.pre.lc 0 - 1
        else rd s.me.lc 0) ∧
      (s.bun.rndWritten = true → t.me.rnd = s.me.rnd) ∧
      (s.bun.rndWritten = false → s.bun.counts ≠ 0 →
        t.me.rnd.toNat / 256 = (s.pre.rnd.toNat / 256 + s.bun.counts) % 2 ^ 24 ∧ t.me.rnd.toNat % 256 = s.me.rnd.toNat % 256) ∧
      t = { s with me := { s.me with
        pc := t.me.pc, lc := t.me.lc, rnd := t.me.rnd, st := if s.me.st = .blocked then .running else s.me.st, since := 0
        recvFrom := 0, notice := 0, reportedOne := false, target := none, packet := none } })

/-- R191–R194, R198, R56: the group operations. A BAR at level 0 completes at once; at another level it leaves an instance that
is complete, and otherwise registers its arrival and holds its bundle. FRAME passes at its frame start and sets the frame.
EXIT ends its thread and sends the exit to every other member of the group. -/
def Obligations.groupOperations : Prop :=
  ∀ (s : State) (l : BitVec 3) (g : Group) (z : Nat),
    (∃ l, exec (.bar 0) s = .next { s with me := { s.me with before := l } }) ∧
    (levelShift s.pre.widf l.toNat ≠ 0 → s.pre.stamped = false →
      s.arrivedAt? s.pre .barrier l.toNat = some g → g.complete = true →
        exec (.bar l) s = .next (s.departGroup g.gid s.pre.tid)) ∧
    (levelShift s.pre.widf l.toNat ≠ 0 → s.pre.stamped = false → s.arrivedAt? s.pre .barrier l.toNat = none →
        exec (.bar l) s = .next (s.arrive s.pre .barrier l.toNat).2.block) ∧
    (s.arrivedAt? s.pre .frame l.toNat = some g → g.starts.find? (fun x => x.1 == s.pre.die) = some (s.pre.die, z) →
      z ≤ s.cycleReg s.pre.die →
        Completes (.frame l) s (fun t => t.me.frRun = true ∧ t.me.frNum = 0 ∧ t.me.frZ = z ∧ t.me.frOff = 0 ∧ t.me.frStart = z ∧
          t = { (s.departGroup g.gid s.pre.tid) with
                me := { s.me with frRun := true, frNum := 0, frZ := z, frOff := 0, frStart := z, target := none } })) ∧
    (s.unreported? s.pre.tid = none → s.me.tid = s.pre.tid → s.pre.tid ≠ 0 →
      Completes (.exit l) s (fun t =>
        t.me.st = .exited ∧ t.me.longs = [] ∧ t.mem = s.mem ∧
        ∀ u, u ∈ s.liveMembers s.pre.lid l.toNat (groupKey s.pre.widf s.pre.wid l.toNat) → u.tid ≠ s.pre.tid →
          ∃ e, e ∈ t.agenda ∧ e.ev = .exitArrival u.tid))

/-- R172, R173, R195: the trap of TRAP and BRK. With its enable bit in %tvec and H clear it runs the handler: the pc is the
handler address, %tpc the successor, H is set, and the record goes to AB at %trec when EN is set and it fits, or NOREC is
set. Otherwise the record goes to the control cores and the thread is trapped. -/
def Obligations.trapAndBreak : Prop :=
  ∀ (s : State) (n : BitVec 16), s.me.priv ≠ .plugin → Memory.wf s.mem →
    ∀ p : Instr × BitVec 8 × Nat, p ∈ [(Instr.trap n, tcTrap, 0), (Instr.brk n, tcBreak, 1)] →
      let off := s.me.trec.toNat / 64 % 2 ^ 14 * 64
      let fits : Bool := s.me.trec.getLsbD 0 && decide (off + 64 ≤ s.me.abSize)
      (s.me.tcause.getLsbD 31 = false → s.me.tvec.getLsbD p.2.2 = true →
        Completes p.1 s (fun t =>
          t.me.pc = BitVec.ofNat 64 (s.me.pc.toNat / 2 ^ 32 * 2 ^ 32 + s.me.tvec.toNat / 32 * 32) ∧
          t.me.tpc = s.bun.next ∧ t.me.st = .running ∧ t.me.tcause.getLsbD 31 = true ∧
          t.me.tcause.getLsbD 30 = !fits ∧ t.me.tcause.setWidth 8 = p.2.1 ∧ SameRegisters s.me t.me ∧
          (∀ g, g ∈ t.me.longs → snapped true g = true → g.latched = true) ∧ t.traps = s.traps ∧
          ∃ rec, RecordFields s s.me rec p.2.1 0 true true (n.setWidth 32) s.bun.next 0 (rd s.bun.words 0) ∧
            ∀ b, memGet t.mem b = if fits = true ∧ s.me.abKey off ≤ b ∧ b < s.me.abKey off + 64 then
                rec.extractLsb' (8 * (b - s.me.abKey off)) 8 else memGet s.mem b)) ∧
      (s.me.tcause.getLsbD 31 = true ∨ s.me.tvec.getLsbD p.2.2 = false →
        Completes p.1 s (fun t =>
          TrappedOut s t s.me p.2.1 0 true (n.setWidth 32) s.bun.next 0 (rd s.bun.words 0)))

/-- R173, R175: every cause but TRAP_INSTRUCTION, BREAK and HANDLE_FAULT traps to the control cores, with the bundle without
effect and its own address as resumption address. A word that is no instruction traps ILLEGAL_SYLLABLE (R77), and a packet
that cannot be fetched traps with the cause of R73 and the bundle as a whole. -/
def Obligations.trapsToTheControlCores : Prop :=
  ∀ (s : State) (why : Stop) (c : Nat) (cause : BitVec 8) (detail syl : W32) (addr : W64),
    s.pre.priv ≠ .plugin → cause ≠ tcTrap → cause ≠ tcBreak → cause ≠ tcHandleFault →
      (c < 5 → TrappedOut s (s.trapSyl why c cause detail addr) s.pre cause c false detail s.pre.pc addr (rd s.bun.words c)) ∧
      TrappedOut s (s.trapBundle why cause detail addr) s.pre cause 7 false detail s.pre.pc addr 0 ∧
      (c < 8 → Completes (.illegalSyllable c syl) s (fun t => TrappedOut s t s.pre tcIllegal c false 0 s.pre.pc 0 syl)) ∧
      Completes (.fetchPageFault cause.toNat addr) s (fun t => TrappedOut s t s.pre cause 7 false 0 s.pre.pc addr 0)

/-- R196, R174: RTE goes to %tpc and clears H; each snapshot entry lands one bundle after its remaining count, and registers
that no entry names are as before. A control core's resumption goes to %tpc, or to the address written there first (R173),
and takes the thread's record away, but in host-assisted mode the thread stays trapped until the host answers (R470). RTE at
user privilege outside a handler traps PRIVILEGE. -/
def Obligations.returnFromTrap : Prop :=
  ∀ (s s1 : State) (a : Option W64),
    (s.pre.priv.isSys = false → s.pre.tcause.getLsbD 31 = false → Traps .rte s .privilege 0 tcPrivilege 0 0) ∧
    (s.pre.priv.isSys = true ∨ s.pre.tcause.getLsbD 31 = true → s.bun.stop = .none → StartsBundle s s.pre.tpc s1 →
      Completes .rte s (fun t =>
        t.bun.taken = some s.pre.tpc ∧ t.me.tcause = s.me.tcause &&& 0x7FFFFFFF#32 ∧ t.me.pc = s.me.pc ∧
        t.me.st = s.me.st ∧ t.mem = s1.mem ∧ t.me.a = s.me.a ∧ t.me.k = s.me.k ∧ t.me.c = s.me.c ∧
        (∀ g, g ∈ s.me.longs → g.latched = true →
          { g with latched := false, snap := true, left := g.left + 1 } ∈ t.me.longs) ∧
        (∀ r, r < 32 → (∀ g, g ∈ s.me.longs → g.latched = true → g.file = .x → g.reg ≠ r) → rd t.me.x r = rd s.me.x r) ∧
        (∀ r, r < 16 → (∀ g, g ∈ s.me.longs → g.latched = true → g.file = .v → g.reg ≠ r) → rd t.me.v r = rd s.me.v r))) ∧
    (s.me.tid ≠ 0 → s.me.st = .trapped →
      (s.assisted s.me = true ↔ s.me.onControl = false ∧ ∃ p h, s.getPart? s.me.part = some p ∧ p.home = some h ∧
        (s.getFunc h).trpm = true) ∧
      (s.assisted s.me = true → exec (.threadResume s.me.tid a) s = .next s ∧
        ∀ l, exec (.groupKill s.me.tid l) s = .next s) ∧
      (s.assisted s.me = false → Completes (.threadResume s.me.tid a) s (fun t =>
        t.me.st = .running ∧ t.me.pc = a.getD s.me.tpc ∧ t.me.tcause = s.me.tcause &&& 0x7FFFFFFF#32 ∧
        t.mem = s.mem ∧ t.traps = s.traps.filter (fun r => r.tid != s.me.tid))))

/-- R166, R167, R197, R22, R464: what SYSR reads of each register, at the privilege and on the core that may read it; the low half
of %cycle captures the high one. -/
def Obligations.systemRegisterReads : Prop :=
  ∀ (s : State) (x : BitVec 5) (i : Nat),
    let m := s.pre
    let narrow := fun (n : Nat) (v : W32) => PutsX (.sysr x (BitVec.ofNat 10 n) 0) s x v
    let wide := fun (n : Nat) (v : W64) => PutsX (.sysr x (BitVec.ofNat 10 n) 0) s x (BitVec.ofNat 32 v.toNat) ∧
      PutsX (.sysr x (BitVec.ofNat 10 n) 1) s x (BitVec.ofNat 32 (v.toNat / 2 ^ 32))
    wide 0x000 m.wid ∧ wide 0x001 m.widf ∧ (i < 6 → narrow (0x002 + i) (rd m.ext i)) ∧
    (m.onControl = false → narrow 0x008 (BitVec.ofNat 32 (s.logDie m.part m.die))) ∧
    (m.onControl = true → narrow 0x008 (BitVec.ofNat 32 m.die)) ∧
    narrow 0x009 (BitVec.ofNat 32 m.core) ∧ narrow 0x00A (BitVec.ofNat 32 m.turn) ∧
    (m.onControl = false → narrow 0x00B (BitVec.ofNat 32 m.part)) ∧
    (m.onControl = true → (16 ≤ m.die ∨ ∀ p, p ∈ s.parts → m.die ∉ p.dies) → narrow 0x00B 0xFFFFFFFF#32) ∧
    (∀ p, m.onControl = true → m.die < 16 → s.parts.find? (fun q => q.dies.contains m.die) = some p →
      narrow 0x00B (BitVec.ofNat 32 p.num)) ∧
    Completes (.sysr x 0x010 0) s (fun t => ∃ u, WritesX s u x.toNat (BitVec.ofNat 32 (s.cycleReg m.die)) ∧
      t = { u with me := { u.me with cycHi := BitVec.ofNat 32 (s.cycleReg m.die % 2 ^ 64 / 2 ^ 32) } }) ∧
    PutsX (.sysr x 0x010 1) s x m.cycHi ∧
    narrow 0x011 (m.frameReg (s.cycleReg m.die)) ∧ (i < 2 → narrow (0x018 + i) (rd m.lc i)) ∧
    narrow 0x020 m.rnd ∧ narrow 0x021 m.fflags ∧ narrow 0x022 m.seed ∧ (i < 8 → narrow (0x028 + i) (rd m.dscale i)) ∧
    narrow 0x030 m.tvec ∧ narrow 0x031 m.tcause ∧ wide 0x032 m.tpc ∧ narrow 0x033 m.trec ∧ narrow 0x038 (s.mown m) ∧
    (m.onControl = true → m.priv.isSys = true →
      narrow 0x100 m.ctl.pcall ∧ narrow 0x101 m.ctl.pstat ∧ wide 0x102 m.ctl.psret ∧ narrow 0x103 m.ctl.mcmd ∧
      (i < 4 → narrow (0x104 + i) (rd m.ctl.gbase i) ∧ narrow (0x108 + i) (rd m.ctl.glim i)) ∧
      narrow 0x10C m.ctl.mstat ∧ narrow 0x110 0) ∧
    (m.onControl = true → narrow 0x111 (s.getDie m.die).fwslot) ∧
    (m.onControl = true → m.priv.isSys = false → i < 13 →
      Traps (.sysr x (BitVec.ofNat 10 (0x100 + i)) 0) s .privilege 0 tcPrivilege 0 0) ∧
    (m.onControl = false → i < 0x300 →
      Traps (.sysr x (BitVec.ofNat 10 (0x100 + i)) 0) s .illegal 0 tcIllegal 0 0)

/-- R167–R170, R113, R116, R121, R197, R464, R466: what SYSW leaves in each register a thread may write; reserved bits are not
written, a MODE of 6 or 7 leaves MODE, and read-only registers ignore it. %pcall begins a plug-in call (R465), %mcmd issues the
management command whose block it names or says why not (R471), and %hbeat is a heartbeat (R475). At plug-in privilege every SYSW
of a register that exists traps PRIVILEGE. -/
def Obligations.systemRegisterWrites : Prop :=
  ∀ (s : State) (x : BitVec 5) (i : Nat),
    let m := s.me
    let v := s.rx x.toNat
    let gives := fun (n : Nat) (h : BitVec 1) (u : Thread) =>
      exec (.sysw x (BitVec.ofNat 10 n) h) s = .next { s with me := u }
    let ignored := fun (n : Nat) => exec (.sysw x (BitVec.ofNat 10 n) 0) s = .next s
    (s.pre.priv ≠ .plugin →
      (∀ k, k < 2 → Completes (.sysw x (BitVec.ofNat 10 (0x018 + k)) 0) s (fun t =>
        (∀ j, j < 2 → rd t.me.lc j = if j = k then v else rd m.lc j) ∧
        t = { s with me := { m with lc := t.me.lc }
                     bun := { s.bun with lcWritten := s.bun.lcWritten ||| BitVec.ofNat 2 (k + 1) } })) ∧
      Completes (.sysw x 0x020 0) s (fun t =>
        t.me.rnd.toNat / 256 = v.toNat / 256 ∧
        t.me.rnd.toNat % 256 = (if v.toNat % 8 < 6 then v.toNat % 8 else m.rnd.toNat % 8) ∧
        t = { s with me := { m with rnd := t.me.rnd }, bun := { s.bun with rndWritten := true } }) ∧
      gives 0x021 0 { m with fflags := BitVec.ofNat 32 (v.toNat % 128) } ∧
      gives 0x022 0 { m with seed := v } ∧
      (i < 8 → Completes (.sysw x (BitVec.ofNat 10 (0x028 + i)) 0) s (fun t =>
        (∀ j, j < 8 → rd t.me.dscale j = if j = i then BitVec.ofNat 32 (v.toNat % 256) else rd m.dscale j) ∧
        t = { s with me := { m with dscale := t.me.dscale } })) ∧
      gives 0x030 0 { m with tvec := BitVec.ofNat 32 (v.toNat / 32 * 32 + v.toNat % 8) } ∧
      gives 0x031 0 { m with tcause := BitVec.ofNat 32 (v.toNat / 2 ^ 30 * 2 ^ 30 + v.toNat % 256) } ∧
      gives 0x032 0 { m with tpc := BitVec.ofNat 64 (m.tpc.toNat / 2 ^ 32 * 2 ^ 32 + v.toNat) } ∧
      gives 0x032 1 { m with tpc := BitVec.ofNat 64 (v.toNat * 2 ^ 32 + m.tpc.toNat % 2 ^ 32) } ∧
      gives 0x033 0 { m with trec := BitVec.ofNat 32 (v.toNat % 2 ^ 20 / 64 * 64 + v.toNat % 2) } ∧
      (i < 12 → ignored i) ∧ ignored 0x010 ∧ ignored 0x038 ∧
      (s.pre.priv.isSys = false → Traps (.sysw x 0x011 0) s .privilege 0 tcPrivilege 0 0) ∧
      (s.pre.priv.isSys = true → ignored 0x011)) ∧
    (s.pre.priv = .supervisor ∨ s.pre.priv = .monitor → s.pre.onControl = true →
      gives 0x101 0 { m with ctl := { m.ctl with pstat := BitVec.ofNat 32 (v.toNat % 2 ^ 16 / 256 * 256 + v.toNat % 4) } } ∧
      gives 0x102 0 { m with ctl := { m.ctl with
        psret := BitVec.ofNat 64 (m.ctl.psret.toNat / 2 ^ 32 * 2 ^ 32 + v.toNat) } } ∧
      ignored 0x10C ∧ ignored 0x111 ∧
      (s.pre.priv = .supervisor → exec (.sysw x 0x100 0) s = exec (.pluginCall v) s) ∧
      exec (.sysw x 0x110 0) s = .next { s with agenda := s.agenda ++ [⟨.wall s.wall, .heartbeat m.die⟩] } ∧
      (v.toNat % 64 ≠ 0 ∨ m.abSize < v.toNat + 64 → gives 0x103 0 { m with ctl := { m.ctl with
        mcmd := v, mstat := BitVec.ofNat 32 (m.ctl.mstat.toNat / 256 * 256 + 5) } }) ∧
      (v.toNat % 64 = 0 → v.toNat + 64 ≤ m.abSize → m.ctl.mstat.getLsbD 31 = true → gives 0x103 0 { m with ctl := { m.ctl with
        mcmd := v, mstat := BitVec.ofNat 32 (m.ctl.mstat.toNat / 256 * 256 + 6) } }) ∧
      (∀ ev, v.toNat % 64 = 0 → v.toNat + 64 ≤ m.abSize → m.ctl.mstat.getLsbD 31 = false →
        mgmtEvent (memGet s.mem (fwKey m.die v.toNat)).toNat s.nextId = some ev →
        Completes (.sysw x 0x103 0) s (fun t =>
          t.me = { m with ctl := { m.ctl with mcmd := v, mstat := m.ctl.mstat ||| 0x80000000#32 } } ∧ t.mem = s.mem ∧
          Awaits t ev ∧ ∃ b, t.mgmt = s.mgmt ++ [{ mid := s.nextId, src := .turn m.tid v.toNat, block := b
                                                   monitor := m.priv == .monitor, begun := false }] ∧
            ∀ k, k < 64 → b.extractLsb' (8 * k) 8 = memGet s.mem (fwKey m.die v.toNat + k))) ∧
      (v.toNat % 64 = 0 → v.toNat + 64 ≤ m.abSize → m.ctl.mstat.getLsbD 31 = false → Memory.wf s.mem →
        mgmtEvent (memGet s.mem (fwKey m.die v.toNat)).toNat s.nextId = none →
        Completes (.sysw x 0x103 0) s (fun t => ∃ u, StoresAt s u (fwKey m.die (v.toNat + 4)) 4 2 ∧
          t = { u with me := { m with ctl := { m.ctl with mcmd := v, mstat := 2#32 } } })) ∧
      (i < 4 → Completes (.sysw x (BitVec.ofNat 10 (0x104 + i)) 0) s (fun t =>
        (∀ j, j < 4 → rd t.me.ctl.gbase j = if j = i then BitVec.ofNat 32 (v.toNat % 2 ^ 24 / 4096 * 4096 + v.toNat % 8)
          else rd m.ctl.gbase j) ∧ t = { s with me := { m with ctl := { m.ctl with gbase := t.me.ctl.gbase } } })) ∧
      (i < 4 → Completes (.sysw x (BitVec.ofNat 10 (0x108 + i)) 0) s (fun t =>
        (∀ j, j < 4 → rd t.me.ctl.glim j = if j = i then BitVec.ofNat 32 (v.toNat % 2 ^ 25 / 4096 * 4096)
          else rd m.ctl.glim j) ∧ t = { s with me := { m with ctl := { m.ctl with glim := t.me.ctl.glim } } }))) ∧
    (s.pre.priv = .plugin → (i < 0x100 ∨ s.pre.onControl = true) → sysAssigned i = true →
      Traps (.sysw x (BitVec.ofNat 10 i) 0) s .privilege 0 tcPrivilege 0 0)

/-- R465–R467, R477: a plug-in call saves and clears the registers but x1–x4, keeps the successor in %psret, goes to its entry at
plug-in privilege and has a budget of 2,000 die cycles; a misaligned entry, and one beyond firmware memory, is refused with 3 in
%pstat, and so is a call in the window of a firmware update (log 111, DESIGN CHOICE: R477 says that none is called). It ends by
`trap 0`, by any other trap, BRK among them, or by overrun: the shadow returns, privilege is supervisor again, %pstat takes the
outcome with the cause, and after all but `trap 0` the function whose plug-in was called is marked faulted. -/
def Obligations.pluginCalls : Prop :=
  ∀ (s : State) (v : W32) (n : BitVec 16),
    let overrun := Event.pluginOverrun s.me.tid
    let called := fun (f : Func) => ∃ o l, f.plugin = some (o, l) ∧ s.me.die = (if f.fn < 257 then 16 else 17) ∧
      o ≤ s.me.ctl.pcall.toNat ∧ s.me.ctl.pcall.toNat < o + l
    let ended := fun (m : Thread) (t : State) (outcome : W32) =>
      t.me.priv = .supervisor ∧ t.me.pc = m.ctl.psret ∧ t.me.a = m.ctl.shA ∧ t.me.e = m.ctl.shE ∧ t.me.h = m.ctl.shH ∧
      t.me.c = m.ctl.shC ∧ (∀ k, k < 32 → k = 0 ∨ 5 ≤ k → rd t.me.x k = rd m.ctl.shX k) ∧ t.me.ctl.pstat = outcome ∧
      ¬ Awaits t overrun ∧ t.mem = s.mem
    let marked := fun (t : State) => ∀ (j : Nat) (f : Func), s.funcs[j]? = some f → ∃ g : Func, t.funcs[j]? = some g ∧
      (g.pluginFaulted = true ↔ f.pluginFaulted = true ∨ called f) ∧ { g with pluginFaulted := f.pluginFaulted } = f
    (s.updating = true ↔ ∃ o u, o ∈ s.io.toList ∧ o.update = some u ∧ 1 ≤ u.phase) ∧
    (v.toNat % 4 = 0 → v.toNat < s.me.abSize → s.updating = false → Completes (.pluginCall v) s (fun t =>
      t.me.priv = .plugin ∧ t.bun.taken = some (BitVec.ofNat 64 v.toNat) ∧ t.me.ctl.psret = s.bun.next ∧
      (∀ k, k < 32 → rd t.me.x k = if 1 ≤ k ∧ k ≤ 4 then rd s.me.x k else 0) ∧
      (∀ k, k < 16 → rd t.me.a k = 0) ∧ (∀ k, k < 8 → rd t.me.e k = 0) ∧ (∀ k, k < 8 → rd t.me.h k = 0) ∧ t.me.c = 0 ∧
      t.me.ctl.shX = s.me.x ∧ t.me.ctl.shA = s.me.a ∧ t.me.ctl.shE = s.me.e ∧ t.me.ctl.shH = s.me.h ∧
      t.me.ctl.shC = s.me.c ∧ t.mem = s.mem ∧
      t.agenda = s.agenda ++ [⟨.cycle s.me.die ((s.getDie s.me.die).cyc + 2000) rankLate, overrun⟩])) ∧
    (v.toNat % 4 ≠ 0 ∨ s.me.abSize ≤ v.toNat ∨ s.updating = true → exec (.pluginCall v) s =
      .next { s with me := { s.me with ctl := { s.me.ctl with pcall := v, pstat := 3 } } }) ∧
    (s.me.priv = .plugin →
      Completes (.trap 0) s (fun t => ended s.me t 0 ∧ (∀ k, 1 ≤ k → k ≤ 4 → rd t.me.x k = rd s.me.x k) ∧ t.funcs = s.funcs) ∧
      (n ≠ 0 → Completes (.trap n) s (fun t => ended s.me t 0x1102#32 ∧ marked t)) ∧
      Completes (.brk n) s (fun t => ended s.me t 0x1202#32 ∧ marked t)) ∧
    (∀ why c cause detail addr, s.pre.priv = .plugin → s.pre.tid = s.me.tid → s.pre.die = s.me.die →
      s.pre.ctl.pcall = s.me.ctl.pcall → cause ≠ tcTrap →
      ended s.pre (s.trapSyl why c cause detail addr) (BitVec.ofNat 32 (2 + cause.toNat * 256)) ∧
      (cause ≠ tcEcc → marked (s.trapSyl why c cause detail addr))) ∧
    (s.me.tid ≠ 0 → s.me.priv = .plugin → Completes (.pluginOverrun s.me.tid) s (fun t => ended s.me t 1 ∧ marked t))

/-! ### Load and store engine -/

/-- R204, R205, R134, R463, R466: the address of each mode, and the offsets that an access to an own buffer may have. A misaligned
one traps ALIGN and one beyond the buffer BUFFER_RANGE, with the address in ADDR; on a control core AB is its die's firmware
memory and there is no other buffer; at plug-in privilege the access must lie within one guard whose bits allow it, or it traps
ACCESS_RIGHT. -/
def Obligations.ownBufferAddresses : Prop :=
  ∀ (s : State) (a : BitVec 4) (d : BitVec 5) (sp m : BitVec 2) (o : BitVec 8) (ad : W64) (size align : Nat) (need : Need)
    (which : List Nat),
    let limit := ([196608, 98304, 65536] : List Nat)[sp.toNat]?.getD 0
    let outside := s.pre.priv == .plugin && !s.pre.ctl.guards need.guardBits ad.toNat size
    let firmware := if 16 ≤ s.pre.die then 16777216 else 1048576
    s.amAddr 0 a.toNat o size = s.ra a.toNat + BitVec.ofInt 64 (o.toInt * size) ∧
    s.amAddr 1 a.toNat o size = s.ra a.toNat + BitVec.ofInt 64 (s.rx (o.toNat % 32)).toInt ∧
    s.amAddr 2 a.toNat o size = s.ra a.toNat ∧
    (s.pre.onControl = false → sp.toNat < 3 →
      s.syncPlace sp.toNat ad size align need =
        (if ad.toNat % align ≠ 0 then .error tcAlign
         else if limit < ad.toNat + size then .error tcBufferRange
         else if outside then .error tcAccess
         else .ok (.here (bufKey s.pre.die s.pre.core sp.toNat ad.toNat)))) ∧
    (s.pre.onControl = true → s.syncPlace 0 ad size align need = .error tcBufferRange ∧
      s.syncPlace 2 ad size align need = .error tcBufferRange ∧
      s.syncPlace 1 ad size align need =
        (if ad.toNat % align ≠ 0 then .error tcAlign
         else if firmware < ad.toNat + size then .error tcBufferRange
         else if outside then .error tcAccess
         else .ok (.here (fwKey s.pre.die ad.toNat)))) ∧
    Need.guardBits .read = [2] ∧ Need.guardBits .write = [1] ∧ Need.guardBits .atomic = [2, 1] ∧
    (s.pre.ctl.guards which ad.toNat size = true ↔ ∃ g, g < 4 ∧
      let lo := (rd s.pre.ctl.gbase g).toNat / 4096 % 4096 * 4096
      let hi := (rd s.pre.ctl.glim g).toNat / 4096 % 8192 * 4096
      (∀ b, b ∈ which → (rd s.pre.ctl.gbase g).getLsbD b = true) ∧ lo < hi ∧ lo ≤ ad.toNat ∧ ad.toNat + size ≤ hi) ∧
    (sp.toNat < 3 → s.pre.offReq = none → ∀ c,
      (s.syncPlace sp.toNat (s.amAddr m a.toNat o 4) 4 4 .read = .error c →
        Traps (.ldW d a m sp o) s .trap 1 c 0 (s.amAddr m a.toNat o 4)) ∧
      (s.syncPlace sp.toNat (s.amAddr m a.toNat o 4) 4 4 .write = .error c →
        Traps (.stW d a m sp o) s .trap 1 c 0 (s.amAddr m a.toNat o 4)))

/-- R204, R207, R210: a load from the issuing core reads its bytes, in little-endian order, as they stood at the start of the
cycle (R151), and moves its base register in mode 10; everything else is as before. -/
def Obligations.loads : Prop :=
  ∀ (s : State) (d : BitVec 5) (a d4 : BitVec 4) (m sp : BitVec 2) (k3 : BitVec 3) (o : BitVec 8) (key : Nat),
    s.pre.offReq = none →
    let reads := fun (size align : Nat) =>
      s.syncPlace sp.toNat (s.amAddr m a.toNat o size) size align .read = .ok (.here key) ∧ s.eccRead key size = false
    let moved := fun (u : State) (size : Nat) => ∃ w, Noted s w ∧ BaseMoved w u m a (BitVec.ofInt 64 (o.toInt * size))
    let v := fun (n : Nat) => memRead s.mem0 key n
    (reads 1 1 → Completes (.ldB d a m sp o) s (fun t => ∃ u, moved u 1 ∧
      WritesX u t d.toNat ((BitVec.ofNat 8 (v 1)).signExtend 32))) ∧
    (reads 2 2 → Completes (.ldH d a m sp o) s (fun t => ∃ u, moved u 2 ∧
      WritesX u t d.toNat ((BitVec.ofNat 16 (v 2)).signExtend 32))) ∧
    (reads 4 4 → Completes (.ldW d a m sp o) s (fun t => ∃ u, moved u 4 ∧ WritesX u t d.toNat (BitVec.ofNat 32 (v 4)))) ∧
    (reads 8 8 → Completes (.ldD d4 a m sp o) s (fun t => ∃ u, moved u 8 ∧ WritesA u t d4.toNat (BitVec.ofNat 64 (v 8)))) ∧
    (reads 1 1 → Completes (.ldzB d a m sp o) s (fun t => ∃ u, moved u 1 ∧ WritesX u t d.toNat (BitVec.ofNat 32 (v 1)))) ∧
    (reads 2 2 → Completes (.ldzH d a m sp o) s (fun t => ∃ u, moved u 2 ∧ WritesX u t d.toNat (BitVec.ofNat 32 (v 2)))) ∧
    (reads 4 4 → Completes (.ldzW d4 a m sp o) s (fun t => ∃ u, moved u 4 ∧
      WritesA u t d4.toNat (BitVec.ofNat 64 (v 4)))) ∧
    (reads 256 8 → Completes (.ldv d4 a m sp o) s (fun t => ∃ u, moved u 256 ∧
      WritesV u t d4.toNat (fun w => w = BitVec.ofNat 2048 (v 256)))) ∧
    (reads 8 8 → Completes (.ldk k3 a m sp o) s (fun t => ∃ u, moved u 8 ∧ WritesK u t k3.toNat (BitVec.ofNat 64 (v 8))))

/-- R204, R207, R210: a store to the issuing core writes the low bytes of its register at the address the mode gives, and
moves its base register in mode 10; every other byte and register is as before. -/
def Obligations.stores : Prop :=
  ∀ (s : State) (d : BitVec 5) (a d4 : BitVec 4) (m sp : BitVec 2) (k3 : BitVec 3) (o : BitVec 8) (key : Nat),
    Memory.wf s.mem → s.pre.offReq = none →
    let writes := fun (size align : Nat) =>
      s.syncPlace sp.toNat (s.amAddr m a.toNat o size) size align .write = .ok (.here key) ∧ s.eccWrite key size = false
    let does := fun (i : Instr) (size v : Nat) => Completes i s (fun t => ∃ w u, Noted s w ∧ StoresAt w u key size v ∧
      BaseMoved u t m a (BitVec.ofInt 64 (o.toInt * size)))
    (writes 1 1 → does (.stB d a m sp o) 1 (s.rx d.toNat).toNat) ∧
    (writes 2 2 → does (.stH d a m sp o) 2 (s.rx d.toNat).toNat) ∧
    (writes 4 4 → does (.stW d a m sp o) 4 (s.rx d.toNat).toNat) ∧
    (writes 8 8 → does (.stD d4 a m sp o) 8 (s.ra d4.toNat).toNat) ∧
    (writes 256 8 → does (.stv d4 a m sp o) 256 (s.rv d4.toNat).toNat) ∧
    (writes 8 8 → does (.stk k3 a m sp o) 8 (s.rk k3.toNat).toNat)

/-- R211, R212: a strided or indexed load writes the lanes that its mask selects and leaves the others; a store writes the lanes
that its mask selects in ascending order, every other byte is as before, and of two lanes that meet the higher one's word
stands; mode 10 moves the base register by 64 strides. -/
def Obligations.laneTransfers : Prop :=
  (∀ (s : State) (v a i : BitVec 4) (m sp : BitVec 2) (k : BitVec 3) (x : BitVec 5) (key : Nat → Nat),
    s.pre.offReq = none →
    let step := BitVec.ofInt 64 (s.rx x.toNat).toInt
    let on := fun (l : Nat) => (s.rk k.toNat).getLsbD l
    let reads := fun (addr : Nat → W64) => ∀ l, l < 64 → on l = true →
      s.syncPlace sp.toNat (addr l) 4 4 .read = .ok (.here (key l)) ∧ s.eccRead (key l) 4 = false
    let lanes := fun (w : VReg) => ∀ l, l < 64 →
      elem 32 w l = if on l = true then BitVec.ofNat 32 (memRead s.mem0 (key l) 4) else elem 32 (rd s.me.v v.toNat) l
    (reads (fun l => s.ra a.toNat + BitVec.ofNat 64 l * step) → Completes (.ldvs v a m sp k x) s (fun t =>
      ∃ w u, Noted s w ∧ WritesV w u v.toNat lanes ∧ BaseMoved u t m a (BitVec.ofInt 64 (64 * (s.rx x.toNat).toInt)))) ∧
    (reads (fun l => s.ra a.toNat + BitVec.ofNat 64 (elem 32 (s.rv i.toNat) l).toNat) →
      Completes (.gld v a sp k i) s (fun t => ∃ w, Noted s w ∧ WritesV w t v.toNat lanes))) ∧
  (∀ (s : State) (v a i : BitVec 4) (m sp : BitVec 2) (k : BitVec 3) (x : BitVec 5) (key : Nat → Nat),
    Memory.wf s.mem → s.pre.offReq = none →
    let step := BitVec.ofInt 64 (s.rx x.toNat).toInt
    let on := fun (l : Nat) => (s.rk k.toNat).getLsbD l
    let writes := fun (addr : Nat → W64) => ∀ l, l < 64 → on l = true →
      s.syncPlace sp.toNat (addr l) 4 4 .write = .ok (.here (key l)) ∧ s.eccWrite (key l) 4 = false
    let stored := fun (u : State) =>
      (∀ b, (∀ l, l < 64 → on l = true → b < key l ∨ key l + 4 ≤ b) → memGet u.mem b = memGet s.mem b) ∧
      (∀ l, l < 64 → on l = true → (∀ j, l < j → j < 64 → on j = true → key j + 4 ≤ key l ∨ key l + 4 ≤ key j) →
        memRead u.mem (key l) 4 = (elem 32 (s.rv v.toNat) l).toNat) ∧
      ∃ w, Noted s w ∧ u = { w with mem := u.mem, ecc := u.ecc }
    (writes (fun l => s.ra a.toNat + BitVec.ofNat 64 l * step) → Completes (.stvs v a m sp k x) s (fun t =>
      ∃ u, stored u ∧ BaseMoved u t m a (BitVec.ofInt 64 (64 * (s.rx x.toNat).toInt)))) ∧
    (writes (fun l => s.ra a.toNat + BitVec.ofNat 64 (elem 32 (s.rv i.toNat) l).toNat) →
      Completes (.gst v a sp k i) s (fun t => stored t)))

/-- R213–R215, R271, R466: address arithmetic and the forms of AFX and EFX; PEER forms a peer address from a die, a core, a buffer
and the offset that its register holds. At plug-in privilege EFX and PEER trap PRIVILEGE. -/
def Obligations.addressRegisters : Prop :=
  ∀ (s : State) (d4 r4 : BitVec 4) (i : BitVec 13) (xx : BitVec 26) (h l d c : BitVec 5) (e : BitVec 3) (o : BitVec 4)
    (o3 : BitVec 3) (x y : BitVec 1) (q : BitVec 2),
    let putsA := fun (j : Instr) (r : BitVec 4) (v : W64) => Completes j s (fun t => WritesA s t r.toNat v)
    let putsE := fun (j : Instr) (r : BitVec 3) (v : W64) => Completes j s (fun t => WritesE s t r.toNat v)
    let hi := (s.rx h.toNat).toNat
    let lo := (s.rx l.toNat).toNat
    let form := fun (n old : Nat) => ([BitVec.ofNat 64 (hi * 2 ^ 32 + lo), BitVec.ofInt 64 (s.rx l.toNat).toInt,
      BitVec.ofNat 64 lo, BitVec.ofNat 64 (old / 2 ^ 32 * 2 ^ 32 + lo), BitVec.ofNat 64 (hi * 2 ^ 32 + old % 2 ^ 32)] :
        List W64)[n]?.getD 0
    let die := if y = 1 then s.dieReg s.pre else (s.rx d.toNat).toNat
    let core := if x = 1 then s.pre.core else (s.rx c.toNat).toNat
    putsA (.aadd d4 r4 i) d4 (s.ra r4.toNat + BitVec.ofInt 64 i.toInt) ∧
    putsA (.ali d4 i none) d4 (BitVec.ofInt 64 i.toInt) ∧
    putsA (.ali d4 i (some xx)) d4 (BitVec.ofInt 64 (xx ++ i).toInt) ∧
    (o.toNat < 5 → putsA (.afx h d4 l o) d4 (form o.toNat (s.ra d4.toNat).toNat)) ∧
    (s.pre.priv = .plugin → Traps (.efx e h l o3) s .privilege 4 tcPrivilege 0 0 ∧
      Traps (.peer d d4 c x y q) s .privilege 1 tcPrivilege 0 0) ∧
    (s.pre.priv ≠ .plugin → o3.toNat < 5 → putsE (.efx e h l o3) e (form o3.toNat (s.re e.toNat).toNat)) ∧
    (s.pre.priv ≠ .plugin → putsA (.peer d d4 c x y q) d4 (BitVec.ofNat 64 (2 ^ 63 + die % 16 * 2 ^ 55 +
      core % 256 * 2 ^ 47 + q.toNat * 2 ^ 45 + (s.ra d4.toNat).toNat % 2 ^ 20)))

/-- R156, R216–R218: an atomic on the issuing core stores the operation's result at its address, if it has one, and then delivers
the old value, its flags and its release; the results of the integer operations on w bits, the failing cas, and where the old
value goes: an x-register at size w, an a-register at size d unless its number is 16. -/
def Obligations.localAtomics : Prop :=
  (∀ (s : State) (d r : BitVec 5) (a o : BitVec 4) (z : BitVec 1) (p : BitVec 2) (xx : Option (BitVec 26)) (key : Nat),
    Memory.wf s.mem → s.pre.offReq = none →
    let e := extraOp xx
    let size := if z = 1 then 8 else 4
    let ad := s.ra a.toNat
    let old := memRead s.mem key size
    let x : W64 := if z = 1 ∧ e.det = false then s.ra r.toNat else BitVec.ofNat 64 (s.rx r.toNat).toNat
    let cmp : W64 := if z = 1 then s.ra e.xs2 else BitVec.ofNat 64 (s.rx e.xs2).toNat
    let n := atomicOp (8 * size) o.toNat e.det (BitVec.ofNat 8 (rd s.pre.dscale e.ds).toNat) old x.toNat cmp.toNat s.rndCtx
    s.syncPlace (p.toNat + 1) ad size size .atomic = .ok (.here key) → s.eccRead key size = false →
    ¬ (p = 2 ∧ addrBuf ad = 0) →
    Completes (.amo d a r o z p xx) s (fun t => ∃ w u, Noted s w ∧
      (match n.1 with
       | some v => StoresAt w u key size v
       | none => u = w) ∧ t = u.amoDone d o (z == 1) e old n.2 n.1.isSome (s.brought key size))) ∧
  (∀ (s : State) (d : BitVec 5) (o : BitVec 4) (w old x cmp : Nat) (fb : BitVec 8) (r : RndCtx) (e : ExtraOp) (f : Flags)
    (wrote z : Bool) (got : List MsgItem),
    (w = 32 ∨ w = 64 → old < 2 ^ w → x < 2 ^ w →
      let sg := fun (v : Nat) => (BitVec.ofNat w v).toInt
      let op := fun (k : Nat) => (atomicOp w k false fb old x cmp r).1
      (∀ k, k < 10 → (atomicOp w k false fb old x cmp r).2 = 0) ∧
      op 0 = some ((old + x) % 2 ^ w) ∧ op 1 = some (old &&& x) ∧ op 2 = some (old ||| x) ∧ op 3 = some (old ^^^ x) ∧
      (op 4).map sg = some (min (sg old) (sg x)) ∧ (op 5).map sg = some (max (sg old) (sg x)) ∧
      op 6 = some (min old x) ∧ op 7 = some (max old x) ∧ op 8 = some x ∧
      op 9 = (if old = cmp then some x else none)) ∧
    SameButOne s (s.amoDone d o z e old f wrote got) (if z = true then 1 else 0) d.toNat ∧
    (s.amoDone d o z e old f wrote got).mem = s.mem ∧
    (e.ord = 0 → (o ≠ 10 ∨ e.det = true) →
      let u := { s with me := { s.me with fflags := s.me.fflags ||| f.setWidth 32 }
                        bun := { s.bun with flags := s.bun.flags ||| f } }
      WritesX u (s.amoDone d o false e old f wrote got) d.toNat (BitVec.ofNat 32 old) ∧
      (d.toNat < 16 → WritesA u (s.amoDone d o true e old f wrote got) d.toNat (BitVec.ofNat 64 old)) ∧
      (16 ≤ d.toNat → s.amoDone d o true e old f wrote got = u)))

/-- R219–R221, R223: a remote operation takes a number, a handle and a request, and its destination alone is undefined until
the reply; a request to a buffer of the issuing core acts in the cycle of its issue (R143); a full context traps QUEUE_FULL, a misaligned address ALIGN, and a plug-in PRIVILEGE (R466). -/
def Obligations.remoteOperations : Prop :=
  ∀ (s : State) (d : BitVec 5) (a o : BitVec 4) (h : BitVec 3) (z : BitVec 2) (n : BitVec 1) (xx : Option (BitVec 26)),
    let ad := s.ra a.toNat
    let size := if z = 0 then 4 else if z = 2 then 256 else 8
    let align := if z = 0 then 4 else 8
    let none' : Nat := if (z = 0 ∨ z = 3) ∧ d = 0 then 4 else z.toNat
    let data : VReg := if z = 0 then (s.rx d.toNat).setWidth 2048 else if z = 1 then (s.ra d.toNat).setWidth 2048
      else if z = 2 then s.rv d.toNat else (s.rk d.toNat).setWidth 2048
    let three := fun (P : Instr → Prop) => P (.rld d a h z) ∧ P (.rst d a h z) ∧ P (.ramo d a h z n o xx)
    (s.pre.priv = .plugin → three (fun i => Traps i s .privilege 1 tcPrivilege 0 0)) ∧
    let own := fun (i : Instr) => Completes i s (fun t =>
      t.me.rc.i = seqNext s.me.rc.i ∧ (∃ q, q ∈ t.reqs ∧ q.rid = s.nextId ∧ q.applied = true ∧ q.addrs = [ad]) ∧
      rd t.me.h h.toNat = mkHandle 1 0 s.pre.turn (seqNext s.me.rc.i) ∧ Awaits t (.remoteReply s.nextId))
    (s.pre.priv ≠ .plugin → s.bun.stop = .none → s.pre.outstanding.length < 16 → ad.toNat % align = 0 → s.ownAddr ad = true →
      own (.rld d a h z) ∧ own (.rst d a h z) ∧ (z.toNat < 2 → own (.ramo d a h z n o xx))) ∧
    (s.pre.priv ≠ .plugin → s.bun.stop = .none → s.pre.outstanding.length < 16 → ad.toNat % align = 0 → s.ownAddr ad = false →
      Completes (.rld d a h z) s (fun t => SameButOne s t z.toNat d.toNat ∧
        RemoteIssued s t h.toNat ad size (fun q => q.kind = .load ∧ q.file = none' ∧ q.reg = d.toNat)) ∧
      Completes (.rst d a h z) s (fun t => SameButOne s t 4 0 ∧
        RemoteIssued s t h.toNat ad size (fun q => q.kind = .store ∧ q.data = data ∧ q.file = 4)) ∧
      (z.toNat < 2 → Completes (.ramo d a h z n o xx) s (fun t =>
        SameButOne s t (if n = 1 then 4 else z.toNat) d.toNat ∧
        RemoteIssued s t h.toNat ad size (fun q => q.kind = .atomic ∧ q.op = o.toNat ∧ q.det = (extraOp xx).det ∧
          q.order = (extraOp xx).ord ∧ (n = 1 → q.file = 4) ∧ (n = 0 → q.file = none' ∧ q.reg = d.toNat))))) ∧
    (s.pre.priv ≠ .plugin → s.bun.stop = .none → s.pre.outstanding.length < 16 → ad.toNat % align ≠ 0 →
      three (fun i => Completes i s (fun t => TrappedOut s t s.pre tcAlign 1 false 0 s.pre.pc ad (rd s.bun.words 1)))) ∧
    (s.pre.priv ≠ .plugin → s.bun.stop = .none → 16 ≤ s.pre.outstanding.length →
      three (fun i => Completes i s (fun t => TrappedOut s t s.pre tcQueueFull 1 false 0 s.pre.pc 0 (rd s.bun.words 1))))

/-- R208, R205, R134, R58: a load, a store, a lane transfer or an atomic that names another core sends one request for its
address, or for those of its lanes that name other cores, and holds its bundle with every register as it was; a stamped bundle
that holds one traps FRAME_OVERRUN instead; an address in die memory traps BUFFER_RANGE, and one that fails a check traps at its
first attempt. Nothing is sent then.

R208, R219, R151: a request that has reached its home, with nothing before it, reads or writes the bytes it names and is
answered; one of a single unit reads or writes exactly them. The reply of an off-core access lets its bundle go on, and the
reply of a remote operation delivers its value and completes its number. -/
def Obligations.requestsAndReplies : Prop :=
  (∀ (s : State) (d r : BitVec 5) (a d4 v i4 o4 : BitVec 4) (m : BitVec 2) (k3 k : BitVec 3) (o : BitVec 8) (x : BitVec 5)
      (z : BitVec 1) (xx : Option (BitVec 26)) (far : Nat → Bool), s.pre.offReq = none →
      let ad := fun (size : Nat) => s.amAddr m a.toNat o size
      let away := fun (w : W64) (size align : Nat) (need : Need) => ∃ b, s.syncPlace 3 w size align need = .ok (.away b)
      let sends := fun (i : Instr) (addrs : List W64) (P : Req → Prop) =>
        (s.pre.stamped = false → Completes i s (fun t => t.bun.stop = .held ∧ t.me.st = .blocked ∧ SameRegisters s.pre t.me ∧
          t.me.pc = s.pre.pc ∧ t.mem = s.mem ∧ t.me.offReq = some s.nextId ∧ Awaits t (.peerRequest s.nextId) ∧
          ∃ q, q ∈ t.reqs ∧ q.rid = s.nextId ∧ q.sync = true ∧ q.applied = false ∧ q.addrs = addrs ∧ P q)) ∧
        (s.pre.stamped = true → s.pre.priv ≠ .plugin → Completes i s (fun t =>
          TrappedOut s t s.pre tcOverrun 7 false (match s.bun.stamp with
            | some (nx, st) => BitVec.ofNat 32 (2 ^ 21 + (if nx = true then 2 ^ 20 else 0) + st)
            | none => 0#32) s.pre.pc 0 0))
      let fails := fun (i : Instr) (w : W64) (size align : Nat) (need : Need) =>
        (addrForm w < 2 → Traps i s .trap 1 tcBufferRange 0 w) ∧
        (∀ c, addrForm w = 2 → s.ownAddr w = false → s.pre.stamped = false → s.syncPlace 3 w size align need = .error c →
          Traps i s .attempt 1 c 0 w)
      let loads := fun (i : Instr) (size align : Nat) => fails i (ad size) size align .read ∧
        (away (ad size) size align .read → sends i [ad size] (fun q => q.kind = .load ∧ q.size = size))
      let stores := fun (i : Instr) (size align w : Nat) => fails i (ad size) size align .write ∧
        (away (ad size) size align .write → sends i [ad size] (fun q =>
          q.kind = .store ∧ q.size = size ∧ q.data.toNat = w % 256 ^ size))
      loads (.ldB d a m 3 o) 1 1 ∧ loads (.ldH d a m 3 o) 2 2 ∧ loads (.ldW d a m 3 o) 4 4 ∧ loads (.ldD d4 a m 3 o) 8 8 ∧
      loads (.ldzB d a m 3 o) 1 1 ∧ loads (.ldzH d a m 3 o) 2 2 ∧ loads (.ldzW d4 a m 3 o) 4 4 ∧ loads (.ldv d4 a m 3 o) 256 8 ∧
      loads (.ldk k3 a m 3 o) 8 8 ∧
      stores (.stB d a m 3 o) 1 1 (s.rx d.toNat).toNat ∧ stores (.stH d a m 3 o) 2 2 (s.rx d.toNat).toNat ∧
      stores (.stW d a m 3 o) 4 4 (s.rx d.toNat).toNat ∧ stores (.stD d4 a m 3 o) 8 8 (s.ra d4.toNat).toNat ∧
      stores (.stv d4 a m 3 o) 256 8 (s.rv d4.toNat).toNat ∧ stores (.stk k3 a m 3 o) 8 8 (s.rk k3.toNat).toNat ∧
      (let on := fun (l : Nat) => (s.rk k.toNat).getLsbD l
       let split := fun (addr : Nat → W64) (need : Need) => (∃ l, l < 64 ∧ on l = true ∧ far l = true) ∧
         ∀ l, l < 64 → on l = true → if far l = true then away (addr l) 4 4 need
           else ∃ key, s.syncPlace 3 (addr l) 4 4 need = .ok (.here key)
       let lanes := (List.range 64).filter (fun l => on l && far l)
       let strided := fun (l : Nat) => s.ra a.toNat + BitVec.ofNat 64 l * BitVec.ofInt 64 (s.rx x.toNat).toInt
       let indexed := fun (l : Nat) => s.ra a.toNat + BitVec.ofNat 64 (elem 32 (s.rv i4.toNat) l).toNat
       let words := fun (q : Req) => ∀ j l, lanes[j]? = some l → elem 32 q.data j = elem 32 (s.rv v.toNat) l
       (split strided .read → sends (.ldvs v a m 3 k x) (lanes.map strided) (fun q => q.kind = .load ∧ q.size = 4)) ∧
       (split indexed .read → sends (.gld v a 3 k i4) (lanes.map indexed) (fun q => q.kind = .load ∧ q.size = 4)) ∧
       (split strided .write → sends (.stvs v a m 3 k x) (lanes.map strided) (fun q => q.kind = .store ∧ q.size = 4 ∧ words q)) ∧
       (split indexed .write → sends (.gst v a 3 k i4) (lanes.map indexed) (fun q => q.kind = .store ∧ q.size = 4 ∧ words q))) ∧
      (let size := if z = 1 then 8 else 4
       let w := s.ra a.toNat
       (addrBuf w ≠ 0 → away w size size .atomic → sends (.amo d a r o4 z 2 xx) [w] (fun q => q.kind = .atomic ∧ q.size = size ∧
         q.op = o4.toNat ∧ q.det = (extraOp xx).det ∧ q.order = (extraOp xx).ord)) ∧
       (addrForm w < 2 → Traps (.amo d a r o4 z 2 xx) s .trap 1 tcBufferRange 0 w))) ∧
  ∀ (s s1 : State) (rid : Nat) (q : Req) (ps : List Piece) (m : Thread),
    s.getReq? rid = some q →
    (q.applied = false → (∀ r, r ∈ s.reqs → r.rid ∈ q.after → r.applied = true) → s.sameBefore q = false →
      s.scanReq q = (⟨ps, none⟩, s1) → s1.activityOf q.iss.die (ps.map (fun p => p.key)) = none → q.kind ≠ .atomic →
      (q.rush = true ∨ q.unit = q.size) →
      ∀ i, i ∈ [Instr.peerRequest rid, Instr.memoryRequest rid] → Completes i s (fun t =>
        (∃ r, t.getReq? rid = some r ∧ r.applied = true ∧
          (∀ p, ps = [p] → p.num = 0 → p.n = q.size → q.kind = .load → q.unit = q.size → q.result = 0 →
            (2 ^ 72 ≤ p.key → r.result = BitVec.ofNat 2048 (memRead s1.mem0 p.key q.size)) ∧
            (p.key < 2 ^ 72 → s1.late = [] → r.result = BitVec.ofNat 2048 (memRead s1.mem p.key q.size)))) ∧
        (q.kind = .load → t.mem = s1.mem) ∧
        (∀ p, ps = [p] → p.num = 0 → p.n = q.size → q.kind = .store → q.unit = q.size → Memory.wf s1.mem → ∀ b,
          memGet t.mem b = if p.key ≤ b ∧ b < p.key + q.size then q.data.extractLsb' (8 * (b - p.key)) 8
            else memGet s1.mem b) ∧
        Awaits t (if q.sync = true then .offCoreReply rid else .remoteReply rid))) ∧
    (s.getThread? q.iss.tid = some m → m.offReq = some rid →
      Completes (.offCoreReply rid) s (fun t => ∃ r, t.getReq? rid = some r ∧
        r = { q with replied := true, repliedAt := s.cyc m.die })) ∧
    (q.iss.tid ≠ 0 → s.me = m → m.tid = q.iss.tid → m.die = q.iss.die → m.core = q.iss.core → m.st ≠ .exited →
      q.fault = none → Completes (.remoteReply rid) s (fun t =>
        (q.noDeliver = false → q.file = 0 → q.reg < 32 → rd t.me.x q.reg = q.result.setWidth 32) ∧
        (q.noDeliver = false → q.file = 1 → q.reg < 16 → rd t.me.a q.reg = q.result.setWidth 64) ∧
        (q.noDeliver = false → q.file = 2 → q.reg < 16 → rd t.me.v q.reg = q.result) ∧
        (q.noDeliver = false → q.file = 3 → q.reg < 8 → rd t.me.k q.reg = q.result.setWidth 64) ∧
        (q.noDeliver = true → t.me.x = m.x ∧ t.me.a = m.a ∧ t.me.v = m.v ∧ t.me.k = m.k) ∧
        t.me.fflags = m.fflags ||| q.flags.setWidth 32 ∧ t.me.rc = m.rc.complete q.iss.num ∧ t.mem = s.mem ∧
        t.reqs = s.reqs.filter (fun r => r.rid != rid)))

/-! ### Number formats -/

/-- R104, R106, R108, R109, R117: a finite value of an IEEE format rounds to the pattern it came from, and every pattern of a T
format but NaR encodes back to itself, in every mode and without a flag; NaR decodes as a NaN. -/
def Obligations.patternsRoundToThemselves : Prop :=
  (∀ (f : Fmt) (b mode sr : Nat), f.isIeee = true → b < 2 ^ f.width → b / 2 ^ f.fracBits % 2 ^ f.expBits ≠ 2 ^ f.expBits - 1 →
    roundTo f mode (fDecode f b) sr = (b, 0)) ∧
  ((∀ b mode sr : Nat, b < 256 → b ≠ 128 → roundTo .t8 mode (decodeNum .t8 b) sr = (b, 0)) ∧
  (∀ b mode sr : Nat, b < 64 → b ≠ 32 → roundTo .t6 mode (decodeNum .t6 b) sr = (b, 0)) ∧
  decodeNum .t8 128 = .nan false ∧ decodeNum .t6 32 = .nan false)

/-- R117: a magnitude of m units, 2^sh of which make a quantum, goes to a neighbouring multiple of the quantum: the nearer one
with ties to even in mode 0, the lower in mode 1, the one above in modes 2 and 3 where the sign asks for it, the nearer one
with ties upward in mode 4. It is inexact when the quantum does not divide it. -/
def Obligations.roundingModes : Prop :=
  ∀ (m sh sr : Nat) (e : Int) (neg : Bool), 0 < sh → sr < 2 ^ 32 →
    let u := 2 ^ sh
    let r := fun (mode : Nat) => (quantise mode neg m e (e + sh) false sr).1
    (∀ mode, (quantise mode neg m e (e + sh) false sr).2 = decide (m % u ≠ 0)) ∧
    (∀ mode, r mode * u ≤ m + u - 1 ∧ m ≤ r mode * u + u - 1) ∧
    (2 * (r 0 * u) ≤ 2 * m + u ∧ 2 * m ≤ 2 * (r 0 * u) + u) ∧
    ((2 * (r 0 * u) = 2 * m + u ∨ 2 * m = 2 * (r 0 * u) + u) → r 0 % 2 = 0) ∧
    r 1 * u ≤ m ∧ (neg = false → m ≤ r 2 * u) ∧ (neg = true → r 2 * u ≤ m) ∧ (neg = true → m ≤ r 3 * u) ∧
    (neg = false → r 3 * u ≤ m) ∧ (2 * (r 4 * u) ≤ 2 * m + u ∧ 2 * m < 2 * (r 4 * u) + u)

/-! ### Vector engine -/

/-- R231, R233–R236, R123–R125: the short floating syllables round each exact result once, in the mode of %rnd; minimum,
maximum, sign operations and compares do not round. Reciprocal, reciprocal square root, exponential and logarithm land after
2 rotations, square root and quotient after 3. -/
def Obligations.vectorFloat : Prop :=
  (∀ (s : State) (d a b : BitVec 4) (k y d3 : BitVec 3) (n : BitVec 2), s.pre.onControl = false → y.toNat < 3 →
    let f : Fmt := ([.f32, .bf16, .f16] : List Fmt)[y.toNat]?.getD .f32
    let w := f.width
    let mode := s.pre.rnd.toNat % 8
    let pat := fun (r : BitVec 4) (l e : Nat) => (elem w (s.rv r.toNat) (32 / w * l + e)).toNat
    let num := fun (r : BitVec 4) (l e : Nat) => fDecode f (pat r l e)
    let rounded := fun (x : FNum × Flags) (l e : Nat) =>
      let z := roundTo f mode x.1 (s.rndCtx.sr l e)
      (z.1, x.2 ||| z.2)
    let maps := fun (i : Instr) (r : Bool) (g : Nat → Nat → Nat × Flags) => VMaps i s d.toNat (s.rk k.toNat) w r g
    let mag := fun (l e : Nat) => pat a l e % 2 ^ (w - 1)
    maps (.vfadd d a b k y) true (fun l e => rounded ((num a l e).add mode (num b l e)) l e) ∧
    maps (.vfsub d a b k y) true (fun l e => rounded ((num a l e).add mode (num b l e).negate) l e) ∧
    maps (.vfmul d a b k y) true (fun l e => rounded ((num a l e).mul (num b l e)) l e) ∧
    maps (.vfma d a b k y) true (fun l e => rounded (FNum.fma mode (num a l e) (num b l e) (num d l e)) l e) ∧
    maps (.vfnma d a b k y) true (fun l e => rounded (FNum.fma mode (num a l e).negate (num b l e) (num d l e)) l e) ∧
    maps (.vfmin d a b k y) false (fun l e => minMaxNum f false (pat a l e) (pat b l e)) ∧
    maps (.vfmax d a b k y) false (fun l e => minMaxNum f true (pat a l e) (pat b l e)) ∧
    maps (.vfabs d a k y) false (fun l e => (mag l e, 0)) ∧
    maps (.vfneg d a k y) false (fun l e => (if pat a l e < 2 ^ (w - 1) then mag l e + 2 ^ (w - 1) else mag l e, 0)) ∧
    maps (.vfcps d a b k y) false (fun l e =>
      (if 2 ^ (w - 1) ≤ pat b l e then mag l e + 2 ^ (w - 1) else mag l e, 0)) ∧
    Completes (.vfcmp d3 a b k n) s (fun t =>
      let c := fun (l : Nat) => cmpNum .f32 n.toNat (elem 32 (s.rv a.toNat) l).toNat (elem 32 (s.rv b.toNat) l).toNat
      let on := fun (l : Nat) => (s.rk k.toNat).getLsbD l
      ∃ m f u, (∀ l, l < 64 → m.getLsbD l = (on l && (c l).1)) ∧ FlagsAre 32 (s.rk k.toNat) f (fun l _ => (c l).2) ∧
        WritesK s u d3.toNat m ∧ t = { u with
          me := { u.me with fflags := s.me.fflags ||| f.setWidth 32 }, bun := { s.bun with flags := s.bun.flags ||| f } })) ∧
  (∀ (s : State) (d a b : BitVec 4) (k y : BitVec 3), s.pre.onControl = false → y.toNat < 3 →
    let f : Fmt := ([.f32, .bf16, .f16] : List Fmt)[y.toNat]?.getD .f32
    let w := f.width
    let mode := s.pre.rnd.toNat % 8
    let num := fun (r : BitVec 4) (l e : Nat) => fDecode f (elem w (s.rv r.toNat) (32 / w * l + e)).toNat
    let maps := fun (i : Instr) (n : Nat) (g : FNum → FNum → Nat → Nat × Flags) =>
      VMapsLong i s d.toNat (s.rk k.toNat) w n true (fun l e => g (num a l e) (num b l e) (s.rndCtx.sr l e))
    maps (.vfrcp d a k y) 2 (fun p _ sr => divNum f mode (.fin false 1 0) p sr) ∧
    maps (.vfrsq d a k y) 2 (fun p _ sr => rsqrtNum f mode p sr) ∧
    maps (.vfsqrt d a k y) 3 (fun p _ sr => sqrtNum f mode p sr) ∧
    maps (.vfexp2 d a k y) 2 (fun p _ sr => exp2Num f mode p sr) ∧
    maps (.vflog2 d a k y) 2 (fun p _ sr => log2Num f mode p sr) ∧
    maps (.vfdiv d a b k y) 3 (fun p q sr => divNum f mode p q sr))

/-- R237–R239: integer syllables compute on exact integers and wrap, or saturate with SAT; VMADW adds a lane's products to the
lane; VCMP writes its outcomes into a mask, 0 for inactive lanes; bitwise syllables; shifts, where a count of the element's
width or more gives zero, or the sign. -/
def Obligations.vectorIntegers : Prop :=
  (∀ (s : State) (d a b : BitVec 4) (k y d3 : BitVec 3) (q u : BitVec 1) (n : BitVec 2), s.pre.onControl = false →
    3 ≤ y.toNat → y.toNat ≤ 5 →
    let f : Fmt := Fmt.ofCode y (u == 1)
    let g : Fmt := if u = 1 then .b32 else .i32
    let val := fun (r : BitVec 4) (l e : Nat) => intElem f (s.rv r.toNat) l e
    let lane := fun (r : BitVec 4) (l : Nat) => intElem g (s.rv r.toNat) l 0
    let out := fun (h : Fmt) (v : Int) => if q = 1 then clamped h v else wrapped h v
    let maps := fun (i : Instr) (h : Fmt) (op : Nat → Nat → Nat × Flags) =>
      VMaps i s d.toNat (s.rk k.toNat) h.width false op
    maps (.vadd d a b k y q u) f (fun l e => out f (val a l e + val b l e)) ∧
    maps (.vsub d a b k y q u) f (fun l e => out f (val a l e - val b l e)) ∧
    maps (.vmul d a b k y q u) f (fun l e => out f (val a l e * val b l e)) ∧
    maps (.vmulh d a b k y u) f (fun l e => wrapped f (val a l e * val b l e / 2 ^ f.width)) ∧
    maps (.vmin d a b k y u) f (fun l e => wrapped f (min (val a l e) (val b l e))) ∧
    maps (.vmax d a b k y u) f (fun l e => wrapped f (max (val a l e) (val b l e))) ∧
    maps (.vabs d a k y q) (Fmt.ofCode y false) (fun l e =>
      out (Fmt.ofCode y false) ((intElem (Fmt.ofCode y false) (s.rv a.toNat) l e).natAbs : Int)) ∧
    (y.toNat ≠ 3 → maps (.vmadw d a b k y q u) g (fun l _ =>
      out g (lane d l + ((List.range (32 / f.width)).map (fun e => val a l e * val b l e)).sum))) ∧
    (y.toNat ≠ 5 → ∀ r : BitVec 1, maps (.vsat d a b k y r u) f (fun l e =>
      let x := if r = 1 ∧ 0 < b.toNat then val a l e + 2 ^ (b.toNat - 1) else val a l e
      let z := clamped (halfOf f) (x / 2 ^ b.toNat)
      ((wrapped f (max (halfOf f).minInt (min (halfOf f).maxInt (x / 2 ^ b.toNat)))).1, z.2))) ∧
    Completes (.vcmp d3 a b k n u) s (fun t => ∃ m, (∀ l, l < 64 → m.getLsbD l = ((s.rk k.toNat).getLsbD l &&
        ([decide (lane a l = lane b l), decide (lane a l ≠ lane b l), decide (lane a l < lane b l),
          decide (lane a l ≤ lane b l)] : List Bool)[n.toNat]?.getD false)) ∧ WritesK s t d3.toNat m)) ∧
  (∀ (s : State) (d a b : BitVec 4) (k y : BitVec 3) (c : BitVec 5), s.pre.onControl = false → 3 ≤ y.toNat → y.toNat ≤ 5 →
    let f : Fmt := Fmt.ofCode y false
    let w := f.width
    let pat := fun (r : BitVec 4) (l e : Nat) => (elem w (s.rv r.toNat) (32 / w * l + e)).toNat
    let lanes := fun (i : Instr) (op : W32 → W32 → W32) => VMaps i s d.toNat (s.rk k.toNat) 32 false (fun l _ =>
      ((op (elem 32 (s.rv a.toNat) l) (elem 32 (s.rv b.toNat) l)).toNat, 0))
    let shifts := fun (i : Instr) (g : Nat → Nat → Nat) => VMaps i s d.toNat (s.rk k.toNat) w false (fun l e => (g l e, 0))
    let left := fun (l e n : Nat) => pat a l e * 2 ^ n % 2 ^ w
    let right := fun (l e n : Nat) => pat a l e / 2 ^ n
    let arith := fun (l e n : Nat) => (wrapped f (intElem f (s.rv a.toNat) l e / 2 ^ n)).1
    lanes (.vand d a b k) (· &&& ·) ∧ lanes (.vor d a b k) (· ||| ·) ∧ lanes (.vxor d a b k) (· ^^^ ·) ∧
    shifts (.vshl d a b k y) (fun l e => left l e (pat b l e)) ∧
    shifts (.vshr d a b k y) (fun l e => right l e (pat b l e)) ∧
    shifts (.vsar d a b k y) (fun l e => arith l e (pat b l e)) ∧
    shifts (.vshlImm d a y k c) (fun l e => left l e c.toNat) ∧
    shifts (.vshrImm d a y k c) (fun l e => right l e c.toNat) ∧
    shifts (.vsarImm d a y k c) (fun l e => arith l e c.toNat))

/-- R240–R244: moves, permutes and slides deliver elements of their sources; one stored as T6 loses its bits [7:6] (R103). -/
def Obligations.vectorMoves : Prop :=
  ∀ (s : State) (d a b : BitVec 4) (k y : BitVec 3) (i : BitVec 1) (n12 : BitVec 12) (x : BitVec 5) (l6 : BitVec 6)
    (m : BitVec 2) (n9 : BitVec 9), s.pre.onControl = false →
    let w := (Fmt.ofCode y false).width
    let n := 64 * (32 / w)
    let all := BitVec.allOnes 64
    let flat := fun (r : BitVec 4) (j : Nat) => (elem w (s.rv r.toNat) j).toNat
    let keep := fun (v : Nat) => if y = 7 then v % 64 else v
    let c := if m = 0 then 1 else if m = 1 then 32 / w else n / 2
    let pair := fun (j : Nat) => if j < n then flat a j else flat b (j - n)
    let pairUp := fun (j : Nat) => if n ≤ j then flat a (j - n) else flat b j
    let lanes := fun (j : Instr) (mask : W64) (g : Nat → W32) =>
      VMaps j s d.toNat mask 32 false (fun l _ => ((g l).toNat, 0))
    let elems := fun (j : Instr) (mask : W64) (g : Nat → Nat) =>
      VMaps j s d.toNat mask w false (fun l e => (keep (g (32 / w * l + e)), 0))
    let v := s.rx x.toNat
    lanes (.vmov d a k) (s.rk k.toNat) (fun l => elem 32 (s.rv a.toNat) l) ∧
    lanes (.vmovImm d i n12) all (fun l => BitVec.ofInt 32 (n12.toInt + (if i = 1 then l else 0 : Nat))) ∧
    lanes (.vfx d x 0 0) all (fun _ => v) ∧
    lanes (.vfx d x 1 l6) (BitVec.ofNat 64 (2 ^ l6.toNat)) (fun _ => v) ∧
    lanes (.vfx d x 2 0) all (fun _ => BitVec.ofNat 32 (v.toNat % 2 ^ 16 * 0x10001)) ∧
    lanes (.vfx d x 3 0) all (fun _ => BitVec.ofNat 32 (v.toNat % 2 ^ 8 * 0x1010101)) ∧
    elems (.vperm d a b k y) (s.rk k.toNat) (fun j => flat a (flat b j % n)) ∧
    elems (.vslide d a b k y m 0) (s.rk k.toNat) (fun j => pair (j + c)) ∧
    elems (.vslide d a b k y m 1) (s.rk k.toNat) (fun j => pairUp (j + n - c)) ∧
    (n9.toNat ≤ n → elems (.vslideImm d a y 0 n9) all (fun j => if j + n9.toNat < n then flat a (j + n9.toNat) else 0) ∧
      elems (.vslideImm d a y 1 n9) all (fun j => if n9.toNat ≤ j then flat a (j - n9.toNat) else 0)) ∧
    lanes (.vsel d a b k) all (fun l =>
      if (s.rk k.toNat).getLsbD l = true then elem 32 (s.rv a.toNat) l else elem 32 (s.rv b.toNat) l)

/-- R245–R248, R126: narrowing, widening, conversion, quantisation and dequantisation of elements. A conversion between widths
works on part p of each lane and leaves the rest of the lane. -/
def Obligations.vectorConversions : Prop :=
  ∀ (s : State) (d a b : BitVec 4) (k y g : BitVec 3) (u h c z : BitVec 1) (p : BitVec 2), s.pre.onControl = false →
    let mode := s.pre.rnd.toNat % 8
    let sr := fun (l e : Nat) => s.rndCtx.sr l e
    let mask := s.rk k.toNat
    let flat := fun (w : Nat) (r : BitVec 4) (j : Nat) => (elem w (s.rv r.toNat) j).toNat
    let f := Fmt.ofCode y (u == 1)
    let f2 := doubleOf f
    let src := Fmt.ofCode g (c == 1)
    let dst := Fmt.ofCode y (z == 1)
    let half := 64 * (32 / f2.width)
    let q := fun (x : FNum × Flags) (o : Nat × Flags) => (o.1, x.2 ||| o.2)
    let f32 := fun (r : BitVec 4) (l : Nat) => fDecode .f32 (flat 32 r l)
    ((1 ≤ y.toNat ∧ y.toNat ≤ 5 ∧ y.toNat ≠ 3) → (u = 0 ∨ 3 < y.toNat) →
      VMaps (.vpack d a b k y u) s d.toNat mask f.width (!f.isInt) (fun l e =>
        let i := 32 / f.width * l + e
        let x := if i < half then flat f2.width a i else flat f2.width b (i - half)
        if f.isInt then saturate f (intOf f2 x) else convert .f32 f mode x (sr l e)) ∧
      VMaps (.vunpk d a k y h u) s d.toNat mask f2.width false (fun l e =>
        convert f f2 0 (flat f.width a (32 / f2.width * l + e + half * h.toNat)) 0)) ∧
    (VMaps (.vcvt d a c g k y p z) s d.toNat mask dst.width (cvtRounds src dst) (fun l e =>
      let from' := fun (j : Nat) => convert src dst mode (flat src.width a (32 / src.width * l + j)) (sr l e)
      let lo := 32 / src.width * p.toNat
      if src.width = dst.width then from' e
      else if dst.width < src.width then
        (if lo ≤ e ∧ e < lo + 32 / src.width then from' (e - lo) else (flat dst.width d (32 / dst.width * l + e), 0))
      else from' (e + 32 / dst.width * p.toNat))) ∧
    (4 ≤ y.toNat → (u = 0 ∨ y.toNat ≤ 5) →
      VMaps (.vqnt d a b k y p u) s d.toNat mask f.width true (fun l e =>
        if e = p.toNat then
          let x := (f32 a l).mul (f32 b l)
          q x (quantProduct f mode x.1 (sr l e))
        else (flat f.width d (32 / f.width * l + e), 0))) ∧
    (1 ≤ y.toNat → y.toNat ≠ 3 → (u = 0 ∨ 4 ≤ y.toNat ∧ y.toNat ≤ 5) →
      VMaps (.vdqnt d a b k y p u) s d.toNat mask 32 true (fun l _ =>
        let x := (decodeNum f (flat f.width a (32 / f.width * l + p.toNat))).mul (f32 b l)
        q x (roundTo .f32 mode x.1 (sr l 0))))

/-- R249, R250, R127, R128: a reduction gives its value to every lane and a scan its running value to each element of an
active lane, two rotations on. Over integers the sum is that of the active elements, and the running sum that of the elements
up to it, an inactive one counting 0. -/
def Obligations.reductionsAndScans : Prop :=
  ∀ (s : State) (d a : BitVec 4) (k y : BitVec 3) (o : BitVec 2) (u : BitVec 1), s.pre.onControl = false → o.toNat < 3 →
    let f := Fmt.ofCode y (u == 1)
    let mask := s.rk k.toNat
    let per := 32 / f.width
    let red := reduced f o.toNat s.rndCtx (s.rv a.toNat) mask
    let scn := scanned f o.toNat s.rndCtx (s.rv a.toNat) mask
    let rounds : Bool := decide (o = 0) && !f.isInt
    let at' := fun (i : Nat) => if mask.getLsbD (i / per) = true then intElem f (s.rv a.toNat) (i / per) (i % per) else 0
    (∃ v x, (∀ l, l < 64 → elem 32 v l = BitVec.ofNat 32 red.1) ∧
      exec (.vred d a k y o u) s = .next { (s.cancelTo 2 d.toNat) with
        me := { (s.cancelTo 2 d.toNat).me with
          v := wr s.me.v d.toNat x, undefs := s.me.undefs + 1
          longs := (s.cancelTo 2 d.toNat).me.longs ++ [{ file := .v, reg := d.toNat, value := v, left := 2, flags := red.2
                                                         latched := false, snap := false, cancelled := false }] }
        bun := { s.bun with counts := s.countsOf rounds } }) ∧
    (∃ v x, ElemsAre f.width mask (s.rv d.toNat) v (fun l e => scn.1[per * l + e]?.getD 0) ∧
      exec (.vscan d a k y o u) s = .next { (s.cancelTo 2 d.toNat) with
        me := { (s.cancelTo 2 d.toNat).me with
          v := wr s.me.v d.toNat x, undefs := s.me.undefs + 1
          longs := (s.cancelTo 2 d.toNat).me.longs ++ [{ file := .v, reg := d.toNat, value := v, left := 2, flags := scn.2
                                                         latched := false, snap := false, cancelled := false }] }
        bun := { s.bun with counts := s.countsOf rounds } }) ∧
    (f.isInt = true → f.width ≤ 32 → o = 0 →
      red = ((BitVec.ofInt 32 ((List.range (64 * per)).map at').sum).toNat, 0) ∧ scn.2 = 0 ∧
      ∀ i, i < 64 * per →
        scn.1[i]? = some (BitVec.ofInt f.width ((List.range (i + 1)).map at').sum).toNat)

/-- R251–R253: keys for Prism, mask operations and population counts. Wrong key parameters trap PRISM_WINDOW. -/
def Obligations.keysAndMasks : Prop :=
  ∀ (s : State) (d a b : BitVec 4) (k y d3 a3 c3 : BitVec 3) (p n r : BitVec 1),
    s.pre.onControl = false →
    let f := Fmt.ofCode y false
    let par := s.rv b.toNat
    let off := decodeNum (if f.isInt then .i32 else .f32) (elem 32 par 0).toNat
    let sc := fDecode .f32 (elem 32 par 1).toNat
    let w := (elem 32 par 2).toNat
    let x := s.rk a3.toNat
    let z := s.rk c3.toNat
    let tick := fun (v : Nat) => keyTick
      (if r = 1 then (off.add 0 (decodeNum f v).negate).1 else ((decodeNum f v).add 0 off.negate).1) sc w (n == 1)
    let puts := fun (j : Instr) (P : W64 → Prop) => Completes j s (fun t => ∃ v, P v ∧ WritesK s t d3.toNat v)
    (1 ≤ w → w < 256 → (∃ m e, sc = .fin false m e ∧ m ≠ 0) → (∃ g m e, off = .fin g m e) →
      VMaps (.vkey d a b k y p n r) s d.toNat (s.rk k.toNat) 16 false (fun l e =>
        if f.width = 16 then (tick (elem 16 (s.rv a.toNat) (2 * l + e)).toNat, 0)
        else if e = p.toNat then (tick (elem 32 (s.rv a.toNat) l).toNat, 0)
        else ((elem 16 (s.rv d.toNat) (2 * l + e)).toNat, 0))) ∧
    (w = 0 ∨ 256 ≤ w → Traps (.vkey d a b k y p n r) s .trap 2 tcWindow 0 0) ∧
    puts (.kop d3 a3 c3 0) (fun v => v = x &&& z) ∧ puts (.kop d3 a3 c3 1) (fun v => v = x ||| z) ∧
    puts (.kop d3 a3 c3 2) (fun v => v = x ^^^ z) ∧ puts (.kop d3 a3 c3 3) (fun v => v = x &&& ~~~z) ∧
    puts (.kop d3 a3 c3 4) (fun v => v = ~~~x) ∧
    VMaps (.kpop d a3 p) s d.toNat (BitVec.allOnes 64) 32 false (fun l _ =>
      (((List.range (if p = 1 then l else 64)).filter (fun j => x.getLsbD j)).length, 0))

/-- R254, R255: the mask of the lowest set bit in its three forms, and the mask of the first n lanes or its complement; the words of
both, and the values that trap ILLEGAL_SYLLABLE. -/
def Obligations.maskSyllables : Prop :=
  ∀ (s : State) (d a m : BitVec 3) (n : BitVec 8) (i : BitVec 1), s.pre.onControl = false → s.pre.priv ≠ .plugin →
    let first := BitVec.ofNat 32 (0x2A400000 + d.toNat * 0x20000 + a.toNat * 0x2000 + m.toNat)
    let set := BitVec.ofNat 32 (0x2A600000 + d.toNat * 0x20000 + n.toNat * 0x200 + i.toNat)
    let k := s.rk a.toNat
    let below := fun (j : Nat) => ∀ q, q ≤ j → k.getLsbD q = false
    let puts := fun (j : Instr) (P : W64 → Prop) => Completes j s (fun t => ∃ v, P v ∧ WritesK s t d.toNat v)
    let illegal := fun (w : W32) => decode [w] = .error .value ∧
      Completes (.illegalSyllable 2 w) s (fun t => TrappedOut s t s.pre tcIllegal 2 false 0 s.pre.pc 0 w)
    (m.toNat ≤ 2 → decode [first] = .ok (.kfirst d a m)) ∧
    (∀ b, b < 64 → k.getLsbD b = true → (∀ q, q < b → k.getLsbD q = false) →
      (m = 0 → puts (.kfirst d a m) (fun v => ∀ j, j < 64 → v.getLsbD j = decide (j = b))) ∧
      (m = 1 → puts (.kfirst d a m) (fun v => ∀ j, j < 64 → v.getLsbD j = decide (j < b))) ∧
      (m = 2 → puts (.kfirst d a m) (fun v => ∀ j, j < 64 → v.getLsbD j = decide (j ≤ b)))) ∧
    (below 63 → (m = 0 → puts (.kfirst d a m) (fun v => v = 0)) ∧
      (m = 1 ∨ m = 2 → puts (.kfirst d a m) (fun v => v = BitVec.allOnes 64))) ∧
    (2 < m.toNat → illegal first) ∧
    (n.toNat ≤ 64 → decode [set] = .ok (.kset d n i) ∧
      (i = 0 → puts (.kset d n i) (fun v => ∀ j, j < 64 → v.getLsbD j = decide (j < n.toNat))) ∧
      (i = 1 → puts (.kset d n i) (fun v => ∀ j, j < 64 → v.getLsbD j = decide (n.toNat ≤ j)))) ∧
    (64 < n.toNat → illegal set) ∧
    (∀ z : BitVec 8, z ≠ 0 → decode [set ||| BitVec.ofNat 32 (2 * z.toNat)] = .error .field ∨ 64 < n.toNat)

/-- R256, R257: VMM reads its sources from AB and writes the active lanes of its result to AB, moves its three pointers on by
256 and delays the thread by the bank conflicts of its operands. Writes under way that an acquire of its bundle makes happen
before it are applied first (R145; log 55, DESIGN CHOICE).

R22, R93: every V syllable, and every M syllable that issues a command, traps ILLEGAL_SYLLABLE on a control core. -/
def Obligations.vectorMemoryToMemory : Prop :=
  (∀ (s : State) (d a b : BitVec 4) (k y o : BitVec 3), s.pre.onControl = false → Memory.wf s.mem → s.ecc = [] →
    o.toNat < 6 →
    let fits := fun (p : W64) => p.toNat % 8 = 0 ∧ p.toNat + 256 ≤ 98304
    let f := Fmt.ofCode y false
    let key := fun (p : W64) => bufKey s.pre.die s.pre.core 1 p.toNat
    let x := s.ra a.toNat
    let z := s.ra b.toNat
    let ds := s.ra d.toNat
    let mode := s.pre.rnd.toNat % 8
    let u := s.applyNow s.me.before
    let on := fun (l : Nat) => (s.rk k.toNat).getLsbD l
    let pat := fun (p : W64) (l e : Nat) => memRead u.mem (key p + 4 * l + f.width / 8 * e) (f.width / 8)
    let exact := fun (l e : Nat) =>
      let p := fDecode f (pat x l e)
      let q := fDecode f (pat z l e)
      let c := fDecode f (pat ds l e)
      if o = 0 then p.add mode q else if o = 1 then p.add mode q.negate else if o = 2 then p.mul q
      else FNum.fma mode p q c
    let whole := fun (l e : Nat) =>
      let p := intOf f (pat x l e)
      let q := intOf f (pat z l e)
      if o = 0 then p + q else if o = 1 then p - q else if o = 2 then p * q else if o = 3 then p * q + intOf f (pat ds l e)
      else if o = 4 then min p q else max p q
    let res := fun (l e : Nat) =>
      if f.isInt then (wrapped f (whole l e)).1
      else if 4 ≤ o.toNat then (minMaxNum f (o = 5) (pat x l e) (pat z l e)).1
      else (roundTo f mode (exact l e).1 (s.rndCtx.sr l e)).1
    (s.me.before = [] → u = s) ∧ (fits x → fits z → fits ds → Completes (.vmm d a b k y o) s (fun t =>
      (∀ l e, l < 64 → e < 32 / f.width → on l = true →
        memRead t.mem (key ds + 4 * l + f.width / 8 * e) (f.width / 8) = res l e) ∧
      (∀ c, (∀ l, l < 64 → on l = true → c < key ds + 4 * l ∨ key ds + 4 * l + 4 ≤ c) → memGet t.mem c = memGet u.mem c) ∧
      (∀ r, r < 16 → rd t.me.a r = if r = a.toNat ∨ r = b.toNat ∨ r = d.toNat then s.ra r + 256 else rd s.me.a r) ∧
      t.me.vdly = vmmDelay ds.toNat x.toNat z.toNat (o = 3) ∧ t.me.x = s.me.x ∧ t.me.v = s.me.v ∧ t.me.k = s.me.k))) ∧
  ∀ (s : State) (i : Instr), s.pre.onControl = true →
    (isVector i = true → Traps i s .illegal 2 tcIllegal 0 0) ∧
    ((matrixCommand i).isSome = true ∨ (prismCommand i).isSome = true → Traps i s .illegal 3 tcIllegal 0 0)

/-! ### Encodings, steps, reset and memory -/

/-- R63, R76–R92: words written out from the encodings of the chapters, some of each class, and the instruction that each
stands for; a reserved opcode, an operand out of range and a bit that must be zero are refused. -/
def Obligations.decodedWords : Prop :=
  decode [0x802529C0#32] = .ok (.add 5 5 7) ∧
  decode [0x84273801#32] = .ok (.addImm 7 7 1) ∧
  decode [0x88A03002#32] = .ok (.loop 0 6 2) ∧
  decode [0x8A230C00#32] = .ok (.sysw 3 0x030 0) ∧
  decode [0x07490C45#32] = .ok (.cmp 2 2 3 2 5) ∧
  decode [0x120371F0#32] = .ok (.ldv 3 7 0 1 0xF0) ∧
  decode [0x1404DFFF#32] = .ok (.aadd 2 6 0x1FFF) ∧
  decode [0x200ACCD0#32] = .ok (.vfadd 5 6 6 3 2) ∧
  decode [0x2A66800A#32] = .error .field ∧
  decode [0x32053B07#32] = .ok (.mmul 1 2 7 3 7) ∧
  decode [0x34027610#32] = .ok (.pwin 9 1 2 6 0x10) ∧
  decode [0x40015000#32] = .ok (.send 2 5) ∧
  decode [0x420A6AA0#32] = .ok (.cpy 5 3 2 5 1) ∧
  decode [0x5C10000F#32] = .ok (.issueStamp 1 15) ∧
  decode [0x00000001#32] = .error .field ∧
  decode [0x0FE00000#32] = .error .unassigned ∧
  decode [0x88A03000#32] = .error .value

/-- R76–R92: every well-formed instruction that has an encoding is read back from its words, whatever its operands. -/
def Obligations.decodeOfEncode : Prop :=
  ∀ i : Instr, i.wf = true → i.encoded = true → decode (encode i) = .ok i

/-- R201: the word of opcode 0x00 with every field zero is NOP, a nonzero field there is no instruction, and NOP changes no
state. -/
def Obligations.nopChangesNothing : Prop :=
  decode [0x00000000#32] = .ok .nop ∧ decode [0x80000000#32] = .ok .nop ∧
  (∀ v : BitVec 21, v ≠ 0 → decode [BitVec.ofNat 32 v.toNat] = .error .field) ∧
  ∀ s : State, exec .nop s = .next s

/-- R63–R75, R83: when the packet at the pc of the thread whose turn it is holds a bundle of one word, and the decoder reads an
instruction from it that passes its checks, the step is `exec` of that instruction on the thread's state, then the bundle's
release, and then what follows every step. -/
def Obligations.stepRunsTheDecodedInstruction : Prop :=
  ∀ (s s1 s0 s3 s4 : State) (tid : Nat) (rest : List Nat) (m : Thread) (p : BitVec 256) (w : W32) (i : Instr),
    Attempts s tid rest m →
    ({ s with tick := s.tick + 1, slots := rest }.checkout m).fetchPacket m (packetAddr m.pc) = (.ok p, s1) →
    bundleWords p m.pc = [w] → badForm p m.pc = false → wordClass w ≤ 4 → decode [w] = .ok i →
    let b := parseBundle p m.pc
    let s2 := { s1 with me := { s1.me with packet := some p }, pre := { s1.pre with packet := some p }
                        bun := { s1.bun with next := b.next, words := b.words } }
    actsLast s2 i = false → exec i s2 = .next s0 → s0.bun.stop = .none →
    exec i { s2 with bun := { s2.bun with checked := true } } = .next s3 → s3.bun.stop = .none →
    exec .bundleRelease s3 = .next s4 →
      step s = .next s4.commit.framesHouse.savesHouse

/-- Every instruction, whatever its operands and the state, is a next state, and so is every step: each fault of the manual is a
trap or a fault record, and no instruction is refused. -/
def Obligations.nothingStops : Prop :=
  (∀ (i : Instr) (s : State), ∃ t, exec i s = .next t) ∧
  (∀ s : State, ∃ t, step s = .next t)

/-- R478, R479, R481, R482, R14: what package reset leaves: no thread, launch, partition or command, the stacks with port 0,
every measurement register zero, an empty log, empty readiness and dead maps and no die up; and memory in canonical form (the model's own rule, log 10, DESIGN CHOICE). -/
def Obligations.resetState : Prop :=
  (State.reset.threads = [] ∧ State.reset.launches = [] ∧ State.reset.parts = [] ∧ State.reset.cmds = [] ∧
  State.reset.reqs = [] ∧ State.reset.traps = [] ∧ State.reset.stackPort = 0 ∧
  (∀ k, k < 8 → rd State.reset.kaolin.mr k = 0) ∧ State.reset.kaolin.log = [] ∧ State.reset.kaolin.ready = 0 ∧ State.reset.kaolin.deadMap = 0 ∧
  (∀ d, (State.reset.getDie d).up = false)) ∧
  (Memory.wf State.reset.mem ∧ Memory.wf State.reset.mem0)

/-- Memory keeps its canonical form in every step, whatever the state (the model's own rule, log 10, DESIGN CHOICE). -/
def Obligations.stepKeepsMemoryCanonical : Prop :=
  ∀ s t : State, Memory.wf s.mem → step s = .next t → Memory.wf t.mem

/-- R3: a value stored is the value read back, in little-endian order, bytes outside the store are as before, and a store of
what stands there changes nothing of memory. Reset memory lists nothing, and every byte of it reads as 0 (log 2, DESIGN
CHOICE). -/
def Obligations.storeAndLoad : Prop :=
  ∀ (s : State) (key n w : Nat) (v : BitVec w), Memory.wf s.mem →
    memRead (s.store key n v).mem key n = v.toNat % 256 ^ n ∧
    (∀ b, b < key ∨ key + n ≤ b → memGet (s.store key n v).mem b = memGet s.mem b) ∧
    Memory.wf (s.store key n v).mem ∧
    (s.store key n (BitVec.ofNat (8 * n) (memRead s.mem key n))).mem = s.mem ∧
    State.reset.mem = [] ∧ memGet State.reset.mem key = 0 ∧
    (∀ a k, (∀ b, key ≤ b → b < key + n → memGet (s.clear key n).mem b = 0) ∧
      (a < key ∨ key + n ≤ a → memGet (s.clear key n).mem a = memGet s.mem a) ∧ Memory.wf (s.clear key k).mem)

/-! ### Matrix engine and Prism -/

/-- R307, R313, R325–R327: QSET writes one field and leaves every other bit; QLD and QST move 32 bytes of AB, reserved bits as
zero; MOWN takes an engine that nobody holds and MOWN.REL gives it back. A misaligned offset traps ALIGN, one beyond the
buffer BUFFER_RANGE, and an engine of another thread ENGINE_OWNER. -/
def Obligations.streamRegisters : Prop :=
  ∀ (s : State) (q : BitVec 3) (x f : BitVec 5) (n : BitVec 8), s.pre.onControl = false →
    let o := (s.rx x.toNat).toNat + 32 * n.toNat
    let key := bufKey s.pre.die s.pre.core 1 o
    let own := (s.matOf s.pre.die s.pre.core).owner
    let lo := (qField f.toNat).1
    let w := (qField f.toNat).2
    (f.toNat < 15 → Completes (.qset q x f n) s (fun t => ∃ v : QReg,
      (v.extractLsb' lo w).toNat = ((s.rx x.toNat).toNat + n.toNat) % 2 ^ w ∧
      (∀ b, b < lo ∨ lo + w ≤ b → v.getLsbD b = (s.rq q.toNat).getLsbD b) ∧ WritesQ s t q.toNat v)) ∧
    (o % 32 = 0 → o + 32 ≤ 98304 → s.eccRead key 32 = false →
      Completes (.qld q x n) s (fun t => ∃ u, Noted s u ∧
        WritesQ u t q.toNat (BitVec.ofNat 256 (memRead s.mem0 key 32) &&& qMask))) ∧
    (o % 32 = 0 → o + 32 ≤ 98304 → Memory.wf s.mem →
      Completes (.qst q x n) s (fun t => ∃ u, Noted s u ∧ StoresAt u t key 32 (s.rq q.toNat &&& qMask).toNat)) ∧
    (o % 32 ≠ 0 → Traps (.qld q x n) s .trap 3 tcAlign 0 (BitVec.ofNat 64 o) ∧
      Traps (.qst q x n) s .trap 3 tcAlign 0 (BitVec.ofNat 64 o)) ∧
    (o % 32 = 0 → 98304 < o + 32 → Traps (.qld q x n) s .trap 3 tcBufferRange 0 (BitVec.ofNat 64 o) ∧
      Traps (.qst q x n) s .trap 3 tcBufferRange 0 (BitVec.ofNat 64 o)) ∧
    (own = none → Completes .mown s (fun t =>
      (t.matOf s.pre.die s.pre.core).owner = some s.pre.tid ∧ t.me = s.me ∧ t.mem = s.mem)) ∧
    (own = some s.pre.tid → exec .mown s = .next s ∧ Completes .mownRel s (fun t =>
      (t.matOf s.pre.die s.pre.core).owner = none ∧ t.me = s.me ∧ t.mem = s.mem)) ∧
    (∀ u, own = some u → u ≠ s.pre.tid → Traps .mown s .trap 3 tcOwner 0 0) ∧
    (own ≠ some s.pre.tid → Traps .mownRel s .trap 3 tcOwner 0 0)

/-- R311–R315, R324, R328–R332, R343, R345, R348–R353: the checks of a matrix or a Prism command in their order, with what each reports,
and its issue: the next number, a handle, and a place at the end of the engine's queue. Which code of STREAM_RESERVED, which
misaligned field, which region and which neighbour is reported, where several fail, is the model's choice (log 77, DESIGN
CHOICE). -/
def Obligations.engineCommands : Prop :=
  (∀ (s : State) (i : Instr) (kind : MatKind) (qa qb tile n : Nat) (h : BitVec 3),
    matrixCommand i = some (kind, qa, qb, tile, h, n) → s.pre.onControl = false →
    let m := s.matOf s.pre.die s.pre.core
    let a := (qa, s.rq qa)
    let b := (qb, s.rq qb)
    let mine := m.owner = some s.pre.tid
    let room := m.queue.length + m.tl.held.length < 4
    let num := seqNext m.tl.i
    (¬ mine → Traps i s .trap 3 tcOwner 0 0) ∧
    (mine → ¬ room → Traps i s .trap 3 tcQueueFull 0 0) ∧
    (∀ code q, mine → room → kind.reserved a b = some (code, q) →
      Traps i s .trap 3 tcStream (BitVec.ofNat 32 (code + q * 256)) 0) ∧
    (∀ v, mine → room → kind.reserved a b = none → kind.misaligned a b = some v →
      Traps i s .trap 3 tcAlign 0 (BitVec.ofNat 64 v)) ∧
    (∀ (r : Region) (k : Nat), (∀ j, j < k → r.base + j * r.stride + r.len ≤ bufSize r.buf) → (k = r.rows → r.past = none) ∧
      (k < r.rows → bufSize r.buf < r.base + k * r.stride + r.len →
        r.past = some (max (r.base + k * r.stride) (bufSize r.buf)))) ∧
    (∀ v, mine → room → kind.reserved a b = none → kind.misaligned a b = none →
      (kind.regions n a b).findSome? Region.past = some v → Traps i s .trap 3 tcBufferRange 0 (BitVec.ofNat 64 v)) ∧
    (∀ k, mine → room → kind.reserved a b = none → kind.misaligned a b = none →
      (∀ r, r ∈ kind.regions n a b → r.past = none) → kind = .mul false true →
      (rings s.pre.core (qRing a.2) (qRing b.2)).find? (fun k => !s.coreHeld s.pre.die k s.pre.lid) = some k →
      Traps i s .trap 3 tcPeerAbsent 0 (BitVec.ofNat 64 k)) ∧
    (mine → room → kind.reserved a b = none → kind.misaligned a b = none →
      (∀ r, r ∈ kind.regions n a b → r.past = none) →
      (kind = .mul false true → ∀ k, k ∈ rings s.pre.core (qRing a.2) (qRing b.2) →
        s.coreHeld s.pre.die k s.pre.lid = true) →
      Completes i s (fun t => PutsHandle s t h.toNat (mkHandle 2 0 s.pre.turn num) ∧
        (t.matOf s.pre.die s.pre.core).tl.i = num ∧ ∃ c, (t.matOf s.pre.die s.pre.core).queue = m.queue ++ [c] ∧
        c.kind = kind ∧ c.tile = tile ∧ c.groupCount = n ∧ c.qa = a.2 ∧ (∀ p r, kind = .mul p r → c.qb = b.2) ∧
        c.start = none ∧ c.fault = none ∧ c.iss.num = num ∧ c.iss.tid = s.pre.tid ∧ c.iss.rnd = s.pre.rnd))) ∧
  (∀ (s : State) (i : Instr) (kind : PrismKind) (qn : Option Nat) (mask : BitVec 4) (h : BitVec 3),
    prismCommand i = some (kind, qn, mask, h) → s.pre.onControl = false →
    let p := s.prismOf s.pre.die s.pre.core
    let q := (qn.map s.rq).getD 0
    let mine := (s.matOf s.pre.die s.pre.core).owner = some s.pre.tid
    let room := p.queue.length + p.tl.held.length < 4
    let sound := kind.reserved q = none ∧ kind.misaligned q = none ∧
      ∀ r, r ∈ kind.footprint q mask → r.2.1 + r.2.2 ≤ bufSize r.1
    let dirty := p.dirtyAfter &&& mask
    let num := seqNext p.tl.i
    (¬ mine → Traps i s .trap 3 tcOwner 0 0) ∧
    (mine → ¬ room → Traps i s .trap 3 tcQueueFull 0 0) ∧
    (∀ code, mine → room → kind.reserved q = some code →
      Traps i s .trap 3 tcStream (BitVec.ofNat 32 (code + qn.getD 0 * 256)) 0) ∧
    (∀ v, mine → room → kind.reserved q = none → kind.misaligned q = some v →
      Traps i s .trap 3 tcAlign 0 (BitVec.ofNat 64 v)) ∧
    (∀ v, mine → room → kind.reserved q = none → kind.misaligned q = none →
      (kind.footprint q mask).findSome? (fun r =>
        if bufSize r.1 < r.2.1 + r.2.2 then some (max r.2.1 (bufSize r.1)) else none) = some v →
      Traps i s .trap 3 tcBufferRange 0 (BitVec.ofNat 64 v)) ∧
    (mine → room → sound → kind = .plaunch → p.winIssued = false → Traps i s .trap 3 tcWindow 1 0) ∧
    (mine → room → sound → kind = .plaunch → p.winIssued = true → dirty ≠ 0 →
      Traps i s .trap 3 tcWindow (BitVec.ofNat 32 (2 + dirty.toNat * 256)) 0) ∧
    (mine → room → sound → (kind = .plaunch → p.winIssued = true ∧ dirty = 0) →
      Completes i s (fun t => PutsHandle s t h.toNat (mkHandle 3 0 s.pre.turn num) ∧
        (t.prismOf s.pre.die s.pre.core).tl.i = num ∧ ∃ c, (t.prismOf s.pre.die s.pre.core).queue = p.queue ++ [c] ∧
        c.kind = kind ∧ c.mask = mask ∧ c.q = q ∧ c.start = none ∧ c.fault = none ∧ c.iss.num = num ∧
        c.iss.tid = s.pre.tid)))

/-- R317, R319–R322, R283: a cycle of a command reads a group and a row pair, in the first cycles of a product both of them, and
writes a row pair of its tile, or the elements of MDRN in AB; a started MMROT tells the cores of its rings, and a cycle of its
transfer lands bytes of its operand there, a T6 byte without its bits [7:6] (R103); a transfer whose shape the receiver does not
name fails both commands with PROTECTION, a command stopped by ECC sends nothing, and one that awaits a transfer from it takes
PROTECTION; the last cycle completes the command, or puts its fault into the record. -/
def Obligations.matrixCycles : Prop :=
  ∀ (s : State) (d c num e : Nat) (q : MatCmd), s.matCmd? d c num = some q → q.iss.die = d → q.iss.core = c →
    s.ecc = [] → (s.getDie d).stopped = false →
    let tileKey := fun (r : Nat) => bufKey d c 2 (4096 * q.tile + 256 * r)
    let goesOn := fun (t : State) => Awaits t (if e < q.lastCycle then .matrixStart d c num (e + 1) else .matrixComplete d c num)
    let next := fun (t : State) => ∃ q', t.matCmd? d c num = some q' ∧ q'.iss = q.iss ∧ q'.fault = none ∧
      q'.written = q.written + 1
    let source := fun (r n : Nat) => bufKey d c 1 (q.drnAddr (2 * r + n / 32) (n % 32))
    let word := fun (r n : Nat) => match q.kind with
      | .ldc inn =>
        let v := memRead s.mem0 (source r n) (q.kind.width q.qa)
        if inn = 0 then BitVec.ofNat 32 v else if inn = 2 then (BitVec.ofNat 8 v).signExtend 32
        else BitVec.ofNat 32 (convert (qFmtOf q.qa) .f32 0 v 0).1
      | _ => BitVec.ofNat 32 (memRead s.mem0 (tileKey r + 4 * n) 4)
    let pairRead := fun (q' : MatCmd) => q'.rows =
      q.rows ++ (if e < 16 ∧ q.rows.length ≤ e then [(List.range 64).map (word e)] else [])
    let groupRead := fun (q' : MatCmd) =>
      if e % q.group = 0 ∧ e / q.group < q.groupCount then
        q'.cur = s.groupBytes q (e / q.group) ∧ q'.foot = s.footAdd q (e / q.group) ∧ q'.groups = q.groups ++ [q'.groupSums]
      else q'.cur = q.cur ∧ q'.foot = q.foot ∧ q'.groups = q.groups
    let tileHolds := fun (t : State) (r : Nat) (f : Nat → W32) =>
      (∀ n, n < 64 → memRead t.mem (tileKey r + 4 * n) 4 = (f n).toNat) ∧
      ∀ b, b < tileKey r ∨ tileKey r + 256 ≤ b → memGet t.mem b = memGet s.mem b
    -- the queues of the die hold commands of their own cores, each number once
    let ordered := (∀ y k, k ∈ (s.matOf d y).queue → k.iss.die = d ∧ k.iss.core = y) ∧
      ∀ y, ((s.matOf d y).queue.map (fun k => k.iss.num)).Nodup
    (Memory.wf s.mem → q.kind = .zero → q.fault = none → e < 16 → Completes (.matrixStart d c num e) s (fun t =>
      (∀ b, memGet t.mem b = if tileKey e ≤ b ∧ b < tileKey e + 256 then 0 else memGet s.mem b) ∧ next t ∧ goesOn t)) ∧
    (∀ p, q.kind = .mul p false → q.fault = none → e + 4 < q.array →
      Completes (.matrixStart d c num e) s (fun t => t.mem = s.mem ∧ goesOn t ∧ ∃ q', t.matCmd? d c num = some q' ∧
        q'.iss = q.iss ∧ q'.fault = none ∧ q'.written = q.written ∧ groupRead q' ∧ pairRead q')) ∧
    (q.kind = .mul false true → ordered → q.fault = none → e + 4 < q.array →
      Completes (.matrixStart d c num e) s (fun t => t.mem = s.mem ∧ Awaits t (.matrixStart d c num (e + 1)) ∧
        ∃ q', t.matCmd? d c num = some q' ∧ q'.iss = q.iss ∧ groupRead q' ∧ pairRead q')) ∧
    (∀ p rot r ws, Memory.wf s.mem → q.kind = .mul p rot → q.fault = none → e + 4 = q.array + r → r < 16 →
      q.rows[r]? = some ws → Completes (.matrixStart d c num e) s (fun t =>
        tileHolds t r (fun n => (q.accumulate (2 * r + n / 32) (n % 32) (ws[n]?.getD 0)).1) ∧
        (rot = false → next t ∧ goesOn t))) ∧
    (∀ x, (q.kind = .drn x ∨ q.kind = .ldc x) → q.fault = none → e < 2 →
      Completes (.matrixStart d c num e) s (fun t => t.mem = s.mem ∧ goesOn t ∧ ∃ q', t.matCmd? d c num = some q' ∧
        q'.iss = q.iss ∧ q'.fault = none ∧ q'.written = q.written ∧ pairRead q')) ∧
    (∀ x r ws, Memory.wf s.mem → q.kind = .ldc x → q.fault = none → e = r + 2 → r < 16 → q.rows[r]? = some ws →
      Completes (.matrixStart d c num e) s (fun t => tileHolds t r (fun n => ws[n]?.getD 0) ∧ goesOn t ∧
        ∃ q', t.matCmd? d c num = some q' ∧ q'.fault = none ∧ q'.written = q.written + 1 ∧ pairRead q')) ∧
    (∀ x r ws, Memory.wf s.mem → q.kind = .drn x → q.fault = none → e = r + 2 → r < 16 → q.rows[r]? = some ws →
      let w := q.kind.width q.qa
      Completes (.matrixStart d c num e) s (fun t => goesOn t ∧
        (∀ n, n < 64 → (∀ j, n < j → j < 64 → source r j + w ≤ source r n ∨ source r n + w ≤ source r j) →
          memRead t.mem (source r n) w = (q.drained x (2 * r + n / 32) (n % 32) (ws[n]?.getD 0)).1 % 256 ^ w) ∧
        (∀ b, (∀ n, n < 64 → b < source r n ∨ source r n + w ≤ b) → memGet t.mem b = memGet s.mem b) ∧
        ∃ q', t.matCmd? d c num = some q' ∧ q'.fault = none ∧ q'.written = q.written + 1 ∧ pairRead q')) ∧
    (q.fault = none → Completes (.matrixComplete d c num) s (fun t => t.mem = s.mem ∧
      (t.matOf d c).queue = (s.matOf d c).queue.filter (fun k => k.iss.num != num) ∧
      Counted (s.matOf d c).tl (t.matOf d c).tl num ∧ FlagsLand s t q.iss.tid q.flags)) ∧
    (∀ cause a m, q.fault = some (cause, a) → (s.matOf d c).tl.frec = none → s.getThread? q.iss.tid = some m →
      m.st ≠ .exited → Completes (.matrixComplete d c num) s (fun t =>
        ∃ f, (t.matOf d c).tl.frec = some f ∧ f.cause = cause ∧ f.cls = 2 ∧ f.faddr = a ∧ f.num = num ∧
          f.progress = BitVec.ofNat 64 (2 * q.written) ∧ f.detail = BitVec.ofNat 32 q.tile)) ∧
    (Completes (.mmrotRingNotice d c num) s (fun t => t.me = s.me ∧ t.mem = s.mem ∧
      ∀ r k, q.ring[r]? = some k → (q.rotN, c, r) ∈ (t.matOf d k).notices)) ∧
    (∀ side y w, side < 2 → q.ring[side]? = some y → s.rotOf? d y q.iss.lid q.rotN = some w → 0 < e →
      e ≤ ((q.shape side).1 * (q.shape side).2.1 + 127) / 128 →
      let z := if side = 0 then w.qa else w.qb
      let total := (q.shape side).1 * (q.shape side).2.1
      let len := (q.shape side).2.1
      let at' := fun (b : Nat) => bufKey d y (qBuf z) (qRb z + b / len * qRs z + b % len)
      let lands := fun (b : Nat) => 128 * (e - 1) ≤ b ∧ b < 128 * e ∧ b < total
      Memory.wf s.mem → Completes (.mmrotTransfer d c num side e) s (fun t =>
        (∀ k, (∀ b, lands b → at' b ≠ k) → memGet t.mem k = memGet s.mem k) ∧
        (∀ b, lands b → (∀ b', lands b' → b < b' → at' b' ≠ at' b) →
          memGet t.mem (at' b) = BitVec.ofNat 8 ((q.foot[2 * side]?.getD 0) / 2 ^ (8 * b) %
            (if qFmt (if side = 0 then q.qa else q.qb) = 1 then 64 else 256))) ∧
        (e < q.outCycles side → Awaits t (.mmrotTransfer d c num side (e + 1))))) ∧
    -- at or after the array's cycles, with the other transfers settled: a transfer's start, and what ends it before it starts
    (∀ side y, q.kind = .mul false true → ordered → q.array + 12 ≤ e → 16 ≤ e → side < 2 →
      (∀ n, n ∈ (s.matOf d c).notices → n.1 ≠ q.rotN) → q.outOf (1 - side) ≠ 0 → q.incOf 0 ≠ 0 → q.incOf 1 ≠ 0 →
      q.outOf side = 0 → q.ring[side]? = some y → y ≠ c → s.coreHeld d y q.iss.lid = true →
      (∀ cause a, q.fault = some (cause, a) → cause = acEcc → Completes (.matrixStart d c num e) s (fun t =>
        (∃ q', t.matCmd? d c num = some q' ∧ q'.outOf side = 3 ∧ q'.fault = q.fault) ∧
        ∀ k, Awaits t (.mmrotTransfer d c num side k) → Awaits s (.mmrotTransfer d c num side k))) ∧
      (∀ w, q.fault = none → s.rotOf? d y q.iss.lid q.rotN = some w → ringsDiffer q w c y = false →
        Completes (.matrixStart d c num e) s (fun t => ∃ q' w', t.matCmd? d c num = some q' ∧
          t.matCmd? d y w.iss.num = some w' ∧
          (if q.shape side = w.shape side then q'.outOf side = 1 ∧ w'.incOf side = 1 ∧ q'.fault = none ∧
              Awaits t (.mmrotTransfer d c num side 1)
            else q'.outOf side = 3 ∧ q'.fault = some (acProtection, 0) ∧ w'.fault = (w.fail acProtection).fault)))) ∧
    (∀ side y w, q.kind = .mul false true → ordered → q.array + 12 ≤ e → 16 ≤ e → side < 2 → q.fault = none →
      (∀ n, n ∈ (s.matOf d c).notices → n.1 ≠ q.rotN) → q.outOf 0 ≠ 0 → q.outOf 1 ≠ 0 → q.incOf (1 - side) ≠ 0 →
      q.incOf side = 0 → q.ring[side + 2]? = some y → s.rotOf? d y q.iss.lid q.rotN = some w →
      ringsDiffer q w c y = false → w.outOf side = 3 → Completes (.matrixStart d c num e) s (fun t =>
        ∃ q', t.matCmd? d c num = some q' ∧ q'.incOf side = 3 ∧ q'.fault = some (acProtection, 0)))

/-- R334, R337–R341, R343, R349–R353: a race reads its input ticks at its start, PLDW reads eight delay rows or half the mode rows in
a cycle and loads a band in its tenth, PCAP writes a band's captures in a cycle and PCAP.list the list; at completion PWIN sets the
window, PRST cleans its bands, and a race captures in each column of its bands and makes them dirty. -/
def Obligations.prismCycles : Prop :=
  ∀ (s : State) (d c num : Nat) (q : PrismCmd), s.prismCmd? d c num = some q → q.iss.die = d → q.iss.core = c →
    q.fault = none → s.ecc = [] → (s.getDie d).stopped = false →
    let p := s.prismOf d c
    let done := fun (t : State) => t.mem = s.mem ∧ Counted p.tl (t.prismOf d c).tl num ∧
      (t.prismOf d c).queue = p.queue.filter (fun k => k.iss.num != num)
    (∀ w op direct k, q.kind = .plaunch → p.window = some (w, op, direct, k) → p.dirty &&& q.mask = 0 →
      Completes (.prismStart d c num 0) s (fun t => t.mem = s.mem ∧ Awaits t (.prismStart d c num 1) ∧
        ∃ q', t.prismCmd? d c num = some q' ∧ ∀ b n, b < 4 → n < 64 → q.mask.getLsbD b = true →
          elem 16 (rd q'.inputs b) n = BitVec.ofNat 16 (memRead s.mem0 (bufKey d c (qBuf q.q) (tickAddr q.q b n)) 2))) ∧
    (q.kind = .pcap true → Memory.wf s.mem → Completes (.prismStart d c num 0) s (fun t =>
      let key := bufKey d c (qBuf q.q) (qBase q.q)
      Awaits t (.prismComplete d c num) ∧ memRead t.mem key 64 = p.list.toNat ∧
      ∀ b, b < key ∨ key + 64 ≤ b → memGet t.mem b = memGet s.mem b)) ∧
    (∀ e b, q.kind = .pcap false → Memory.wf s.mem → (bandsOf q.mask)[e]? = some b →
      let key := fun (j : Nat) => bufKey d c (qBuf q.q) (tickAddr q.q b j)
      Completes (.prismStart d c num e) s (fun t =>
        (∀ j, j < 64 → (∀ i, j < i → i < 64 → key i + 2 ≤ key j ∨ key j + 2 ≤ key i) →
          memRead t.mem (key j) 2 = (elem 16 (rd p.capt b) j).toNat) ∧
        (∀ k, (∀ j, j < 64 → k < key j ∨ key j + 2 ≤ k) → memGet t.mem k = memGet s.mem k) ∧
        Awaits t (if e + 1 < (bandsOf q.mask).length then .prismStart d c num (e + 1) else .prismComplete d c num))) ∧
    (∀ n b modes, q.kind = .pldw modes → (bandsOf q.mask)[n]? = some b →
      let delayRow := fun (i : Nat) => bufKey d c (qBuf q.q) (qBase q.q + (64 * b + i) * qRs q.q)
      let modeRow := fun (i : Nat) => bufKey d c (qBuf q.q) (qMb q.q + (64 * b + i) * qMs q.q)
      let code := fun (i j : Nat) => BitVec.ofNat 2 (memRead s.mem0 (modeRow i) 16 / 4 ^ j)
      (∀ m, m < 8 → (m = 0 ∨ q.delayBuf.toNat < 2 ^ (4096 * m)) →
        Completes (.prismStart d c num (10 * n + m)) s (fun t => t.mem = s.mem ∧ Awaits t (.prismStart d c num (10 * n + m + 1)) ∧
          ∃ q', t.prismCmd? d c num = some q' ∧ ∀ i j, i < 64 → j < 64 → elem 8 q'.delayBuf (64 * i + j) =
            if i / 8 = m then memGet s.mem0 (delayRow i + j) else if i / 8 < m then elem 8 q.delayBuf (64 * i + j) else 0)) ∧
      (modes = true → Completes (.prismStart d c num (10 * n + 8)) s (fun t => t.mem = s.mem ∧
        Awaits t (.prismStart d c num (10 * n + 9)) ∧ ∃ q', t.prismCmd? d c num = some q' ∧ q'.delayBuf = q.delayBuf ∧
          ∀ i j, i < 64 → j < 64 → elem 2 q'.modeBuf (64 * i + j) = if i < 32 then code i j else 0)) ∧
      (q.modeBuf.toNat < 2 ^ 4096 → Completes (.prismStart d c num (10 * n + 9)) s (fun t => t.mem = s.mem ∧
        Awaits t (if n + 1 < (bandsOf q.mask).length then .prismStart d c num (10 * n + 10) else .prismComplete d c num) ∧
        rd (t.prismOf d c).delay b = q.delayBuf ∧
        (∀ k, k < 4 → k ≠ b → rd (t.prismOf d c).delay k = rd p.delay k ∧ rd (t.prismOf d c).mode k = rd p.mode k) ∧
        (∀ i j, i < 64 → j < 64 → elem 2 (rd (t.prismOf d c).mode b) (64 * i + j) =
          if modes = false then 0
          else
            let v := if i < 32 then elem 2 q.modeBuf (64 * i + j) else code i j
            if v = 3 then 1 else v) ∧
        ∃ q', t.prismCmd? d c num = some q' ∧ q'.progress = q.progress + 1))) ∧
    (∀ w op direct k, q.kind = .pwin w op direct k → Completes (.prismComplete d c num) s (fun t => done t ∧
      (t.prismOf d c).window = some (w, op, direct, k))) ∧
    (q.kind = .prst → Completes (.prismComplete d c num) s (fun t => done t ∧
      (t.prismOf d c).dirty = p.dirty &&& ~~~q.mask)) ∧
    (∀ w op direct k, q.kind = .plaunch → p.window = some (w, op, direct, k) →
      Completes (.prismComplete d c num) s (fun t => done t ∧ (t.prismOf d c).dirty = p.dirty ||| q.mask ∧
        (∀ b j, b < 4 → j < 64 → elem 16 (rd (t.prismOf d c).capt b) j =
          if q.mask.getLsbD b = true then
            BitVec.ofNat 16 (capture w op direct (rd p.delay b) (rd p.mode b) (rd q.inputs b) j)
          else elem 16 (rd p.capt b) j) ∧
        (op ≠ 2 → (t.prismOf d c).list = p.list)))

/-! ### Send, copies and handles -/

/-- R258–R263, R267–R270, R272, R273: SEND spends a credit and its envelope is on its way to the far inbox, 3 + 2h cycles away on
one die; RECV takes the oldest envelope and sends the credit back; without a credit or an envelope they hold the bundle. A port
belongs to one thread. A RECV blocked for 65,536 cycles probes, and every thread of a cycle is to take DEADLOCK. -/
def Obligations.envelopesAndCredits : Prop :=
  (∀ (s : State) (e p : BitVec 3) (r : PortRef), s.pre.priv ≠ .plugin →
    let n := p.toNat
    let q := s.portOf s.pre.die s.pre.core n
    let mine := q.bound = some s.pre.tid
    (mine → s.portAbsent s.pre.die s.pre.core n s.pre.lid true = false → q.torn = false → 1 ≤ q.credits →
      s.farEnd s.pre.die s.pre.core n = some r → (s.getDie r.die).stopped = false → Completes (.send e p) s (fun t =>
        t.me = s.me ∧ t.mem = s.mem ∧ (t.portOf s.pre.die s.pre.core n).credits = q.credits - 1 ∧
        ∃ x, x ∈ t.agenda ∧ x.ev = .envelopeArrival r.die r.core r.port (s.re e.toNat) ∧
          (r.die = s.pre.die → x.due = .cycle r.die (s.cyc r.die + 3 + 2 * r.hops) rankEngine))) ∧
    (mine → s.portAbsent s.pre.die s.pre.core n s.pre.lid true = false → q.torn = false → q.credits = 0 →
      s.pre.stamped = false → exec (.send e p) s = .next s.block) ∧
    (∀ v rest, mine → q.inbox = v :: rest → v.2 < s.cyc s.pre.die → Completes (.recv e p) s (fun t =>
      (∀ k, k < 8 → rd t.me.e k = if k = e.toNat then v.1 else rd s.me.e k) ∧ t.me = { s.me with e := t.me.e } ∧
      t.mem = s.mem ∧ (t.portOf s.pre.die s.pre.core n).inbox = rest ∧
      (s.feeder s.pre.die s.pre.core n = some r → (s.getDie r.die).stopped = false →
        Awaits t (.creditArrival r.die r.core r.port)))) ∧
    (mine → q.inbox = [] → s.portAbsent s.pre.die s.pre.core n s.pre.lid false = false → q.torn = false →
      s.pre.stamped = false → exec (.recv e p) s = .next s.block) ∧
    (q.bound = none → Completes (.pbind p) s (fun t => t.me = s.me ∧ t.mem = s.mem ∧
      t.portOf s.pre.die s.pre.core n = { q with bound := some s.pre.tid, torn := false })) ∧
    (mine → Completes (.pbindRel p) s (fun t => t.me = s.me ∧ t.mem = s.mem ∧
      t.portOf s.pre.die s.pre.core n = { q with bound := none })) ∧
    (∀ u, q.bound = some u → u ≠ s.pre.tid → Traps (.pbind p) s .trap 4 tcOwner (BitVec.ofNat 32 n) 0 ∧
      Traps (.pbindRel p) s .trap 4 tcOwner (BitVec.ofNat 32 n) 0)) ∧
  (∀ (s : State) (d c p : Nat) (v : W64), p < 8 →
    Completes (.envelopeArrival d c p v) s (fun t => t.me = s.me ∧ t.mem = s.mem ∧
      t.portOf d c p = { s.portOf d c p with inbox := (s.portOf d c p).inbox ++ [(v, s.cyc d)] }) ∧
    Completes (.creditArrival d c p) s (fun t => t.me = s.me ∧ t.mem = s.mem ∧
      t.portOf d c p = { s.portOf d c p with
        credits := min ((s.portOf d c p).credits + 1) (if p < 4 then 4 else (s.portOf d c p).allow) })) ∧
  (∀ (s : State) (tid : Nat) (m : Thread) (ms : List (Nat × Bool)), s.getThread? tid = some m → m.st = .blocked →
    ((s.getDie m.die).stopped = false → Completes (.probeLaunch tid) s (fun t => SameStorage s t ∧ Awaits t (.probe tid))) ∧
    (m.recvFrom + 65536 ≤ s.cyc m.die → s.walkEdges tid 32 tid [] = some ms →
      m.dlk = none → (∀ x, x ∈ ms → ∃ u, s.getThread? x.1 = some u ∧ u.spilled = none ∧ u.dlk = none) →
      Completes (.probe tid) s (fun t => SameStorage s t ∧ ∃ l, ∀ x, x ∈ ms → ∃ u pos, t.getThread? x.1 = some u ∧
        pos < ms.length ∧ u.dlk = some (ms.length, pos, l))))

/-- R275–R277, R283–R285, R293–R299: the five transfers queue an operation with the operands they captured; operations of a context
start in order; a unit reads its bytes and writes them where the operands say, and the last one completes the operation. -/
def Obligations.copies : Prop :=
  (∀ (s : State) (d a i : BitVec 4) (e h q : BitVec 3) (c : BitVec 2) (v r : BitVec 1), s.pre.priv ≠ .plugin →
    let k := s.copyCtx s.pre.die s.pre.core c.toNat
    let num := seqNext k.tl.i
    let dst := s.ra d.toNat
    let src := s.ra a.toNat
    let w := s.re e.toNat
    let p := s.re (e.toNat + 1)
    let whole := fun (x : W64) => x.toNat % 4 = 0
    let even := fun (x lo n : Nat) => x / 2 ^ lo % 2 ^ n % 4 = 0
    let issued := fun (j : Instr) (kind : CopyKind) (o0 o1 o2 o3 : W64) => Completes j s (fun t =>
      PutsHandle s t h.toNat (mkHandle 0 c.toNat s.pre.turn num) ∧
      (t.copyCtx s.pre.die s.pre.core c.toNat).tl.i = num ∧
      ∃ o, (t.copyCtx s.pre.die s.pre.core c.toNat).queue = k.queue ++ [o] ∧ o.kind = kind ∧ o.units = 0 ∧
        o.started = false ∧ o.cancel = false ∧ o.fault = none ∧ o.iss.num = num ∧ o.iss.tid = s.pre.tid ∧
        o.iss.op0 = o0 ∧ o.iss.op1 = o1 ∧ o.iss.op2 = o2 ∧ o.iss.op3 = o3)
    (k.queue.length + k.tl.held.length < 16 →
      (whole dst → whole src → even w.toNat 0 32 → issued (.cpy d a e h c) .cpy dst src w 0) ∧
      (whole dst → whole src → even w.toNat 0 16 → even p.toNat 0 32 → even p.toNat 32 32 →
        (v = 1 → (qFmt (s.rq q.toNat)).toNat < 5) →
        issued (.cpyt d a e h c v r q) (.cpyt (v == 1) (r == 1)) dst src w p) ∧
      (whole dst → whole src → whole (s.ra i.toNat) → even w.toNat 0 16 →
        issued (.gath d a e h c i) .gath dst src w (s.ra i.toNat) ∧
        issued (.scat d a e h c i) .scat dst src w (s.ra i.toNat)) ∧
      (dst.toNat % 8 = 0 → issued (.sig d e h c) .sig dst 0 w 0) ∧
      (¬ whole dst → Traps (.cpy d a e h c) s .trap 4 tcAlign 0 dst)) ∧
    (16 ≤ k.queue.length + k.tl.held.length → Traps (.cpy d a e h c) s .trap 4 tcQueueFull 0 0)) ∧
  (∀ (s s1 : State) (d c x : Nat) (o : CopyOp) (rest : List CopyOp) (f : Flags), x < 4 →
    (s.copyCtx d c x).queue = o :: rest → (∀ e, (s.getDie e).stopped = false) →
    let paid := match s.copyCharge o with
      | some (k, n) => s.charge o.iss.part k n
      | none => (true, s)
    (o.started = false → o.iss.num ≤ seqNext (s.copyCtx d c x).tl.c → s.heldBack o.iss = false →
      Completes (.copyStart d c x) s (fun t => SameStorage s t ∧
        (t.copyCtx d c x).queue = { o with started := true } :: rest ∧
        Awaits t (if o.total = 0 then .copyComplete d c x else .copyUnit d c x))) ∧
    (o.reserved = false → paid.1 = true → paid.2.copyUnitOf o o.units = (.done f, s1) →
      (∀ e, (s1.getDie e).stopped = false) →
      Completes (.copyUnit d c x) s (fun t => t.mem = s1.mem ∧
        (t.copyCtx d c x).queue = { o with units := o.units + 1, flags := o.flags ||| f } :: rest ∧
        Awaits t (if o.cancel = true ∨ o.total ≤ o.units + 1 then .copyComplete d c x else .copyUnit d c x))) ∧
    (∀ s2 s3 n v, o.kind = .cpy → n = min 256 (o.len - 256 * o.units) →
      s.readMem o.iss.agent (o.iss.op1 + BitVec.ofNat 64 (256 * o.units)) n = (.done v, s2) →
      s2.writeMem o.iss.agent (o.iss.op0 + BitVec.ofNat 64 (256 * o.units)) n v = (.done (), s3) →
      s.copyUnitOf o o.units = (.done 0, s3)) ∧
    (o.fault = none → o.cancel = false → Completes (.copyComplete d c x) s (fun t => t.mem = s.mem ∧
      (t.copyCtx d c x).queue = rest ∧ Counted (s.copyCtx d c x).tl (t.copyCtx d c x).tl o.iss.num ∧
      FlagsLand s t o.iss.tid o.flags)))

/-- R280, R281, R289–R291, R300–R306: WAIT and TLWAIT go on when their context has counted far enough, with what the completion
hands on (R152), and hold the bundle until then, and until the reads that they take up can be made; a null handle is complete;
TEST reads the outcome, and where it writes 1 acquires as WAIT does; TLRD a counter or a word
of the record, CANCEL takes an operation that has not started out of its queue.

R144–R147, R149, R306: FENCE.rel puts every write under way that comes before it ahead of the thread's later accesses, and its
later writes hand those on to the dies of its mask and its own; FENCE.acq takes up what the thread's reads brought for its die;
FENCE.sc does both, and follows every FENCE.sc that named its die. None changes a register or memory. -/
def Obligations.handles : Prop :=
  (∀ (s : State) (h c n d e : BitVec 3) (a q f : BitVec 1) (w : BitVec 4), s.pre.priv ≠ .plugin →
    let hd := s.rh h.toNat
    let loc := locOf a (s.re e.toNat)
    let flag := fun (u : State) =>
      (q = 1 → Completes (.wait h c a e q) s (fun t => WritesC u t c.toNat s.pre.reportedOne)) ∧
      (q = 0 → exec (.wait h c a e q) s = .next u)
    (hd = 0 → flag s ∧ exec (.cancel h a e) s = .next s ∧
      Completes (.test h c a e) s (fun t => WritesC s t c.toNat true)) ∧
    (∀ ref g k, hd ≠ 0 → s.findCtx s.pre hd loc = .at ref g → (s.getTl ref).opOf (handleSeq hd) = some k →
      let tl := s.getTl ref
      (k ≤ tl.c → s.readsReady ref k = true → tl.reportable s.pre.tid k = none → s.noticed s.pre g = true →
        flag (s.waited ref k)) ∧
      (tl.c < k → tl.reportable s.pre.tid k = none → s.pre.stamped = false →
        exec (.wait h c a e q) s = .next s.block) ∧
      (k ≤ tl.c → s.readsReady ref k = false → tl.reportable s.pre.tid k = none → s.pre.stamped = false →
        exec (.wait h c a e q) s = .next (s.askReads ref k).block) ∧
      (∀ r, tl.reportable s.pre.tid k = some r → s.noticed s.pre g = true → q = 0 → r.cause ≠ acCancelled →
        Completes (.wait h c a e q) s (fun t => t.bun.stop = .trap ∧ t.me.tpc = s.pre.pc ∧
          t.me.tcause.extractLsb' 0 8 = tcHandleFault ∧ t.me.x = s.pre.x)) ∧
      (k ≤ tl.c → s.readsReady ref k = true →
        Completes (.test h c a e) s (fun t => WritesC (s.waited ref k) t c.toNat true)) ∧
      (tl.c < k → s.pre.stamped = false → Completes (.test h c a e) s (fun t => WritesC s t c.toNat false)) ∧
      (k ≤ tl.c → s.readsReady ref k = false → s.pre.stamped = false →
        Completes (.test h c a e) s (fun t => WritesC (s.askReads ref k) t c.toNat false)) ∧
      (∀ nx st, tl.c < k → s.pre.stamped = true → s.bun.stamp = some (nx, st) →
        Traps (.test h c a e) s .held 4 tcOverrun (BitVec.ofNat 32 (2 ^ 22 + 2 ^ 21 + bit nx 20 + st)) 0) ∧
      (∀ dd cc x o m, ref = .copy dd cc x → x < 4 → (s.copyCtx dd cc x).queue.find? (fun j => j.iss.num == k) = some o →
        (o.started = true → Completes (.cancel h a e) s (fun t => SameStorage s t ∧ (t.copyCtx dd cc x).queue =
          (s.copyCtx dd cc x).queue.map (fun j => if j.iss.num = k then { j with cancel := true } else j))) ∧
        (o.started = false → tl.frec = none → s.getThread? o.iss.tid = some m → m.st ≠ .exited →
          Completes (.cancel h a e) s (fun t => SameStorage s t ∧
            (t.copyCtx dd cc x).queue = (s.copyCtx dd cc x).queue.filter (fun j => j.iss.num != k) ∧
            ∃ r, (t.getTl ref).frec = some r ∧ r.cause = acCancelled ∧ r.num = k)))) ∧
    (∀ ref g, s.findCtx s.pre hd loc = .at ref g →
      let tl := s.getTl ref
      ((s.re n.toNat).toNat ≤ tl.c → s.readsReady ref (s.re n.toNat).toNat = true → s.noticed s.pre g = true →
        exec (.tlwait h n a e) s = .next (s.waited ref (s.re n.toNat).toNat)) ∧
      (tl.c < (s.re n.toNat).toNat → s.pre.stamped = false → exec (.tlwait h n a e) s = .next s.block) ∧
      ((s.re n.toNat).toNat ≤ tl.c → s.readsReady ref (s.re n.toNat).toNat = false → s.pre.stamped = false →
        exec (.tlwait h n a e) s = .next (s.askReads ref (s.re n.toNat).toNat).block) ∧
      Completes (.tlrd h f w d a e) s (fun t => WritesE s t d.toNat
        (if f = 1 then elem 64 tl.recImage w.toNat else if w = 0 then BitVec.ofNat 64 tl.c else BitVec.ofNat 64 tl.i))) ∧
    (hd ≠ 0 → s.findCtx s.pre hd loc = .malformed → Traps (.wait h c a e q) s .trap 4 tcHandleFault 0 hd ∧
      Traps (.test h c a e) s .trap 4 tcHandleFault 0 hd ∧ Traps (.cancel h a e) s .trap 4 tcHandleFault 0 hd) ∧
    (∀ ref k, (ref = .remote s.me.tid → ∀ r, r ∈ s.me.reads → r.load = false) → Ordered s (s.waited ref k)) ∧
    (∀ tid m, s.getThread? tid = some m → Completes (.completionNotice tid) s (fun t =>
      t.getThread? tid = some { m with notice := 2 } ∧ t.mem = s.mem))) ∧
  ∀ (s : State) (e : BitVec 3) (w : Nat), s.pre.priv ≠ .plugin → (∃ r, r ∈ s.reqs ∧ r.rid = w ∧ r.applied = false) →
    let mask := (s.re e.toNat).extractLsb' 0 16
    let names := fun (i : MsgItem) => i.part = s.partOf s.me ∧ w ∈ i.ids ∧
      ∀ d, d < 16 → (mask.getLsbD d = true ∨ d = s.logDie (s.partOf s.me) s.me.die) → i.mask.getLsbD d = true
    let for' := fun (l : List MsgItem) => ∃ i, i ∈ l ∧ w ∈ i.ids ∧ i.part = s.partOf s.me ∧
      i.mask.getLsbD (s.logDie (s.partOf s.me) s.me.die) = true
    Completes (.fenceRel e) s (fun t => Ordered s t ∧
      (w ∈ s.me.seen → w ∈ t.me.before ∧ ∃ i, i ∈ t.me.carry ∧ names i)) ∧
    Completes .fenceAcq s (fun t => Ordered s t ∧ (for' s.me.got → w ∈ t.me.before ∧ w ∈ t.me.seen)) ∧
    Completes (.fenceSc e) s (fun t => Ordered s t ∧
      (for' s.me.got ∨ for' s.scLog → w ∈ t.me.before ∧ w ∈ t.me.seen) ∧
      (w ∈ s.me.seen ∨ for' s.me.got ∨ for' s.scLog → ∃ i, i ∈ t.me.carry ∧ names i) ∧
      (w ∈ s.me.seen ∨ for' s.me.got ∨ for' s.scLog → ∃ i, i ∈ t.scLog ∧ names i))

/-! ### Tasks, groups and clocks -/

/-- R153, R192, R364–R367, R372, R373, R376–R380, R385, R399, R400, R409, R410, R423: the syllables that reach the task,
collective and stack engines: a launch, a task record, a trigger, a move, a yield, a collective, a handover and an
invalidation, with the checks that stop them. -/
def Obligations.taskSyllables : Prop :=
  ∀ (s : State) (a n y c4 : BitVec 4) (f x : BitVec 5) (h e c : BitVec 3) (l : BitVec 1),
    let d := s.pre.die
    let hdr := s.ra a.toNat
    let id := s.ra (a.toNat + 1)
    let ld := if y = 15 then s.logDie s.pre.part d else y.toNat
    let pd := (s.physDie? s.pre.part ld).getD 0
    let task := s.getTl (.task d s.pre.turn)
    let dies : BitVec 16 := ((s.getLaunch? s.pre.lid).map (·.dieSet)).getD 0
    let free := s.pre.priv ≠ .plugin
    let spawns := dies.getLsbD ld = true ∧ ld < s.dieCount s.pre.part ∧ id >>> levelShift s.pre.widf 6 = 0
    let recd := fun (r : TaskRec) (en : W64) => r.entry = en ∧ r.wid = id ∧ r.lid = s.pre.lid ∧ r.prio = s.pre.prio ∧
      r.num = seqNext task.i ∧ r.xf = f.toNat ∧ r.xs = (List.range (n.toNat + 1)).map (fun k => s.rx (f.toNat + k))
    (s.pre.priv.isSys = false → Traps (.fanout h x a) s .privilege 4 tcPrivilege 0 0) ∧
    (s.pre.priv.isSys = true → hdr.toNat % 128 ≠ 0 → Traps (.fanout h x a) s .trap 4 tcAlign 0 hdr) ∧
    (s.pre.priv.isSys = true → hdr.toNat % 128 = 0 → (s.getDie d).stopped = false →
      let num := seqNext (s.getTl (.task d 8)).i
      Completes (.fanout h x a) s (fun t => PutsHandle s t h.toNat (mkHandle 5 8 s.pre.turn num) ∧
        (t.getTl (.task d 8)).i = num ∧ ∃ u, t.launches = s.launches ++ [u] ∧ u.hdr = hdr ∧ u.fanDie = d ∧ u.fanNum = num ∧
        u.chip = (s.rx x.toNat).extractLsb' 0 16 ∧ u.accepted = false ∧ u.deps = ((s.stubCmd? s.pre).map (·.deps')).getD [] ∧
        (u.deps = [] → Awaits t (.fanoutHeaderRead u.lid)))) ∧
    (free → hdr.toNat % 4 = 0 → spawns → (s.getDie pd).ready.length < 4096 →
      Completes (.spawn a f n y h 0) s (fun t => PutsHandle s t h.toNat (mkHandle 5 s.pre.turn s.pre.turn (seqNext task.i)) ∧
        ∃ r, recd r hdr ∧ r.here = (pd == d) ∧
          ((pd = d → s.groupGone r = false) → (t.getDie pd).ready = (s.getDie pd).ready ++ [r]))) ∧
    (free → hdr.toNat % 4 = 0 → spawns → s.coreHeld pd (hdr.toNat / 2 ^ 56) s.pre.lid = true →
      (s.getCore pd (hdr.toNat / 2 ^ 56)).arrivals.length + s.moversFirst pd (hdr.toNat / 2 ^ 56) < 16 →
      Completes (.spawn a f n y h 1) s (fun t => PutsHandle s t h.toNat (mkHandle 5 s.pre.turn s.pre.turn (seqNext task.i)) ∧
        ∃ r, recd r (BitVec.ofNat 64 (hdr.toNat % 2 ^ 56)) ∧ r.here = (pd == d) ∧ ((pd = d → s.groupGone r = false) →
          (t.getCore pd (hdr.toNat / 2 ^ 56)).arrivals =
            (s.getCore pd (hdr.toNat / 2 ^ 56)).arrivals ++ [.record r]))) ∧
    (free → hdr.toNat % 4 = 0 → s.dieCount s.pre.part ≤ ld → Traps (.spawn a f n y h 0) s .trap 4 tcOutside 0 0) ∧
    (free → s.me.triggered = true → exec .trig s = .next s) ∧
    (free → s.me.triggered = false → Completes .trig s (fun t =>
      t = { s with me := { s.me with triggered := true, trigIds := t.me.trigIds, before := t.me.before } } ∧
      ∀ r, r ∈ s.reqs → r.applied = false → r.rid ∈ s.me.seen → r.rid ∈ t.me.trigIds ∧ r.rid ∈ t.me.before)) ∧
    (∀ q, free → s.migrRefused = 0 → addrForm hdr = 2 → s.physDie? s.pre.part (addrDie hdr) = some q →
      s.coreHeld q (addrCore hdr) s.pre.lid = true →
      (q = d → addrCore hdr = s.pre.core → exec (.migr a) s = .next s) ∧
      (¬ (q = d ∧ addrCore hdr = s.pre.core) → (s.getDie d).stopped = false → Completes (.migr a) s (fun t =>
        t.me = { s.me with st := .moving, dest := some (q, addrCore hdr), before := t.me.before } ∧ t.mem = s.mem ∧
        ∃ z, z ∈ t.agenda ∧ z.ev = .migrationDepart s.pre.tid ∧
          z.due = .cycle d ((s.getDie d).cyc + 25) (rankLate + s.logDie s.pre.part d * 512 + s.pre.core)))) ∧
    (free → s.bun.checked = false → s.pre.stamped = true → exec (.migr a) s = .next (s.trapBundle .first tcMigrate 1 0) ∧
      exec (.migrHome a) s = .next (s.trapBundle .first tcMigrate 1 0)) ∧
    (∀ p s1 pte lv st off k, free → s.migrRefused = 0 → s.getPart? s.pre.part = some p → addrForm hdr < 2 →
      s.leafOf d p hdr = (.leaf pte lv, s1) → pteH pte = false →
      s1.physAt p (pteP pte) (leafPhys pte lv hdr) = some (st, off) →
      let od := s1.ownerDie (p.stackList[st]?.getD 0)
      let near := fun (j : Nat) => j / 16 / 2 * 8 + j % 16 / 2
      let fits := fun (j : Nat) => (near j = 2 * homeSlice st off ∨ near j = 2 * homeSlice st off + 1) ∧
        s1.coreHeld od j s.pre.lid = true
      k < 256 → fits k → (∀ j, j < k → ¬ fits j) → ¬ (od = d ∧ k = s.pre.core) →
      Completes (.migrHome a) s (fun t =>
        t.me = { s1.me with st := .moving, dest := some (od, k), before := t.me.before })) ∧
    (∀ p k, free → s.sourcePrio d s.pre.core = some p → s.poolSlot? s.pre = some k →
      (s.pre.prio ≤ p → s.pre.stamped = false → s.pre.onControl = false → s.pre.die = s.me.die → s.pre.tid = s.me.tid →
        (s.getDie d).stopped = false → Completes (.yield c) s (fun t => t.me.c.getLsbD c.toNat = true ∧
          t.me.spilled = some k ∧ t.me.spilling = true ∧ t.me.yielded = true ∧ t.me.x = s.me.x ∧
          Awaits t (.spillComplete s.me.tid))) ∧
      (p < s.pre.prio → Completes (.yield c) s (fun t => WritesC s t c.toNat false))) ∧
    (free → s.sourcePrio d s.pre.core = none → Completes (.yield c) s (fun t => WritesC s t c.toNat false)) ∧
    (s.pre.onControl = false → hdr.toNat % 64 = 0 → hdr.toNat + 64 ≤ 98304 →
      let k := s.collCtx d c4.toNat
      let key := bufKey d s.pre.core 1 hdr.toNat
      k.queue.length + k.tl.held.length < 16 → s.eccRead key 64 = false → Completes (.coll a h c4) s (fun t =>
        PutsHandle s t h.toNat (mkHandle 4 c4.toNat s.pre.turn (seqNext k.tl.i)) ∧
        ∃ q, (t.collCtx d c4.toNat).queue = k.queue ++ [q] ∧ q.desc = BitVec.ofNat 512 (memRead s.mem0 key 64) ∧
          q.iss.num = seqNext k.tl.i ∧ q.started = false ∧ q.moved = false ∧ q.fault = none)) ∧
    (∀ p st, free → s.getPart? (s.partOf s.pre) = some p → s.stackOf (s.partOf s.pre) (s.re e.toNat) = some st →
      p.dies.contains st = true → p.dies.contains ((st + 1) % 16) = true →
      (s.pre.priv = .user → p.memcfg.getLsbD (48 + (s.re e.toNat).toNat % 16) = true) →
      (s.getDie d).handQ.length + (s.getDie d).hand.held.length < 16 → Completes (.handoff e h) s (fun t =>
        PutsHandle s t h.toNat (mkHandle 6 0 s.pre.turn (seqNext (s.getDie d).hand.i)) ∧
        ∃ o, (t.getDie d).handQ = (s.getDie d).handQ ++ [o] ∧ o.operand = s.re e.toNat ∧ o.draining = false)) ∧
    (s.pre.priv = .user → Traps (.xlinv h l e) s .privilege 4 tcPrivilege 0 0) ∧
    (free → s.pre.priv ≠ .user → Completes (.xlinv h l e) s (fun t =>
      PutsHandle s t h.toNat (mkHandle 7 0 s.pre.turn (seqNext (s.getDie d).xl.i)) ∧
      ∃ o, (t.getDie d).xlQ = (s.getDie d).xlQ ++ [o] ∧ o.all = (l == 1) ∧
        o.operand = if l = 1 then 0 else s.re e.toNat))

/-- R18, R54–R57, R85, R86, R174, R257: what passes with a rotation for a thread: a long result waits or lands in its register,
a VMM delay counts down, a frame ends without changing what %frame reads, and a stamp names an issue cycle of the thread. -/
def Obligations.rotationEvents : Prop :=
  ∀ (s : State) (g : Long),
    let z := s.cycleReg s.me.die
    let lands := fun (t : State) =>
      (∀ k, k < 32 → rd t.me.x k = if k = g.reg ∧ g.cancelled = false then g.value.setWidth 32 else rd s.me.x k) ∧
      t = { s with me := { s.me with longs := [], x := t.me.x, fflags := s.me.fflags ||| g.flags.setWidth 32 } }
    exec .nullBundle s = .next s ∧
    exec .vmmDelayEnd s = .next { s with me := { s.me with vdly := s.me.vdly - 1 } } ∧
    (s.me.longs = [g] → g.latched = false → g.snap = false → g.file = .x → 0 < g.reg → g.reg < 32 → g.left = 1 →
      Completes .longResultLanding s lands) ∧
    (∀ m, s.me.longs = [g] → g.latched = false → g.left = m + 2 → Completes .longResultLanding s (fun t =>
      t = { s with me := { s.me with longs := [{ g with left := m + 1 }] } })) ∧
    (s.me.longs = [g] → g.latched = true → exec .longResultLanding s = .next s) ∧
    (s.me.longs = [g] → g.latched = false → g.snap = true → g.file = .x → 0 < g.reg → g.reg < 32 → g.left = 0 →
      Completes .snapshotLanding s lands) ∧
    (0 < s.me.frLen → s.me.frRun = true → Completes .frameWrap s (fun t => t.me.frameReg z = s.me.frameReg z ∧
      (z - t.me.frZ) / 8 + t.me.frOff < s.me.frLen ∧
      t = { s with me := { s.me with frZ := t.me.frZ, frOff := t.me.frOff, frNum := t.me.frNum } })) ∧
    (∀ x st, Completes (.issueStamp x st) s (fun t => t.bun.stamp = some (x == 1, st.toNat) ∧
      t = { s with bun := { s.bun with stamp := t.bun.stamp } })) ∧
    (∀ nx st, s.bun.stamp = some (nx, st) → Completes .stampTarget s (fun t => ∃ v,
      let m := ((s.cycleReg s.pre.die - s.pre.frZ) / 8 + s.pre.frOff) / s.pre.frLen + if nx then 1 else 0
      v = s.pre.frZ + 8 * (m * s.pre.frLen + st) - 8 * s.pre.frOff + s.cycleReg s.pre.die % 8 ∧
      t.me = { s.me with target := some v } ∧ t.pre = { s.pre with target := some v } ∧ t.mem = s.mem))

/-- R31, R33, R56, R176, R192, R193: a barrier instance completes; a frame starts on a die at the first multiple of 8 at or after
a + 8 × SLACK; an exit makes a running member leave at its next issue cycle and ends any other; a kill ends the thread, removes
the waiting records of its group and sends the exit to every other member, but of a trapped thread in host-assisted mode only the
host decides (R470). -/
def Obligations.groupEvents : Prop :=
  ∀ (s : State) (gid tid die level : Nat),
    (∀ g, s.getGroup? gid = some g →
      Completes (.barrierComplete gid) s (fun t => t.getGroup? gid = some { g with complete := true } ∧ SameStorage s t) ∧
      Completes (.frameStart gid die) s (fun t =>
        let from' := s.cycleReg die + 8 * ((s.getLaunch? g.lid).map (fun l => (l.framew.extractLsb' 32 16).toNat)).getD 0
        ∃ z, t.getGroup? gid = some { g with starts := g.starts ++ [(die, z)] } ∧ z % 8 = 0 ∧ from' ≤ z ∧ z < from' + 8 ∧
          t.mem = s.mem)) ∧
    (∀ m, s.getThread? tid = some m →
      (m.st = .running → m.spilled = none → Completes (.exitArrival tid) s (fun t =>
        t.getThread? tid = some { m with exiting := true } ∧ t.mem = s.mem)) ∧
      (m.st = .blocked ∨ m.st = .trapped → Completes (.exitArrival tid) s (fun t =>
        ∃ n, t.getThread? tid = some n ∧ n.st = .exited ∧ n.longs = [] ∧ t.mem = s.mem)) ∧
      (m.st = .trapped → s.assisted m = true → exec (.groupKill tid level) s = .next s) ∧
      (m.st ≠ .exited → (m.st = .trapped → s.assisted m = false) → Completes (.groupKill tid level) s (fun t =>
        let key := groupKey m.widf m.wid level
        (∃ n, t.getThread? tid = some n ∧ n.st = .exited) ∧
        (∀ r, r ∈ t.records → s.recInGroup r m.lid level key = false) ∧
        ∀ u, u ∈ s.liveMembers m.lid level key → u.tid ≠ tid → (s.getDie u.die).stopped = false →
          Awaits t (.exitArrival u.tid))))

/-- R45–R49, R52: stretches and power steps change the length of a die's cycles and no register, no memory and no cycle count: a
warning stretches its region, a calm die ends its stretch, a cycle of a die whose slowest region stretches lasts 1.25 periods, an
edge is held by its receiving region, which is then at most one cycle ahead of a neighbour whose entry it needs, a skew by the whole
die, so that no region passes a neighbour by more than 6 cycles and no boundary buffer holds more than 8 entries, and a power step
takes place at a rotation boundary between 10 and 20 steps of 62.5 MHz. -/
def Obligations.clockEvents : Prop :=
  ∀ (s : State) (d r f : Nat), r < 16 →
    let k := s.getDie d
    let quiet := fun (t : State) => t.me = s.me ∧ t.threads = s.threads ∧ t.mem = s.mem ∧
      ∀ e, (t.getDie e).cyc = (s.getDie e).cyc
    Completes (.regionStretch d r) s (fun t => quiet t ∧ (t.getDie d).lastWarn = k.cyc ∧
      ∀ q, q < 16 → (t.getDie d).stretch.getLsbD q = (k.stretch.getLsbD q || decide (q = r)) ∧
        (t.getDie d).warn.getLsbD q = (k.warn.getLsbD q || decide (q = r))) ∧
    (k.warn = 0 → k.lastWarn + 32 ≤ k.cyc → Completes (.stretchEnd d) s (fun t => quiet t ∧ (t.getDie d).stretch = 0)) ∧
    ((∃ q, q < 16 ∧ k.leadOf q = 0 ∧ k.stretch.getLsbD q = true) → k.period = 16 * Config.ns / k.freq * 5 / 4) ∧
    ((∀ q, q < 16 → k.leadOf q = 0 → k.stretch.getLsbD q = false) → k.period = 16 * Config.ns / k.freq) ∧
    Completes (.edgeHold d r) s (fun t => quiet t ∧ (t.getDie d).warn = k.warn ∧
      (∀ q, q < 16 → (t.getDie d).leadOf q ≤ k.leadOf q) ∧
      (∀ q n, q < 16 → regionsMeet r q = true → (q, r, n) ∈ k.entries → k.cyc ≤ n + 1 →
        (t.getDie d).leadOf r ≤ k.leadOf q + 4) ∧
      (∀ q p, q < 16 → p < 16 → regionsMeet q p = true → (t.getDie d).leadOf q ≤ (t.getDie d).leadOf p + 24) ∧
      ∀ q, q < 16 → (t.getDie d).stretch.getLsbD q = (k.stretch.getLsbD q || decide (q = r))) ∧
    (∀ q p, q < 16 → p < 16 → regionsMeet q p = true →
      k.skewed.1.leadOf q ≤ k.skewed.1.leadOf p + 24 ∧ (k.skewed.1.boundary q p).length ≤ 8) ∧
    Completes (.skewForcedStretch d r) s (fun t => quiet t ∧ ∀ q, q < 16 → (t.getDie d).stretch.getLsbD q = true) ∧
    (k.cyc % 8 = 7 → Completes (.powerStep d f) s (fun t => quiet t ∧ (t.getDie d).freq = max 10 (min 20 f))) ∧
    (k.cyc % 8 ≠ 7 → Completes (.powerStep d f) s (fun t => quiet t ∧ (t.getDie d).freq = k.freq ∧
      ∃ x, x ∈ t.agenda ∧ x.ev = .powerStep d f ∧ x.due = .cycle d (k.cyc + (7 - k.cyc % 8)) rankLate))

/-- R36, R37, R39–R42, R364, R367, R430, R434: a free turn goes to a restorable thread or to a record's new thread; records age, a
die asks a neighbour for work and is given its record, a shortage spills a thread, whose turn becomes free once its image is
written, and a scrub zeroes the buffers of a core that nothing uses. -/
def Obligations.taskEngine : Prop :=
  ∀ (s : State) (d c nb tid turn : Nat) (rest : List Nat),
    (∀ u us, s.freeTurns d c = turn :: rest → s.restorables d c = u :: us → u.tid ≠ 0 →
      Completes (.taskDispatch d c) s (fun t => t.mem = s.mem ∧
        t.getThread? u.tid = some { s.reloadPool u with spilled := none, turn := turn, yielded := false })) ∧
    (∀ r l, s.freeTurns d c = turn :: rest → s.restorables d c = [] → s.arrival? d c = some (.record r) →
      s.groupGone r = false → s.getLaunch? r.lid = some l → r.ctx < 9 → Completes (.taskDispatch d c) s (fun t =>
        t.mem = s.mem ∧ (t.getTl (.task r.ctxDie r.ctx)) = (s.getTl (.task r.ctxDie r.ctx)).complete r.num ∧
        ∃ n, n ∈ t.threads ∧ n.tid = s.nextId ∧ n.die = d ∧ n.core = c ∧ n.turn = turn ∧ n.st = .running ∧ n.pc = r.entry ∧
          n.wid = r.wid ∧ n.ext = r.ext ∧
          ∀ k v, r.xs[k]? = some v → 0 < r.xf + k → r.xf + k < 32 → rd n.x (r.xf + k) = v)) ∧
    Completes (.taskAgeing d) s (fun t =>
      let k := s.getDie d
      let old := fun (r : TaskRec) => r.here = true ∧ r.prio < 3 ∧ r.since + 1048576 ≤ k.now
      (∀ r, r ∈ (t.getDie d).ready ↔ (r ∈ k.ready ∧ ¬ old r) ∨
        ∃ q, q ∈ k.ready ∧ old q ∧ r = { q with prio := q.prio + 1, since := k.now }) ∧ t.mem = s.mem) ∧
    ((s.getDie d).stealing = false → (s.getDie d).ready = [] → (∃ k, k < 256 ∧ s.freeTurns d k ≠ []) →
      (s.getDie d).stopped = false →
      (s.stealOrder d)[(s.getDie d).stealRank]? = some nb → Completes (.stealRequest d) s (fun t =>
        (t.getDie d).stealing = true ∧ Awaits t (.stealAnswer d nb) ∧ SameStorage s t)) ∧
    (∀ r, nb ≠ d → (byPriority (s.getDie nb).ready).find? (fun r => s.cores.any (fun k => k.die == d && s.coreHeld d k.core r.lid)) =
      some r → Completes (.stealAnswer d nb) s (fun t => SameStorage s t ∧ (t.getDie d).stealing = false ∧
        (∃ q, q ∈ (t.getDie d).ready ∧ q.id = r.id ∧ q.entry = r.entry ∧ q.wid = r.wid ∧ q.prio = r.prio) ∧
        ∀ q, q ∈ (t.getDie nb).ready → q.id ≠ r.id)) ∧
    Completes (.stealBackoffExpiry d) s (fun t => SameStorage s t ∧ (t.getDie d).stealBack =
      if (s.getDie d).stealBack ≤ (s.getDie d).now then 0 else (s.getDie d).stealBack) ∧
    (∀ x m k, s.shortage d = some (x, m, k) → m.tid ≠ 0 → Completes (.turnShortageSpill d) s (fun t => t.mem = s.mem ∧
        Awaits t (.spillComplete m.tid) ∧ ∃ n, t.getThread? m.tid = some n ∧ n.spilled = some k ∧ n.spilling = true ∧
        n.x = m.x ∧ n.pc = m.pc ∧ n.st = m.st)) ∧
    (∀ m s2 p va, s.getThread? tid = some m → m.spilling = true → m.inFlight = [] → m.dlk = none →
      s.charge m.part 2 6144 = (true, s2) → m.spilled.bind (s2.poolAddr m) = some (p, va) →
      Completes (.spillComplete tid) s (fun t =>
        t.getThread? tid = some { m with spilling := false, packet := none, roomFor := none, stale := false } ∧
        t.mem = (s2.writeImage p va 6144 (imageBytes 0 6144 (s2.threadImage m m.spillZ))).mem)) ∧
    (∀ lid, Memory.wf s.mem → (s.getCore d c).owner = some lid → 
      ((s.getCore d c).scrubbing = true ∨ s.coreInUse (s.getCore d c) lid = false) →
      Completes (.bufferScrub d c) s (fun t => (t.getCore d c).owner = none ∧ (t.getCore d c).scrubbing = false ∧
        (∀ b off, b < 3 → off < ([196608, 98304, 65536] : List Nat)[b]?.getD 0 → memGet t.mem (bufKey d c b off) = 0) ∧
        ∀ k, (∀ b off, b < 3 → off < ([196608, 98304, 65536] : List Nat)[b]?.getD 0 → k ≠ bufKey d c b off) →
          memGet t.mem k = memGet s.mem k))

/-- R80, R359–R363, R369, R370, R372–R374: a launch reads its header, reaches its dies and reserves its cores, places the threads
of a core in one cycle at the entry with their identifiers and x1 to x8, and adds 1 at DONE at its end; a record and a moving
thread arrive, the latter with x0 to x15, its pc and its identifier. -/
def Obligations.launchesAndMoves : Prop :=
  ∀ (s : State) (lid d c tid : Nat) (l : Launch), s.getLaunch? lid = some l →
    (∀ v s1, s.heldBack l.fanIss = false → s.readMem ⟨l.part, l.fanDie, noCore, 0, false, 0⟩ l.hdr 128 = (.done v, s1) →
      let u := l.withHeader (BitVec.ofNat 1024 v)
      let code := u.reject (headerReserved (BitVec.ofNat 1024 v)) (s1.dieCount l.part)
      (s1.getDie l.fanDie).stopped = false →
      (code = 0 → Completes (.fanoutHeaderRead lid) s (fun t => u.entry = BitVec.ofNat 64 v ∧
        t.getLaunch? lid = some { u with accepted := true } ∧ Awaits t (.fanoutForward lid))) ∧
      (code ≠ 0 → Completes (.fanoutHeaderRead lid) s (fun t =>
        t.getLaunch? lid = some { u with rejected := code, owed := code * 2 ^ 32 } ∧ Awaits t (.launchFinish lid)))) ∧
    (l.frontier ≠ [] → Completes (.fanoutForward lid) s (fun t => SameStorage s t ∧ ∃ r n,
      let pd := ((l.logDies[r]?).bind (s.physDie? l.part)).getD 0
      ((l.reached = [] ∧ r = 0 ∧ n = 0) ∨ ∃ y, y ∈ l.reached ∧
        ((r = y.1 ∧ (n = 2 * y.2 + 1 ∨ n = 2 * y.2 + 2) ∧ n < l.rows * l.cols) ∨
         (y.2 = 0 ∧ n = 0 ∧ (r = 2 * y.1 + 1 ∨ r = 2 * y.1 + 2) ∧ r < l.logDies.length))) ∧
      (r, n) ∉ l.reached ∧
      t.getLaunch? lid = some { l with
        reached := l.reached ++ [(r, n)], pending := l.pending ++ [(pd, (l.row0 + n / l.cols) * 16 + l.col0 + n % l.cols)] } ∧
      (n = 0 → ∀ k, k < l.rows * l.cols →
        lid ∈ (t.getCore pd ((l.row0 + k / l.cols) * 16 + l.col0 + k % l.cols)).reserved))) ∧
    (∀ n, s.canPlace l d c = true → l.turns = some n → Completes (.launchPlacement lid d c) s (fun t =>
      (t.getCore d c).owner = some lid ∧ t.mem = s.mem ∧ (∃ u, t.getLaunch? lid = some u ∧ (d, c) ∈ u.placed) ∧
      ∀ k, k < n → ∃ m, m ∈ t.threads ∧ m.lid = l.lid ∧ m.die = d ∧ m.core = c ∧ m.turn = k ∧ m.st = .running ∧ m.pc = l.entry ∧
        m.wid = l.widOf (l.logDies.idxOf (s.logDie l.part d)) c k ∧ m.stamped = l.flags.getLsbD 0 ∧ rd m.x 0 = 0 ∧
        (∀ i, i < 8 → rd m.x (i + 1) = rd l.xinit i) ∧ ∀ i, 9 ≤ i → i < 32 → rd m.x i = 0)) ∧
    (s.launchDone l = true → Completes (.launchFinish lid) s (fun t =>
      (∃ u, t.getLaunch? lid = some u ∧ u.finished = true ∧
        ∀ a s1, l.done ≠ 0 → l.done.toNat % 8 = 0 → s.placeOf ⟨l.part, l.fanDie, noCore, 0, true, 0⟩ l.done 8 .atomic = (a, s1) →
          (a = .wait → u.owed = 1) ∧
          (∀ key, a = .ok key false → s1.eccRead key 8 = false → Memory.wf s1.mem →
            u.owed = 0 ∧ memRead t.mem key 8 = (memRead s1.mem key 8 + 1) % 2 ^ 64)) ∧
      ∀ m, m ∈ t.threads → m.lid = lid → m.tid = s.me.tid)) ∧
    (∀ p v, (p, v) ∈ l.deps → (s.getDie l.fanDie).stopped = false → Completes (.dependencySatisfied lid p v) s (fun t =>
      (∃ a, t.getLaunch? lid = some { l with deps := l.deps.filter (· != (p, v)), fanIss := { l.fanIss with after := a } }) ∧
      ((∀ x, x ∈ l.deps → x = (p, v)) → Awaits t (.fanoutHeaderRead lid)))) ∧
    (∀ r, s.records.find? (fun q => q.id == tid) = some r → s.groupGone r = false →
      Completes (.spawnRecordArrival tid) s (fun t => (∃ q, q ∈ t.records ∧ q.id = tid) ∧
        ∀ q, q ∈ t.records → q.id = tid → q.here = true)) ∧
    (∀ m, s.getThread? tid = some m → m.dest = some (d, c) → m.st = .moving → m.rcStores = 0 → m.longs = [] →
      (s.getCore d c).arrivals.length < 16 → (s.getDie d).stopped = false →
      Completes (.migrationDepart tid) s (fun t => t.mem = s.mem ∧ Awaits t (.migrationArrival tid d c) ∧
        (tid, d, c) ∈ (t.getCore m.die m.core).fwd ∧ .thread tid false ∈ (t.getCore d c).arrivals ∧
        ∃ n, t.getThread? tid = some n ∧ n.die = d ∧ n.core = c ∧ n.pc = m.pc ∧ n.wid = m.wid ∧ n.ext = m.ext ∧ n.h = m.h ∧
          n.c = m.c ∧ n.rc = m.rc ∧ (0 < m.frLen → n.frameReg (s.cycleReg d) = m.frameReg (s.cycleReg m.die)) ∧ ∀ k, k < 16 → rd n.x k = rd m.x k)) ∧
    Completes (.migrationArrival tid d c) s (fun t => SameStorage s t ∧ .thread tid false ∉ (t.getCore d c).arrivals ∧
      ((s.getDie d).stopped = false → (s.getThread? tid).map (·.st) = some .moving →
        .thread tid false ∈ (s.getCore d c).arrivals → .thread tid true ∈ (t.getCore d c).arrivals)) ∧
    Completes (.forwardWindowExpiry d c tid) s (fun t => SameStorage s t ∧
      ((∀ f, f ∈ (s.getCore d c).fwd → f.1 ≠ tid) → (t.getCore d c).fwd = (s.getCore d c).fwd) ∧
      ∀ l₁ f l₂, (s.getCore d c).fwd = l₁ ++ f :: l₂ → f.1 = tid → (∀ g, g ∈ l₁ → g.1 ≠ tid) →
        (t.getCore d c).fwd = l₁ ++ l₂)

/-! ### Collectives and stacks -/

/-- R381, R387, R389, R390, R393, R398: an issue whose turn it is starts, or fails with the reason its descriptor gives; a WRITE to
another package sends the bytes of its source; every issue writes its destination in events of one granule or more, and the event
of the last granule ends it, as long as no source has been written since the issue; an integer sum is taken modulo 2^32 or 2^64;
completion counts in the context. -/
def Obligations.collectives : Prop :=
  (∀ (s : State) (d x : Nat) (o : CollOp), x < 16 → (s.collCtx d x).queue = [o] → o.iss.die = d → o.ctx = x → o.due = [] →
    (s.getDie d).stopped = false →
    let m := (s.membersOf o.iss.part o.group).length
    let own := (s.issuesOf o).map (fun q => q.iss.oid)
    let unchanged := ∀ q, q ∈ s.issuesOf o → s.written q own = []
    let u := s.noteSources (s.issuesOf o) m
    -- the write of granule k of a destination of n bytes, the only one left
    let last := fun (g : Agent) (n k v : Nat) (s2 : State) => ∃ s1 z,
      u.mayWrite g (o.dst + BitVec.ofNat 64 (granPiece o.dst n k).1) (granPiece o.dst n k).2 = (.done z, s1) ∧
      { s1 with free := s1.free + 1 }.writeMem g (o.dst + BitVec.ofNat 64 (granPiece o.dst n k).1) (granPiece o.dst n k).2
        (v / 2 ^ (8 * (granPiece o.dst n k).1) % 2 ^ (8 * (granPiece o.dst n k).2)) = (.done (), s2)
    let ended := fun (t s2 : State) => t.mem = s2.mem ∧ ∃ q, (t.collCtx d x).queue = [q] ∧ q.iss = o.iss ∧ q.moved = true ∧
      q.fault = o.fault ∧ q.todo = []
    (o.started = false → o.iss.num ≤ seqNext (s.collCtx d x).tl.c → s.heldBack o.iss = false →
      (s.collReason o = none → s.unrouted o = false → Completes (.collStart d x) s (fun t => SameStorage s t ∧
        (t.collCtx d x).queue = [{ o with started := true }])) ∧
      (∀ code, s.collReason o = some code → Completes (.collStart d x) s (fun t =>
        t.me = s.me ∧ ∃ z, (t.collCtx d x).queue = [{ o with started := true, moved := true, out := none, todo := [], due := z, fault := some (acProtection, BitVec.ofNat 32 code, 0) }]))) ∧
    (∀ w v s0 s1, o.started = true → o.moved = false → o.out = none → o.isWrite = true → 0 < o.count →
      s.collCharge [o] = (true, s0) → s0.targetOf o = some w → s0.targetAgent o = none →
      s0.readMem o.iss.agent o.src (o.count * o.size) = (.done v, s1) → s1.written o [o.iss.oid] = [] →
      Completes (.collSegment d x o.iss.num) s (fun t => t.mem = s1.mem ∧
        t.flights = s1.flights ++ o.flightsTo w v (o.count * o.size))) ∧
    (∀ w g v k s2, o.started = true → o.moved = false → o.isWrite = true → 0 < o.count → o.signal = 0 → o.out = some v →
      o.todo = [k] → s.targetOf o = some w → u.targetAgent o = some g → s.targetAgent o = some g → unchanged →
      u.targetHeld g (o.dst + BitVec.ofNat 64 (granPiece o.dst (o.count * o.size) k).1)
        (granPiece o.dst (o.count * o.size) k).2 = true →
      last g (o.count * o.size) k v s2 → Completes (.collSegment d x o.iss.num) s (fun t => ended t s2)) ∧
    (∀ v k s2, o.started = true → o.moved = false → o.isWrite = false → o.opCode ≠ 3 → o.out = some v → o.todo = [k] →
      s.partnerFail o = none → unchanged → 0 < o.count → 0 < o.dstCount m * o.size →
      last o.iss.agent (o.dstCount m * o.size) k v s2 →
      Completes (.collSegment d x o.iss.num) s (fun t => ended t s2)) ∧
    (o.fault = none → unchanged → Completes (.collComplete d x o.iss.num) s (fun t =>
      t.mem = s.mem ∧ (t.collCtx d x).queue = [] ∧ Counted (s.collCtx d x).tl (t.collCtx d x).tl o.iss.num ∧
      FlagsLand s t o.iss.tid o.flags)) ∧
    (∀ cause det a m, o.fault = some (cause, det, a) → (s.collCtx d x).tl.frec = none → s.getThread? o.iss.tid = some m →
      m.st ≠ .exited → Completes (.collComplete d x o.iss.num) s (fun t => ∃ f, (t.collCtx d x).tl.frec = some f ∧
        f.cause = cause ∧ f.cls = 4 ∧ f.detail = det ∧ f.faddr = a ∧ f.num = o.iss.num))) ∧
  (∀ (mode : Nat) (vs : List Nat), vs ≠ [] →
    ((∀ v, v ∈ vs → v < 2 ^ 32) → redElem 2 0 mode vs = (vs.sum % 2 ^ 32, 0)) ∧
    ((∀ v, v ∈ vs → v < 2 ^ 64) → redElem 3 0 mode vs = (vs.sum % 2 ^ 64, 0)))

/-- R410–R414, R419–R425: a handover to the die that has the stack completes at once, any other drains the stack, and its flip
moves the ownership and lets the parked requests go on, with ECC where a dirty line cannot be written back; an invalidation
removes cached translations; a walk caches its leaf; a page moves in from the host, or out to it, with its bytes and its leaf, and
of two faults the first at the directory wins. -/
def Obligations.stackEvents : Prop :=
  ∀ (s : State) (d num part : Nat) (va host leaf : W64),
    (∀ o st, s.handOp? d num = some o → s.stackOf o.part o.operand = some st →
      let side := o.operand.getLsbD 4
      let goal := if side = true then (st + 1) % 16 else st
      (o.draining = false → s.heldBack o.iss = false → s.stackDraining st = false → s.handFirst st o = true →
        o.operand.toNat < 32 →
        (s.getDie goal).dead = false →
        (s.ownerDie st = goal → Completes (.handoverStart d num) s (fun t => SameStorage s t ∧ t.stackPort = s.stackPort ∧
          Counted (s.getDie d).hand (t.getDie d).hand num ∧ t.handOp? d num = none)) ∧
        (s.ownerDie st ≠ goal → Completes (.handoverStart d num) s (fun t => SameStorage s t ∧ t.stackPort = s.stackPort ∧
          Awaits t (.handoverFlip d num) ∧ t.handOp? d num = some { o with draining := true, place := none }))) ∧
      (∀ f, o.phys = some f → f < 16 → s.dirtyErrors f = [] → Completes (.handoverFlip d num) s (fun t => SameStorage s t ∧
        (∀ k, k < 16 → t.stackPort.getLsbD k = if k = f then side else s.stackPort.getLsbD k) ∧ t.parked = [] ∧
        (∀ r, r ∈ s.parked → Awaits t (.memoryRequest r)) ∧
        Counted (s.getDie d).hand (t.getDie d).hand num ∧ t.handOp? d num = none)) ∧
      (∀ f g gs m, o.phys = some f → f < 16 → s.dirtyErrors f = g :: gs → (s.getDie d).hand.frec = none →
        s.getThread? o.iss.tid = some m → m.st ≠ .exited → Completes (.handoverFlip d num) s (fun t => t.me = s.me ∧
          (∀ k, k < 16 → t.stackPort.getLsbD k = if k = f then side else s.stackPort.getLsbD k) ∧ t.handOp? d num = none ∧
          ∃ z, (t.getDie d).hand.frec = some z ∧ z.cause = acEcc ∧ z.cls = 6 ∧
            z.faddr = BitVec.ofNat 64 ((o.operand.extractLsb' 0 4).toNat * 2 ^ 36 + (8 * g / 128 * 128 - stackKey f 0))))) ∧
    (∀ o, (s.getDie d).xlQ.find? (fun q => q.iss.num == num) = some o → s.heldBack o.iss = false →
      (o.all = true → Completes (.xlinvComplete d num) s (fun t => SameStorage s t ∧
        (t.getDie d).xl = (s.getDie d).xl.complete num ∧ ∀ k, k ∈ t.dies → ∀ e, e ∈ k.tlb → e.part ≠ o.part)) ∧
      (∀ a n, o.all = false → xlRange o.operand = some (a, n) → Completes (.xlinvComplete d num) s (fun t =>
        SameStorage s t ∧ (t.getDie d).xl = (s.getDie d).xl.complete num ∧
        ∀ k, k ∈ t.dies → ∀ e, e ∈ k.tlb → e.part = o.part → e.hits a n = false))) ∧
    (∀ p pte lv, s.getPart? part = some p → s.freshWalk p va = .leaf pte lv →
      Completes (.pageWalkComplete d part va) s (fun t => SameStorage s t ∧
        { part := part, page := va.toNat / 4096, leaf := pte, level := lv } ∈ (t.getDie d).tlb)) ∧
    -- of a page: its bytes at their new place and its leaf, where no key has been delivered by name (R485)
    let movedTo := fun (t : State) (old new key : Nat) (e : W64) => ∀ k, memGet t.mem k =
      if key ≤ k ∧ k < key + 8 then BitVec.ofNat 8 (e.toNat / 256 ^ (k - key))
      else if new ≤ k ∧ k < new + 4096 then memGet s.mem (old + (k - new)) else memGet s.mem k
    let goOn := fun (t : State) (m : PageMove) =>
      t.moveOf? part va.toNat = none ∧ ∀ r, r ∈ m.parked → Awaits t (.memoryRequest r)
    let plain := fun (p : Partition) => s.lineKeys = [] ∧ p.keyVals = [] ∧ Memory.wf s.mem
    (∀ p m h key e slot fr rest st off, s.getPart? part = some p → s.moveOf? part va.toNat = some m → p.home = some h →
      s.pageLeaf p va.toNat = some (key, e, slot) → (s.getFunc h).pool = fr :: rest → pteH e = true → pteM e = true →
      m.window = false → m.byHost = false → m.lost = false → s.physAt p (framePlaced fr) (frameAddr fr) = some (st, off) →
      (s.charge part 3 4096).1 = true →
      Completes (.pageMigrateIn part va) s (fun t => (t.getFunc h).pool = rest ∧ goOn t m ∧
        (plain p → movedTo t (hostKey (fnPort h) (pteFrame e)) (logKey p st off) key
          (leafWith e (frameAddr fr) false (framePlaced fr))))) ∧
    (∀ p m h key e slot st off, s.getPart? part = some p → s.moveOf? part va.toNat = some m → p.home = some h →
      s.pageLeaf p va.toNat = some (key, e, slot) → pteH e = false → pteM e = true → m.window = false → m.idle = false →
      m.byHost = true → m.since ≠ s.wall → m.lost = false → s.physAt p (pteP e) (pteFrame e) = some (st, off) →
      s.eccRead (logKey p st off) 4096 = false → (s.charge part 3 4096).1 = true →
      Completes (.pageMigrateOut part va host) s (fun t =>
        (t.getFunc h).pool = (s.getFunc h).pool ++ [poolFrame (pteP e) (pteFrame e)] ∧ goOn t m ∧
        (plain p → movedTo t (logKey p st off) (hostKey (fnPort h) m.target) key (leafWith e m.target true false)))) ∧
    -- the first fault at the directory wins; the host's wins one of the same directory cycle (R425)
    (∀ p h key e slot, s.getPart? part = some p → s.moveOf? part va.toNat = none → p.home = some h →
      s.pageLeaf p va.toNat = some (key, e, slot) → pteH e = false → pteM e = true → (s.getFunc h).pagm = false →
      Completes (.pageMigrateOut part va host) s (fun t => SameStorage s t ∧ Awaits t (.pageMigrateOut part va host) ∧
        ∃ m, t.moveOf? part va.toNat = some m ∧ m.byHost = true ∧ m.since = s.wall ∧ m.target = host.toNat / 4096 * 4096)) ∧
    (∀ p m, s.getPart? part = some p → s.moveOf? part va.toNat = some m → m.window = false → m.idle = false → m.byHost = false →
      m.asked = false →
      (m.since = s.wall → Completes (.pageMigrateOut part va host) s (fun t => SameStorage s t ∧
        t.moveOf? part va.toNat = some { m with window := true, parked := [] } ∧
        (∀ r, r ∈ m.parked → Awaits t (.memoryRequest r)) ∧ ¬ Awaits t (.pageMigrateIn part va) ∧
        Awaits t (.hysteresisExpiry part (BitVec.ofNat 64 va.toNat)))) ∧
      (m.since ≠ s.wall → Completes (.pageMigrateOut part va host) s (fun t => SameStorage s t ∧
        t.moveOf? part va.toNat = some { m with lost := true }))) ∧
    (∀ p m key e slot, s.getPart? part = some p → s.moveOf? part va.toNat = some m → m.asked = true →
      s.pageLeaf p va.toNat = some (key, e, slot) → Completes (.migrationEventAnswer part va leaf) s (fun t => goOn t m ∧
        (plain p → t.mem = (s.store key 8 leaf).mem))) ∧
    (∀ m, s.moveOf? part va.toNat = some m → m.window = true → Completes (.hysteresisExpiry part va) s (fun t =>
      SameStorage s t ∧ goOn t m))

/-! ### Links, hosts and management -/

/-- R397, R401, R402, R404, R405: a flit whose check passes and whose SEQ is the next expected is accepted, and every flit starts
the silence timer again; data for a die that stands still waits behind what waits for it, other data is delivered and
acknowledged; a window acknowledgement ends flights, a reserved kind is counted, a replay request sends the kept flits again; a
flit out of sequence, or one that fails its check, is discarded with those after it, and the port asks once for a replay from the
last good sequence. A link that goes down is reported. -/
def Obligations.fabricEvents : Prop :=
  ∀ (s : State) (port : Nat) (hdr off : BitVec 64) (data : BitVec 1792),
    let p := s.getPort port
    let live := fun (t : State) => SameStorage s t ∧ Awaits t (.linkSilenceTimeout port)
    let taken := fun (t : State) => live t ∧ (t.getPort port).expect = p.expect + 1 ∧ (t.getPort port).discarding = false
    let plain := fun (t : State) => taken t ∧ (t.getPort port).rx = p.rx ∧ (t.getPort port).errors = p.errors
    let asks := fun (t : State) => live t ∧ (t.getPort port).expect = p.expect ∧ (t.getPort port).discarding = true ∧
      (t.getPort port).asked = some (p.expect - 1) ∧ (t.getPort port).rx = p.rx ∧ (t.getPort port).sendSeq = p.sendSeq + 1
    let behind := s.farWaits hdr = true ∨ ∃ e, e ∈ p.rx ∧ flitDie e.1 = flitDie hdr
    (p.up = true → flitSeq hdr = p.expect →
      (behind → Completes (.flitData port hdr off data) s (fun t => taken t ∧
        (t.getPort port).rx = p.rx ++ [(hdr, off, data)])) ∧
      (¬ behind → ∃ u, plain u ∧
        (∀ v, u.deliver port hdr off data = (true, v) → exec (.flitData port hdr off data) s = .next v) ∧
        (∀ v, u.deliver port hdr off data = (false, v) → exec (.flitData port hdr off data) s = .next (v.setPort {
          v.getPort port with rx := (v.getPort port).rx ++ [(hdr, off, data)] }))) ∧
      (∀ q, ¬ behind → s.parts.find? (fun x => x.chip == flitChip hdr && x.dies.contains (flitDie hdr)) = some q →
        q.incoming = [] → off.extractLsb' 0 56 ≠ 0 → Completes (.flitData port hdr off data) s (fun t => plain t ∧
          (t.collCtx (flitDie hdr) (flitCtx hdr)).arrived = (s.collCtx (flitDie hdr) (flitCtx hdr)).arrived ++
            [{ group := flitGroup hdr, off := (off.extractLsb' 0 56).toNat, n := min 224 (off.extractLsb' 56 8).toNat
               data := data }])) ∧
      (¬ behind → (∀ q, q ∈ s.parts → q.chip = flitChip hdr → q.dies.contains (flitDie hdr) = false) →
        Completes (.flitData port hdr off data) s (fun t => plain t ∧ (t.getPort port).sendSeq = p.sendSeq + 1 ∧
          ∃ low payload, (t.getPort port).replay.getLast? =
            some (p.sendSeq, makeFlit (flitHeader 1 p.sendSeq p.expect low) payload, 0))) ∧
      Completes (.flitWindowAck port hdr) s (fun t => plain t ∧ (∀ f, f ∈ t.flights → f ∈ s.flights) ∧
        ∀ f, f ∈ s.flights → f.port = none → f ∈ t.flights) ∧
      Completes (.flitIdle port hdr) s plain ∧
      Completes (.flitLinkControl port hdr) s plain ∧
      Completes (.flitReservedKind port hdr) s (fun t => taken t ∧ (t.getPort port).rx = p.rx ∧
        (t.getPort port).errors = p.errors + 1) ∧
      Completes (.flitReplayRequest port hdr) s (fun t => plain t ∧
        (t.getPort port).replay = (p.acknowledge (flitAck hdr)).replay.map (fun e => (e.1, e.2.1, e.2.2 + 1)) ∧
        ∀ e, e ∈ (t.getPort port).replay → 16 ≤ e.2.2 → Awaits t (.linkReplayLimit port))) ∧
    (p.up = true → flitSeq hdr ≠ p.expect → p.discarding = false →
      Completes (.flitData port hdr off data) s asks ∧ Completes (.flitWindowAck port hdr) s asks ∧
      Completes (.flitIdle port hdr) s asks ∧ Completes (.flitLinkControl port hdr) s asks ∧
      Completes (.flitReservedKind port hdr) s asks ∧ Completes (.flitReplayRequest port hdr) s asks) ∧
    (p.up = true → p.discarding = false → Completes (.flitFailsCheck port) s (fun t => asks t ∧
      (t.getPort port).errors = p.errors + 1)) ∧
    (p.up = true → p.discarding = true → Completes (.flitFailsCheck port) s (fun t => live t ∧
      t.getPort port = { p with errors := p.errors + 1 })) ∧
    (p.up = true → (∀ f, f ∈ s.flights → f.port ≠ some port) →
      Completes (.linkSilenceTimeout port) s (fun t => SameStorage s t ∧ (t.getPort port).up = false ∧
        t.reports = s.reports ++ [(1, port)]) ∧
      Completes (.linkReplayLimit port) s (fun t => SameStorage s t ∧ (t.getPort port).up = false ∧
        t.reports = s.reports ++ [(1, port)])) ∧
    (p.up = false → exec (.flitData port hdr off data) s = .next s ∧ exec (.flitFailsCheck port) s = .next s) ∧
    -- 256 bytes at the port: correction, check and kind
    (∀ flit : BitVec 2048, p.up = true →
      let good := fecCorrect flit
      let kind := (good.extractLsb' 60 4).toNat
      let h : BitVec 64 := good.extractLsb' 0 64
      let io := 16 + port / 8
      ∃ u, u.me = s.me ∧ u.mem = s.mem ∧ u.agenda = s.agenda ∧ u.getPort port = p ∧
        (∀ j, j < 4 → (u.getDie io).corrected[j]? = if j = 2 ∧ good ≠ flit then
          some ((s.getDie io).corrected[j]?.getD 0 + 1) else (s.getDie io).corrected[j]?) ∧
        (crcPasses good = false → runEvent (.flitReceived port flit) s = exec (.flitFailsCheck port) u) ∧
        (crcPasses good = true → runEvent (.flitReceived port flit) s =
          if kind = 0 then exec (.flitData port h (good.extractLsb' 64 64) (good.extractLsb' 128 1792)) u
          else if kind = 1 then exec (.flitWindowAck port h) u
          else if kind = 2 then exec (.flitIdle port h) u
          else if kind = 3 then exec (.flitReplayRequest port h) u
          else if kind = 4 then exec (.flitLinkControl port h) u
          else exec (.flitReservedKind port h) u))

/-- R445–R451, R457, R458, R473, R480, R482: the registers of a function, its queues and the mailbox, written and read, and the
resets. An access that finds earlier ones of its port waiting comes after them, and nothing passes a port whose I/O die is dead.
That DATA takes its bytes by fours is the model's choice (log 46, DESIGN CHOICE). -/
def Obligations.hostRegisters : Prop :=
  ∀ (s : State) (fn q port off : Nat) (v : BitVec 64),
    let f := s.getFunc fn
    let k := f.queue q
    let w : W32 := v.extractLsb' 0 32
    let idx : BitVec 16 := v.extractLsb' 0 16
    let holds := fun (n : Queue) (t : State) => SameStorage s t ∧ (t.getFunc fn).queue q = n
    let clear := fun (x : Nat) => s.portDead x = false ∧ s.hostHeld.any (fun y => y.1 == x) = false
    let at' := clear (fnPort fn)
    (at' → k.mapped = true → f.en = true → f.part.isSome = true →
      Completes (.wake fn q w) s (fun t => holds { k with pidx := idx } t ∧
        ∀ n p, f.part = some n → s.getPart? n = some p → p.serving = some (fn, q) → k.en = true →
          k.stop = false → idx ≠ k.cons → t.pending (isFetch (fn, q)) = true)) ∧
    (at' → k.mapped = true → f.en = false ∨ f.part = none →
      Completes (.wake fn q w) s (holds { k with pidx := idx, pw := true })) ∧
    (at' → k.mapped = false → f.mapm = true ∨ f.part = none ∨ s.updating = true →
      Completes (.wake fn q w) s (holds { k with pidx := idx, pw := true })) ∧
    (at' → k.mapped = false → f.mapm = false → f.part.isSome = true → f.plugin = none → s.updating = false →
      s.mappedCount (fnPort fn) < 512 →
      Completes (.wake fn q w) s (holds { k with pidx := idx, pw := false, mapped := true })) ∧
    (at' → Completes (.rbaseWrite fn q v) s (holds (if k.en = true then k else { k with rbase := v }))) ∧
    (let sz : BitVec 4 := if 10 < w.toNat % 16 then 10 else w.extractLsb' 0 4
      let en := w.getLsbD 8
      let again := k.en = false ∧ en = true ∧ k.stop = true
      at' →
      (k.en = true → sz ≠ k.rcfg.extractLsb' 0 4 → exec (.rcfgWrite fn q w) s = .next s) ∧
      (k.en = false ∨ sz = k.rcfg.extractLsb' 0 4 → Completes (.rcfgWrite fn q w) s (fun t => ∃ n, holds n t ∧
        n.rcfg = sz.setWidth 32 ||| (if en = true then 256#32 else 0#32) ∧ n.pidx = k.pidx ∧ n.rbase = k.rbase ∧
        n.mapped = k.mapped ∧ n.pw = k.pw ∧ (again → n.stop = false ∧ n.cons = k.pidx) ∧
        (¬ again → n.stop = k.stop ∧ n.cons = k.cons)))) ∧
    (at' → Completes (.fctlWrite fn w) s (fun t => SameStorage s t ∧ t.getFunc fn = { f with en := w.getLsbD 0 })) ∧
    Completes (.functionLevelReset fn) s (fun t => SameStorage s t ∧ t.getFunc fn = { f with queues := [], bar2 := 0 } ∧
      (∀ c, c ∈ t.cmds → c.fn = fn → c.st ≠ .fetched ∧ c.dropped = true) ∧
      ∀ c, c.fn ≠ fn → (c ∈ t.cmds ↔ c ∈ s.cmds)) ∧
    Completes (.hotReset port) s (fun t => SameStorage s t ∧ ∀ g, g ∈ s.funcs → fnPort g.fn = port →
      (t.getFunc g.fn).queues = [] ∧ (t.getFunc g.fn).bar2 = 0 ∧
      ∀ c, c ∈ t.cmds → c.fn = g.fn → c.st ≠ .fetched ∧ c.dropped = true) ∧
    (port < 2 → (s.getDie (16 + port)).up = true → Completes (.pcieLinkUp port) s (fun t =>
      t = { s with kaolin := { s.kaolin with ready := t.kaolin.ready } } ∧
      ∀ j, j < 64 → t.kaolin.ready.getLsbD j = (s.kaolin.ready.getLsbD j || decide (j = 35 + port)))) ∧
    (port < 2 → clear port → Completes (.mbevtClear port w) s (fun t => SameStorage s t ∧
      t.mailbox' port = { s.mailbox' port with mbevt := (s.mailbox' port).mbevt &&& ~~~w })) ∧
    (q < 64 → at' →
      exec (.registerWrite fn 0 (0x1000 + 0x1000 * q) v) s = exec (.wake fn q w) s ∧
      exec (.registerWrite fn 0 (0x1008 + 0x1000 * q) v) s = exec (.rbaseWrite fn q v) s ∧
      exec (.registerWrite fn 0 (0x1010 + 0x1000 * q) v) s = exec (.rcfgWrite fn q w) s ∧
      exec (.registerWrite fn 0 0x008 v) s = exec (.fctlWrite fn w) s) ∧
    (port < 2 → clear port → let m := s.mailbox' port
      exec (.registerWrite (257 * port) 4 0x010 v) s = exec (.mbevtClear port w) s ∧
      Completes (.registerWrite (257 * port) 4 0x008 v) s (fun t => SameStorage s t ∧
        t.mailbox' port = { m with mblen := w }) ∧
      (m.busy = true → exec (.registerWrite (257 * port) 4 0x000 v) s = .next s) ∧
      (m.busy = false → w.toNat % 256 ≠ 0 → Completes (.registerWrite (257 * port) 4 0x000 v) s (fun t => SameStorage s t ∧
        t.mailbox' port = { m with mbcmd := w &&& 0x3FF#32, busy := true } ∧ Awaits t (requestEvent port w m))) ∧
      (0x1000 ≤ off → off < 0x2000 → off % 4 = 0 → Completes (.registerWrite (257 * port) 4 off v) s (fun t => SameStorage s t ∧
        ∀ j, (t.mailbox' port).byte j = if off ≤ 0x1000 + j ∧ 0x1000 + j < off + 4 then
          BitVec.ofNat 8 (w.toNat / 256 ^ (0x1000 + j - off)) else m.byte j)) ∧
      -- what the host reads of the mailbox and of Kaolin's maps
      (let reads := fun (o x : Nat) => runEvent (.hostRead (257 * port) 4 o) s = .next (s.answerHost (257 * port) 0 x);
        reads 0x000 m.mbcmd.toNat ∧ reads 0x004 ((if m.busy = true then 2 ^ 31 else 0) + m.status.toNat) ∧
        reads 0x008 m.mblen.toNat ∧ reads 0x00C m.mbrlen.toNat ∧ reads 0x010 m.mbevt.toNat ∧
        reads 0x040 s.kaolin.ready.toNat ∧ reads 0x048 s.kaolin.deadMap.toNat ∧ reads 0x2000 0 ∧
        (0x1000 ≤ off → off < 0x2000 → off % 4 = 0 → reads off ((m.byte (off - 0x1000)).toNat +
          256 * (m.byte (off - 0x1000 + 1)).toNat + 65536 * (m.byte (off - 0x1000 + 2)).toNat +
          16777216 * (m.byte (off - 0x1000 + 3)).toNat)))) ∧
    -- what it reads of a function and its queues
    (q < 64 → at' →
      let reads := fun (o x : Nat) => runEvent (.hostRead fn 0 o) s = .next (s.answerHost fn 0 x)
      let b := fun (c : Bool) (i : Nat) => if c = true then 2 ^ i else 0
      reads 0x000 (b f.part.isSome 31 + b f.home 30 + f.part.getD 0 % 16 * 2 ^ 16 + b f.mapm 2 + b f.trpm 1 + b f.pagm 0) ∧
      reads 0x008 (b f.en 0) ∧ reads (0x1000 + 0x1000 * q) k.pidx.toNat ∧ reads (0x1008 + 0x1000 * q) k.rbase.toNat ∧
      reads (0x1010 + 0x1000 * q) k.rcfg.toNat ∧ reads (0x1018 + 0x1000 * q) k.cons.toNat ∧
      reads (0x101C + 0x1000 * q) (b k.mapped 0 + b k.pw 1 + b k.stop 2) ∧ reads 0x010 0) ∧
    -- a dead I/O die, and accesses that wait
    (s.portDead (fnPort fn) = true → exec (.wake fn q w) s = .next s ∧ exec (.registerWrite fn 4 0 v) s = .next s) ∧
    (s.portDead (fnPort fn) = false → s.hostHeld.any (fun y => y.1 == fnPort fn) = true →
      exec (.wake fn q w) s = .next { s with hostHeld := s.hostHeld ++ [(fnPort fn, .wake fn q w)] } ∧
      exec (.registerWrite fn 0 off v) s = .next { s with hostHeld := s.hostHeld ++ [(fnPort fn, .registerWrite fn 0 off v)] } ∧
      runEvent (.hostRead fn 0 off) s = .next { s with hostHeld := s.hostHeld ++ [(fnPort fn, .hostRead fn 0 off)] })

/-- R411, R444, R446, R468–R470: the BAR 2 window with its atomics, and the time slices, budget periods and host answers that the
front end serves. That a BAR 2 access whose way to the partition is unusable reads a free value and writes nothing is the model's
choice (log 45, DESIGN CHOICE). -/
def Obligations.hostAccesses : Prop :=
  ∀ (s : State) (fn q tid part off len : Nat) (v : BitVec 128),
    let f := s.getFunc fn
    let port := fnPort fn
    (s.portDead port = false → s.hostHeld.any (fun y => y.1 == port) = false →
      -- an atomic on another size, and what misses the window
      (∀ code, 2 ≤ code → code ≤ 4 → len ≠ 4 → len ≠ 8 →
        exec (.bar2Access fn code off len v) s = .next (s.answerHost fn 1 0)) ∧
      (f.bar2 = 0 ∨ 2 ^ f.bar2 < off + len ∨ 8 < len →
        exec (.bar2Access fn 0 off len v) s = .next (s.answerHost fn 0 0) ∧ exec (.bar2Access fn 1 off len v) s = .next s) ∧
      ∀ p, f.part.bind s.getPart? = some p → f.bar2 ≠ 0 → off + len ≤ 2 ^ f.bar2 → len ≤ 8 →
        let a := f.wbase + BitVec.ofNat 64 off
        let lo := v.toNat % 2 ^ (8 * len)
        let waits := fun (code : Nat) (s1 : State) => Completes (.bar2Access fn code off len v) s (fun t => t.mem = s1.mem ∧
          t.hostHeld = s1.hostHeld ++ [(port, .bar2Access fn code off len v)] ∧ Awaits t (.hostTurn port))
        (s.hostReaches port (p.dies[0]?.getD 0) = false →
          exec (.bar2Access fn 1 off len v) s = .next s ∧
          ∃ x, exec (.bar2Access fn 0 off len v) s = .next ({ s with free := s.free + 1 }.answerHost fn 0 x)) ∧
        (s.hostReaches port (p.dies[0]?.getD 0) = true →
          (∀ r s1, s.readMem p.agent a len = (.done r, s1) →
            exec (.bar2Access fn 0 off len v) s = .next (s1.answerHost fn 0 r)) ∧
          (∀ s1, s.readMem p.agent a len = (.wait, s1) → waits 0 s1) ∧
          (∀ s1, s.writeMem p.agent a len lo = (.done (), s1) → exec (.bar2Access fn 1 off len v) s = .next s1) ∧
          (∀ s1, s.writeMem p.agent a len lo = (.wait, s1) → waits 1 s1) ∧
          (∀ code key s1, 2 ≤ code → code ≤ 4 → len = 4 ∨ len = 8 → s.placeOf p.agent a len .atomic = (.ok key false, s1) →
            s1.eccRead key len = false →
            let old := memRead s1.mem key len
            Completes (.bar2Access fn code off len v) s (fun t => t.hostReplies = s1.hostReplies ++ [(fn, 0, old)] ∧
              t.mem = (s1.store key len (BitVec.ofNat (8 * len) (
                if code = 2 then (old + lo) % 2 ^ (8 * len)
                else if code = 3 then lo
                else if old = lo then v.toNat / 2 ^ 64 % 2 ^ (8 * len) else old))).mem)))) ∧
    (∀ p, s.getPart? part = some p → Completes (.budgetPeriod part) s (fun t => SameStorage s t ∧
      t.getPart? part = some { p with used := Vector.replicate 6 0, holding := [] } ∧
      (∀ e w, e ∈ p.holding → e.due = .wall w → Awaits t e.ev) ∧
      ∃ e, e ∈ t.agenda ∧ e.ev = .budgetPeriod part ∧ e.due = .wall (s.wall + 10000 * Config.ns))) ∧
    (∀ p, f.part.bind s.getPart? = some p → p.serving = some (fn, q) →
      (∀ g, g ∈ s.funcs → g.part = some p.num → g.plugin = none) → Completes (.timeSliceExpiry fn q) s (fun t =>
        let l := s.runnables p.num
        let next := (l.filter (fun c => decide (fn < c.1 ∨ (fn = c.1 ∧ q < c.2))) ++ l).head?
        SameStorage s t ∧ t.getPart? p.num = some { p with serving := next } ∧
        ∀ c, next = some c → ∃ e, e ∈ t.agenda ∧ e.ev = .timeSliceExpiry c.1 c.2 ∧
          e.due = .wall (s.wall + (s.getFunc c.1).tslice * 1000 * Config.ns))) ∧
    (∀ p h level, s.getThread? tid = some s.me → s.me.st = .trapped → s.me.onControl = false → s.getPart? s.me.part = some p → p.home = some h →
      (s.getFunc h).trpm = true →
      Completes (.hostTrapAnswer tid 0) s (fun t => t.me.st = .running ∧ t.me.pc = s.me.tpc ∧ t.mem = s.mem ∧
        t.me.tcause = s.me.tcause &&& 0x7FFFFFFF#32 ∧ t.traps = s.traps.filter (fun r => r.tid != tid)) ∧
      Completes (.hostTrapAnswer tid (level + 1)) s (fun t => t.me.st = .exited))

/-- R448, R451–R456, R459–R462: a command is fetched from its slot and starts by the rules of its queue; LAUNCH, PIPE, SIGNAL,
WAITSIG, COPYH and HANDOFFQ have their effects and outcomes; STATUS takes the code and the detail at completion, and MSI-X
follows when IRQ is set; a channel that is torn down has no ports. -/
def Obligations.hostCommands : Prop :=
  (∀ (s : State) (fn q : Nat), (s.getFunc fn).runnable ((s.getFunc fn).queue q) = true →
    (∀ c, c ∈ s.cmds → c.cid < s.nextId) →
    let k := (s.getFunc fn).queue q
    let at' := (k.rbase + BitVec.ofNat 64 (64 * (k.cons.toNat % k.slots))).toNat
    let slot : BitVec 512 := s.load (hostKey (fnPort fn) at') 64 512
    let op := slot.toNat % 256
    let zero := slot &&& ~~~(place 512 0 (0xFFFF03FF#32) ||| bodyMask op ||| place 512 0x38 (BitVec.allOnes 64)) = 0
    let fetched := fun (bad : Bool) (t : State) => SameStorage s t ∧
      (t.getFunc fn).queue q = { k with cons := k.cons + 1, stop := k.stop || bad } ∧
      ∃ c, c ∈ t.cmds ∧ c.cid = s.nextId ∧ c.fn = fn ∧ c.q = q ∧ c.slot = slot ∧ c.addr = at' ∧
        (bad = false → c.code = 0 ∧ c.st = .fetched) ∧ (bad = true → c.code = 2 ∧ Awaits t (.commandComplete c.cid))
    (op = 0 ∨ 7 ≤ op ∨ ¬ zero → Completes (.commandFetch fn q) s (fetched true)) ∧
    (op = 1 → zero → (slot.getLsbD 211 = true ∧ slot.extractLsb' 208 3 = 7#3) ∨
      (slot.getLsbD 275 = true ∧ slot.extractLsb' 272 3 = 7#3) → Completes (.commandFetch fn q) s (fetched true)) ∧
    (1 ≤ op → op ≤ 6 → zero → (op = 1 → slot.getLsbD 211 = false ∧ slot.getLsbD 275 = false) →
      Completes (.commandFetch fn q) s (fetched false))) ∧
  ∀ (s : State) (cid : Nat) (c : Cmd), s.getCmd? cid = some c →
    let ends := fun (code detail : Nat) (t : State) =>
      t.getCmd? cid = some { c with code := code, detail := detail } ∧ Awaits t (.commandComplete cid)
    (c.st = .fetched → s.mayStart c = true → Completes (.commandStart cid) s (fun t => SameStorage s t ∧
      t.getCmd? cid = some { c with st := .started } ∧ Awaits t c.event ∧
      let us := (c.slot.extractLsb' 192 32).toNat
      (c.op' = 4 → us ≠ 0 → ∃ e, e ∈ t.agenda ∧ e.ev = .waitsigTimeout cid ∧
        e.due = .wall (s.wall + us * 1000 * Config.ns)))) ∧
    (∀ s1, c.st ≠ .finished → c.chans = [] → c.code ≠ 0 →
      s.charge (c.part.getD 0xFFFFFFFF) 5 8 = (true, s1) → c.dropped = false →
      (c.irq = true → ∀ n, (s.getFunc c.fn).part = some n → (s1.charge n 5 4).1 = true) →
      Completes (.commandComplete cid) s (fun t => t.getCmd? cid = some { c with st := .finished } ∧
        t.mem = (s.store (hostKey (fnPort c.fn) ((c.addr + 0x38) % 2 ^ 64)) 8
          (BitVec.ofNat 64 (c.code + c.detail % 2 ^ 24 * 256))).mem ∧
        (t.getFunc c.fn).msix = (s.getFunc c.fn).msix ++ if c.irq = true then [1 + c.q] else [])) ∧
    (c.st ≠ .finished → c.chans = [] → c.code ≠ 0 → c.dropped = true →
      Completes (.commandComplete cid) s (fun t => SameStorage s t ∧ t.getCmd? cid = some { c with st := .finished } ∧
        (t.getFunc c.fn).msix = (s.getFunc c.fn).msix)) ∧
    (s.cmdPart c = none → c.st = .started → c.lids = [] → Completes (.launch cid) s (fun t => SameStorage s t ∧
      t.cmds = s.cmds ∧ Awaits t (.launch cid))) ∧
    (c.st = .started → c.code = 0 → Completes (.waitsigTimeout cid) s (fun t => SameStorage s t ∧ ends 5 0 t)) ∧
    (∀ h, s.cmds.findSome? (fun x => (x.chans.find? (fun y => y.num == h.num)).map (fun y => (x, y))) = some (c, h) →
      h.srcPort < 8 → h.dstPort < 8 → Completes (.channelTeardown h.num) s (fun t => SameStorage s t ∧
        t.getCmd? cid = some { c with chans := c.chans.filter (fun x => x.num != h.num) } ∧
        ((t.getCore h.srcDie h.srcCore).ports[h.srcPort]?.getD Port.init).out = none ∧
        ((t.getCore h.dstDie h.dstCore).ports[h.dstPort]?.getD Port.init).inn = none)) ∧
    ∀ p, s.cmdPart c = some p → c.st = .started → c.code = 0 →
      let chip := c.slot.extractLsb' 128 16
      -- a start stub for the header at hdr runs on turn `turn` of a root core, and the command waits for its launch
      let stubs := fun (hdr : W64) (die core turn : Nat) (k : Cmd) (t : State) => ∃ u, u ∈ t.threads ∧ u.stub = true ∧
        u.part = p.num ∧ u.die = die ∧ u.core = core ∧ u.turn = turn ∧ u.priv = .system ∧ u.st = .running ∧
        rd u.a 0 = hdr ∧ rd u.x 1 = chip.setWidth 32 ∧
        t.getCmd? cid = some { k with lids := k.lids ++ [0], stub := some u.tid, deps' := [], chip := chip }
      (∀ v s1 turn rest, c.lids = [] → c.deps = [] → s.readMem p.agent (c.word 8 + 0x40) 8 = (.done v, s1) →
        let root := rootOf p (BitVec.ofNat 64 v)
        s1.freeTurns root.1 root.2.1 = turn :: rest →
        Completes (.launch cid) s (fun t => stubs (c.word 8) root.1 root.2.1 turn c t ∧
          ∀ k, k ∈ t.cores → root.2.2.contains k.die = true → k.icache = [])) ∧
      (∀ hv s1, c.lids = [] → s.readMem p.agent (c.word 8) 64 = (.done hv, s1) →
        let n := 1 + hv % 16
        let nc := hv / 256 % 256
        (64 < nc → Completes (.pipe cid) s (ends 3 1)) ∧
        ∀ v s2 ls s3, nc ≤ 64 → s1.readMem p.agent (c.word 8 + 0x40) (128 + 8 * nc) = (.done v, s2) →
          let word := fun (j : Nat) => BitVec.ofNat 64 (v / 2 ^ (64 * j))
          let ws := (List.range nc).map (fun j => word (16 + j))
          s2.readStages p ((List.range n).map word) = (.done ls, s3) →
          let code := s3.pipeCode p cid (BitVec.ofNat 512 hv) ws ls
          (code ≠ 0 → Completes (.pipe cid) s (ends 3 code)) ∧
          (code = 0 → Completes (.pipe cid) s (fun t => ∃ d, t.getCmd? cid = some d ∧ d.code = 0 ∧
            ((∃ die core turn, stubs (word (n - 1)) die core turn { c with stage := n - 1, chans := d.chans } t) ∨
              (Awaits t (.pipe cid) ∧ d = { c with chans := d.chans })) ∧
            d.chans = ws.map (fun x => { s3.channelOf p x with hops := (s3.channelOf p x).links.length }) ∧
            ∀ h, d.chans = [h] →
              ((t.getCore h.srcDie h.srcCore).ports[h.srcPort]?.getD Port.init).credits = h.allow))) ∧
      (∀ j a s1 v s2 turn rest, c.op' = 2 → c.stage = j + 1 → c.lids ≠ [] →
        s.readMem p.agent (c.word 8 + BitVec.ofNat 64 (0x40 + 8 * j)) 8 = (.done a, s1) →
        s1.readMem p.agent (BitVec.ofNat 64 a + 0x40) 8 = (.done v, s2) →
        let root := rootOf p (BitVec.ofNat 64 v)
        s2.freeTurns root.1 root.2.1 = turn :: rest →
        Completes (.pipeStageStart cid) s
          (stubs (BitVec.ofNat 64 a) root.1 root.2.1 turn { c with stage := j })) ∧
      (∀ s0 s1 key x, s.charge p.num 5 8 = (true, s0) → s0.placeOf p.agent (c.word 8) 8 .atomic = (.ok key x, s1) →
        (x = true → c.dropped = true → Completes (.signal cid) s (fun t => ends 1 0 t ∧ t.mem = s.mem)) ∧
        ((x = true → c.dropped = false ∧ s1.hostRefuses key = false) → s1.eccRead key 8 = false → Completes (.signal cid) s (fun t => ends 1 0 t ∧
          t.mem = (s1.store key 8 (BitVec.ofNat 64 ((memRead s1.mem key 8 + (c.word 16).toNat) % 2 ^ 64))).mem))) ∧
      (∀ v s1, ((s.getFunc c.fn).queue c.q).mapped = false → c.dropped = false →
        s.readMem p.agent (c.word 8) 8 = (.done v, s1) → Completes (.waitsig cid) s (fun t => t.mem = s1.mem ∧
          t.getCmd? cid = some { c with word' := some v } ∧ Awaits t (.waitsig cid) ∧
          (t.getFunc c.fn).queue c.q = { (s1.getFunc c.fn).queue c.q with
            pw := ((s1.getFunc c.fn).queue c.q).pw || c.word'.any (fun u => u != v) })) ∧
      (∀ v s1, ((s.getFunc c.fn).queue c.q).mapped = true → s.readMem p.agent (c.word 8) 8 = (.done v, s1) →
        (∀ s2 s3, (c.word 16).toNat ≤ v → s1.frontAcquire p (c.word 8) = (some s2, s3) →
          Completes (.waitsig cid) s (ends 1 0)) ∧
        (∀ s3, (c.word 16).toNat ≤ v → s1.frontAcquire p (c.word 8) = (none, s3) →
          Completes (.waitsig cid) s (fun t => t.cmds = s3.cmds ∧ Awaits t (.waitsig cid))) ∧
        (v < (c.word 16).toNat → Completes (.waitsig cid) s (fun t => t.mem = s1.mem ∧
          t.getCmd? cid = some { c with word' := some v } ∧ Awaits t (.waitsig cid)))) ∧
      (let length := (c.slot.extractLsb' 192 32).toNat
        let n := min 256 (length - 256 * c.stage)
        let host := hostKey (fnPort c.fn) (((c.word 8).toNat + 256 * c.stage) % 2 ^ 64)
        let dev := c.word 16 + BitVec.ofNat 64 (256 * c.stage)
        let moved := fun (m : List Host.Cell) (t : State) => t.mem = m ∧
          t.getCmd? cid = some { c with stage := c.stage + 1 } ∧ Awaits t (.copyh cid)
        (n = 0 → Completes (.copyh cid) s (fun t => SameStorage s t ∧ ends 1 0 t)) ∧
        (∀ s0, n ≠ 0 → c.dropped = true → c.slot.getLsbD 256 = true → s.charge p.num 4 n = (true, s0) →
          Completes (.copyh cid) s (moved s.mem)) ∧
        ∀ s0, n ≠ 0 → c.dropped = false → s.charge p.num 4 n = (true, s0) →
          (∀ s1, c.slot.getLsbD 256 = false → s.writeMem p.agent dev n (memRead s.mem host n) = (.done (), s1) →
            Completes (.copyh cid) s (moved s1.mem)) ∧
          (∀ s1 v, c.slot.getLsbD 256 = true → s.readMem p.agent dev n = (.done v, s1) →
            Completes (.copyh cid) s (moved (s1.store host n (BitVec.ofNat (8 * n) v)).mem)) ∧
          (∀ s1 cause a, c.slot.getLsbD 256 = false →
            s.writeMem p.agent dev n (memRead s.mem host n) = (.fail cause a, s1) →
            Completes (.copyh cid) s (fun t => ends 4 cause.toNat t ∧ t.mem = s1.mem))) ∧
      (c.op = none → let nib := (c.word 8).toNat % 16
        let granted := c.fn % 257 = 0 ∨ p.memcfg.getLsbD (48 + nib) = true
        (¬ granted → Completes (.handoffq cid) s (fun t => SameStorage s t ∧ ends 7 0 t)) ∧
        (granted → p.stackList[nib]? = none → Completes (.handoffq cid) s (fun t => SameStorage s t ∧ ends 4 2 t)) ∧
        (∀ st, granted → p.stackList[nib]? = some st → p.dies.contains st = true → p.dies.contains ((st + 1) % 16) = true →
          let d := s.ownerDie st
          (s.getDie d).handQ.length + (s.getDie d).hand.held.length < 16 → Completes (.handoffq cid) s (fun t =>
            SameStorage s t ∧ t.getCmd? cid = some { c with op := some (d, seqNext (s.getDie d).hand.i) } ∧
            ∃ o, (t.getDie d).handQ = (s.getDie d).handQ ++ [o] ∧ o.operand = c.word 8 ∧ o.part = p.num ∧
              o.draining = false))) ∧
      (∀ d n, c.op = some (d, n) → (s.getTl (.hand d)).frec = none → (s.getTl (.hand d)).isDone n = true →
        Completes (.handoffq cid) s (fun t => SameStorage s t ∧ ends 1 0 t))

/-- R471, R472: the management command at the head of the order is carried out and completes OK, with the effect on its partition,
its function or its queue; a command that fails a check completes with the code and the detail of that check and no effect. -/
def Obligations.managementCommands : Prop :=
  ∀ (s : State) (m : Mgmt), s.mgmt.head? = some m →
    let mid := m.mid
    let fn := m.opnd 8 0 10
    let qn := m.opnd 0x10 0 6
    let f := s.getFunc fn
    let clean := fun (op : Nat) (allowed : BitVec 512) => m.op = op ∧
      m.block &&& ~~~(allowed ||| place 512 0 (0xFFFFFFFF000F00FF#64)) = 0
    let ok := fun (i : Instr) (P : State → Prop) => ∃ u : State, exec i s = .next (u.endMgmt m 1 0) ∧ P u
    let no := fun (i : Instr) (code detail : Nat) => exec i s = .next (s.endMgmt m code detail)
    let becomes := fun (p : Partition) (u : State) => u.getPart? m.part = some p ∧ u.mem = s.mem
    let funcIs := fun (g : Func) (u : State) => u.getFunc fn = g ∧ u.mem = s.mem
    -- the blocks that break R471, and the commands of the monitor
    ((m.op = 8 → ¬ clean 8 (opMask 8 0xFFFF003F00000001) → ∃ i, i < 64 ∧ no (.memcfg mid) 2 i) ∧
      (clean 8 (opMask 8 0xFFFF003F00000001) → s.getPart? m.part = none → no (.memcfg mid) 2 2) ∧
      (m.monitor = false →
        (clean 2 0 → (s.getPart? m.part).isSome = true → no (.pdiss mid) 3 0) ∧
        (clean 3 (opMask 8 0xF) → (s.getPart? m.part).isSome = true → m.opnd 8 0 4 ≠ 0 → no (.keyld mid) 3 0))) ∧
    -- partitions, of the monitor
    (m.monitor = true →
      (clean 1 (opMask 8 0xFFFF ||| opMask 0x10 (2 ^ 64 - 1) ||| opMask 0x18 (2 ^ 64 - 1) ||| opMask 0x20 3) →
        m.opnd 8 0 16 ≠ 0 →
        let dies := (List.range 16).filter (fun d => m.block.getLsbD (64 + d))
        let sts := (List.range 16).filter (fun st => dies.contains (s.ownerDie st))
        let order := if m.block.getLsbD 256 then nibbles (m.opnd 0x10 0 64) dies.length else dies
        let names := if m.block.getLsbD 257 then nibbles (m.opnd 0x18 0 64) sts.length else sts
        ((s.getPart? m.part).isSome = true → no (.pform mid) 4 1) ∧
        (s.getPart? m.part = none →
          (s.unformable dies = true → no (.pform mid) 4 2) ∧
          (s.unformable dies = false → oneToOne order dies = false → no (.pform mid) 4 3) ∧
          (s.unformable dies = false → oneToOne order dies = true → oneToOne names sts = true →
            ok (.pform mid) (fun u => u.mem = s.mem ∧
              (∃ p, u.getPart? m.part = some p ∧ p.dies = order ∧ p.keyVals = [(0, s.nextId, Config.drbg s.kaolin.drawn)] ∧
              u.kaolin.drawn = s.kaolin.drawn + 1 ∧ p.stackList = names ∧ p.resident = true ∧ p.keys = 1 ∧ p.root = 0 ∧ p.memcfg = 0 ∧ p.groups = [] ∧
              p.routes = [] ∧ p.budget = Vector.replicate 6 0 ∧ p.window = #v[16, 64] ∧ p.hyst = 1000 ∧
                (s.parts.length ≤ 16 → ∀ q, q ∈ s.parts → q.chip ≠ p.chip)) ∧
              (∀ k, k ∈ u.cores → dies.contains k.die = true → k.collCount = []) ∧
              ∀ d, d ∈ dies → (u.getDie d).base = (s.getDie d).cyc / 8 * 8 ∧ (u.getDie d).stopped = false)))) ∧
      (∀ p, s.getPart? m.part = some p →
        (clean 2 0 → s.partBusy m.part = true → no (.pdiss mid) 4 1) ∧
        (clean 2 0 → s.partBusy m.part = false → ok (.pdiss mid) (fun u => u.getPart? m.part = none ∧ u.mem = s.mem ∧
          ∀ g, (u.getFunc g).part ≠ some m.part)) ∧
        (clean 3 (opMask 8 0xF) → m.opnd 8 0 4 ≠ 0 → ok (.keyld mid) (fun u => u.mem = s.mem ∧
          u.kaolin.drawn = s.kaolin.drawn + 1 ∧ ∃ l, u.getPart? m.part = some { p with
            keys := p.keys ||| (1#16 <<< m.opnd 8 0 4), keyVals := l } ∧
            ∀ k, l.find? (fun x => x.1 == k) = if k = m.opnd 8 0 4 then some (k, s.nextId, Config.drbg s.kaolin.drawn)
              else p.keyVals.find? (fun x => x.1 == k))) ∧
        (clean 4 (opMask 8 0xF ||| opMask 0x10 0x1F) →
          let st := m.opnd 8 0 4
          let side := m.block.getLsbD 132
          let die := if side = true then (st + 1) % 16 else st
          ∀ o, s.getPart? (m.opnd 0x10 0 4) = some o →
            (p.stackList.contains st = false ∨ o.dies.contains die = false → no (.stkmove mid) 4 1) ∧
            (p.stackList.contains st = true → o.dies.contains die = true → s.stackDraining st = false → p.num ≠ o.num →
              Memory.wf s.mem → ok (.stkmove mid) (fun u =>
                (∀ j, j < 16 → u.stackPort.getLsbD j = if j = st then side else s.stackPort.getLsbD j) ∧
                (∀ b, memGet u.mem b = if stackKey st 0 ≤ b ∧ b < stackKey st 0 + 2 ^ 36 then 0 else memGet s.mem b) ∧
                u.getPart? p.num = some { p with stackList := p.stackList.filter (· != st) } ∧
                u.getPart? o.num = some { o with stackList := o.stackList ++ [st] }))))) ∧
    -- partitions and their tables, of the supervisor
    (∀ p, s.getPart? m.part = some p →
      (clean 5 (opMask 8 0xF ||| opMask 0x10 (2 ^ 64 - 4096) ||| opMask 0x18 (2 ^ 64 - 4096)) →
        m.opnd 8 0 4 < s.dieCount m.part → ok (.pool mid) (fun u => ∃ l, becomes { p with pools := l } u ∧
          ∀ d, l.find? (fun x => x.1 == d) = if d = m.opnd 8 0 4 then
            some (d, m.block.extractLsb' 128 64, m.block.extractLsb' 192 64) else p.pools.find? (fun x => x.1 == d))) ∧
      (clean 6 0 →
        (m.begun = false → p.resident = false → no (.evict mid) 4 1) ∧
        (m.begun = false → p.resident = true → (∃ d, d ∈ p.dies ∧ s.saveArea p d = none) → no (.evict mid) 4 2) ∧
        (m.begun = false → p.resident = true → (∀ d, d ∈ p.dies → (s.saveArea p d).isSome = true) → s.updating = false →
          Completes (.evict mid) s (fun t => becomes { p with evicting := true } t ∧
            ∀ x, x ∈ t.mgmt → x.mid = mid → x.begun = true)) ∧
        (m.begun = true → p.resident = false → ok (.evict mid) (becomes { p with evicting := false }))) ∧
      (clean 7 0 →
        (m.begun = false → p.resident = true → no (.resume mid) 4 1) ∧
        (∀ d k, m.begun = false → p.resident = false → s.partDrains p = false → s.badPartition p = some (d, k) →
          no (.resume mid) 4 (2 + k * 2 ^ 12 + d * 2 ^ 20)) ∧
        (m.begun = false → p.resident = false → s.partDrains p = false → s.badPartition p = none →
          Completes (.resume mid) s (fun t => t.getPart? m.part = some { p with resident := true, evicting := false } ∧
            ∀ x, x ∈ t.mgmt → x.mid = mid → x.begun = true)) ∧
        (m.begun = true → (∀ d, d ∈ p.dies → (s.getDie d).stopped = false) → ok (.resume mid) (fun u => u.mem = s.mem))) ∧
      (clean 8 (opMask 8 0xFFFF003F00000001) → ok (.memcfg mid) (becomes { p with memcfg := m.block.extractLsb' 64 64 })) ∧
      (clean 9 (opMask 8 (2 ^ 40 - 4096)) → ok (.xroot mid) (fun u => becomes { p with root := m.opnd 8 0 40 } u ∧
        ∀ k, k ∈ u.dies → ∀ e, e ∈ k.tlb → e.part ≠ m.part)) ∧
      (clean 0xA (opMask 8 0xFF ||| opMask 0x10 0x7FF ||| opMask 0x18 (2 ^ 64 - 1)) →
        let n := m.opnd 0x10 0 11
        n ≤ 1024 → m.opnd 0x18 0 64 + 4 * n ≤ s.memberSpace m → ok (.gtab mid) (fun u => ∃ l, becomes { p with groups := l } u ∧
          ∀ k, l.find? (fun x => x.1 == k) = if k = m.opnd 8 0 8 then
            (if n = 0 then none else some (k, s.memberWords m (m.opnd 0x18 0 64) n)) else p.groups.find? (fun x => x.1 == k))) ∧
      (clean 0xA (opMask 8 0xFF ||| opMask 0x10 0x7FF ||| opMask 0x18 (2 ^ 64 - 1)) → 1024 < m.opnd 0x10 0 11 →
        no (.gtab mid) 2 0x10) ∧
      (clean 0xB (opMask 8 7 ||| opMask 0x10 0xFFFFFFFF) → m.opnd 8 0 3 < 6 → ok (.budget mid) (fun u =>
        ∃ b, becomes { p with budget := b } u ∧
          ∀ k, k < 6 → b[k]? = if k = m.opnd 8 0 3 then some (m.opnd 0x10 0 32) else p.budget[k]?)) ∧
      (clean 0xC (opMask 8 1 ||| opMask 0x10 0x1FF) → 1 ≤ m.opnd 0x10 0 9 → m.opnd 0x10 0 9 ≤ 256 → ok (.swin mid) (fun u =>
        ∃ b, becomes { p with window := b } u ∧
          ∀ k, k < 2 → b[k]? = if k = m.opnd 8 0 1 then some (m.opnd 0x10 0 9) else p.window[k]?)) ∧
      (clean 0xD (opMask 8 0xFFFF ||| opMask 0x10 0xFFFF) → ok (.croute mid) (fun u => ∃ l, becomes { p with routes := l } u ∧
        let ports : BitVec 16 := m.block.extractLsb' 128 16
        ∀ k, l.find? (fun x => x.1 == k) = if k = m.opnd 8 0 16 then (if ports = 0 then none else some (k, ports))
          else p.routes.find? (fun x => x.1 == k))) ∧
      (clean 0x11 (opMask 8 0xFFFFF) → m.opnd 8 0 20 ≤ 1000000 → ok (.hyst mid) (becomes { p with hyst := m.opnd 8 0 20 })) ∧
      (clean 0xE (opMask 8 0x3FF ||| opMask 0x10 0x1F ||| opMask 0x18 0x3F ||| opMask 0x20 (2 ^ 64 - 1)) → fn < 514 →
        let n := m.opnd 0x18 0 6
        let b := fun (i : Nat) => m.block.getLsbD (128 + i)
        (1 ≤ n ∧ n < 20 ∨ 36 < n → no (.fassign mid) 2 0x18) ∧
        (n = 0 ∨ 20 ≤ n ∧ n ≤ 36 → ok (.fassign mid) (fun u => u.mem = s.mem ∧
          let g := u.getFunc fn
          g.pagm = b 2 ∧ g.mapm = b 3 ∧ g.trpm = b 4 ∧ g.en = f.en ∧
          (b 0 = false → g.part = none ∧ g.home = false ∧ g.bar2 = 0 ∧ g.queues = []) ∧
          (b 0 = true → g.part = some m.part ∧ g.home = b 1 ∧ g.bar2 = n ∧ g.wbase = m.block.extractLsb' 256 64 ∧
            g.queues = (if f.part = some m.part then f.queues else []) ∧
            (b 1 = true → ∃ x, u.getPart? m.part = some x ∧ x.home = some fn))))) ∧
      (clean 0x12 (opMask 8 0x3FF ||| opMask 0x10 (2 ^ 64 - 1) ||| opMask 0x18 0xFFFFF ||| opMask 0x20 (2 ^ 64 - 1)) → fn < 514 →
        let len := m.opnd 0x18 0 20
        let off := m.opnd 0x20 0 64
        ∀ v s1, off + len ≤ Config.fwSizeIo → s.logFull = false →
          s.readMem p.agent (m.block.extractLsb' 128 64) len = (.done v, s1) →
          let digest := sha256 (bytesOf len v)
          let extended := fun (u : State) =>
            rd u.kaolin.mr 5 = sha256 (bytesOf 32 (rd s.kaolin.mr 5).toNat ++ bytesOf 32 digest.toNat)
          (Config.signatureOk (bytesOf len v) = true → ok (.pload mid) (fun u => extended u ∧
            u.mem = (s1.store (fwKey (16 + fnPort fn) off) len (BitVec.ofNat (8 * len) v)).mem ∧
            (u.getFunc fn).plugin = some (off, len) ∧ (u.getFunc fn).pluginFaulted = false)) ∧
          (Config.signatureOk (bytesOf len v) = false → ∃ u : State, exec (.pload mid) s = .next (u.endMgmt m 7 0) ∧
            u.mem = s1.mem ∧ u.funcs = s1.funcs)) ∧
      (clean 0x14 (opMask 8 0x3FF ||| opMask 0x10 (2 ^ 64 - 1) ||| opMask 0x18 0xFFFF) → fn < 514 →
        let n := m.opnd 0x18 0 16
        ∀ v s1, s.readMem p.agent (m.block.extractLsb' 128 64) (8 * n) = (.done v, s1) → ok (.fpool mid) (fun u =>
          u.mem = s1.mem ∧ (u.getFunc fn).pool =
            (s1.getFunc fn).pool ++ (List.range n).map (fun i => BitVec.ofNat 64 (v / 2 ^ (64 * i)) &&& 0xFFFFFFFFFFFFF000#64))) ∧
      (clean 0x15 (opMask 8 0xF ||| opMask 0x10 (2 ^ 64 - 1) ||| opMask 0x18 7) → m.opnd 8 0 4 < s.dieCount m.part →
        m.opnd 0x18 0 3 < 7 →
        let d := (s.physDie? m.part (m.opnd 8 0 4)).getD 0
        let named := fun (t : Thread) => t.part = m.part ∧ t.die = d ∧ t.onControl = false ∧
          t.wid = m.block.extractLsb' 128 64 ∧ t.st ≠ .exited
        ((∀ t, t ∈ s.allThreads → ¬ named t) → ok (.kill mid) (fun u => u = s)) ∧
        (∀ t l1 l2, s.allThreads = l1 ++ t :: l2 → named t → (∀ x, x ∈ l1 ++ l2 → ¬ named x) → s.getThread? t.tid = some t →
          ok (.kill mid) (fun u => ∃ n, u.getThread? t.tid = some n ∧ n.st = .exited)))) ∧
    -- queues and slices
    (fn < 514 →
      (clean 0xF (opMask 8 0x3FF ||| opMask 0x10 0x3F) → s.updating = false → (f.queue qn).mapped = false →
        (512 ≤ s.mappedCount (fnPort fn) → no (.qmap mid) 4 1) ∧
        (s.mappedCount (fnPort fn) < 512 → ok (.qmap mid) (fun u => u.mem = s.mem ∧
          (u.getFunc fn).queue qn = { f.queue qn with mapped := true, pw := false }))) ∧
      (clean 0x10 (opMask 8 0x3FF ||| opMask 0x10 0x3F) → s.updating = false → ok (.qunmap mid) (fun u => u.mem = s.mem ∧
        (u.getFunc fn).queue qn = { f.queue qn with mapped := false })) ∧
      (clean 0x13 (opMask 8 0x3FF ||| opMask 0x10 0x1FFFF) → 50 ≤ m.opnd 0x10 0 17 → m.opnd 0x10 0 17 ≤ 100000 →
        ok (.tslice mid) (funcIs { f with tslice := m.opnd 0x10 0 17 })) ∧
      (clean 0x13 (opMask 8 0x3FF ||| opMask 0x10 0x1FFFF) → m.opnd 0x10 0 17 < 50 ∨ 100000 < m.opnd 0x10 0 17 →
        no (.tslice mid) 2 0x10)) ∧
    -- what the end of a command writes
    (∀ code detail port, m.src = .mailbox port → port < 2 →
      let t := s.endMgmt m code detail
      t = { s with mgmt := t.mgmt, mailbox := t.mailbox } ∧ (∀ x, x ∈ t.mgmt → x.mid ≠ mid) ∧
      (t.mailbox' port).busy = false ∧ (t.mailbox' port).status = 1#8 ∧ (t.mailbox' port).mbrlen = 64#32 ∧
      ∀ j, j < 4 → (t.mailbox' port).byte (4 + j) = BitVec.ofNat 8 ((code + detail % 2 ^ 24 * 256) / 256 ^ j)) ∧
    (∀ code detail tid off, m.src = .turn tid off → tid ≠ 0 → s.eccWrite (fwKey (s.turnDie tid) (off + 4)) 4 = false →
      let t := s.endMgmt m code detail
      t.mem = (s.store (fwKey (s.turnDie tid) (off + 4)) 4 (BitVec.ofNat 32 (code + detail % 2 ^ 24 * 256))).mem ∧
      (∀ x, x ∈ t.mgmt → x.mid ≠ mid) ∧ ∀ n, s.getThread? tid = some n →
        t.getThread? tid = some { n with ctl := { n.ctl with mstat := BitVec.ofNat 32 code } })

/-- R473–R476, R481, R484: each request of the mailbox ends with its status and its response; an update goes from its check through
the quiesce and the trial of the new image to its commit at the first heartbeat, or rolls back. -/
def Obligations.firmwareAndMailbox : Prop :=
  ∀ (s : State) (port io : Nat), port < 2 → io < 2 →
    let m := s.mailbox' port
    let tgt := m.tgt
    let o := s.ioOf tgt
    let ended := fun (at' code : Nat) (t : State) =>
      (t.mailbox' at').busy = false ∧ (t.mailbox' at').status = BitVec.ofNat 8 code
    let answers := fun (code : Nat) (resp : List Byte) (t : State) => ended port code t ∧ t.mem = s.mem ∧
      (t.mailbox' port).mbrlen = BitVec.ofNat 32 resp.length ∧
      ∀ j, j < resp.length → (t.mailbox' port).byte j = resp[j]?.getD 0
    Completes (.mailboxBadreq port) s (answers 6 []) ∧
    (let off := natOf (m.bytes 0 4)
      let n := m.mblen.toNat - 4
      (o.update.isSome = true → Completes (.fwload port) s (answers 4 [])) ∧
      (o.update = none → 0x400000 < off + n → Completes (.fwload port) s (answers 6 [])) ∧
      (o.update = none → off + n ≤ 0x400000 → Completes (.fwload port) s (fun t => ended port 1 t ∧
        t.mem = (s.store (fwKey (16 + tgt) (slotBase (1 - o.slot) + off)) n
          (BitVec.ofNat (8 * n) (natOf (m.bytes 4 n)))).mem))) ∧
    (tgt < 2 → o.update = none → m.busy = true → s.logFull = false →
      let slot := 1 - o.slot
      let good := Config.signatureOk (s.imageBytes tgt slot) = true
      let accept := (s.imageWord tgt slot 8).toNat
      let running := (s.load (fwKey (16 + tgt) stateBlock) 4 32 : W32).toNat
      (¬ good → Completes (.fwact port) s (answers 2 [])) ∧
      (good → running < accept → Completes (.fwact port) s (answers 3 [])) ∧
      (good → accept ≤ running → Completes (.fwact port) s (fun t => SameStorage s t ∧ t.mailbox' port = m ∧
        (t.ioOf tgt).update = some { slot := slot, phase := 1, shadow := [], port := port } ∧ (t.ioOf tgt).slot = o.slot ∧
        ∃ e, e ∈ t.agenda ∧ e.ev = .quiesceTimeout tgt ∧ e.due = .wall (s.wall + 1000000 * Config.ns)))) ∧
    (∀ u, tgt < 2 → o.update = some u → u.port = port → u.phase = 2 → Completes (.fwact port) s (fun t => t.mem = s.mem ∧
      (∃ x, (t.ioOf tgt).update = some x ∧ x.phase = 3 ∧ x.slot = u.slot ∧ x.shadow.length = 0x10000 ∧
        ∀ j, j < 0x10000 → x.shadow[j]? = some (memGet s.mem (fwKey (16 + tgt) (stateBlock + j)))) ∧
      (∀ c, c < 4 → ∃ n, n ∈ t.threads ∧ n.die = 16 + tgt ∧ n.core = 256 + c ∧ n.turn = 0 ∧ n.priv = .supervisor ∧
        n.st = .running ∧ n.pc = (s.imageWord tgt u.slot 12).setWidth 64 ∧ rd n.x 1 = 0x100000#32 ∧
        rd n.x 2 = BitVec.ofNat 32 (slotBase u.slot)) ∧
      ∃ e, e ∈ t.agenda ∧ e.ev = .updateTimeout tgt ∧ e.due = .wall (s.wall + 50000000 * Config.ns))) ∧
    (∀ u, (s.ioOf io).update = some u → u.port < 2 →
      (u.phase = 1 → Completes (.quiesceTimeout io) s (fun t => ended u.port 4 t ∧ (t.ioOf io).update = none ∧
        (t.ioOf io).slot = (s.ioOf io).slot ∧ SameStorage s t)) ∧
      (u.phase = 3 → Completes (.heartbeat (16 + io)) s (fun t => ended u.port 1 t ∧ (t.ioOf io).update = none ∧
        (t.ioOf io).slot = u.slot ∧ (t.getDie (16 + io)).fwslot = s.fwslotWord io u.slot ∧
        (t.mailbox' u.port).mbevt.getLsbD 1 = true ∧ SameStorage s t)) ∧
      (u.phase = 3 → Completes (.updateTimeout io) s (fun t => ended u.port 5 t ∧ (t.ioOf io).update = none ∧
        (t.ioOf io).slot = (s.ioOf io).slot ∧ (t.mailbox' u.port).mbevt.getLsbD 1 = true ∧
        t.mem = (s.store (fwKey (16 + io) stateBlock) 0x10000 (BitVec.ofNat 524288 (natOf u.shadow))).mem ∧
        ∀ c, c < 4 → ∃ n, n ∈ t.threads ∧ n.die = 16 + io ∧ n.core = 256 + c ∧ n.turn = 0 ∧ n.priv = .supervisor ∧
          rd n.x 2 = BitVec.ofNat 32 (slotBase (s.ioOf io).slot))) ∧
      (u.phase ≠ 3 → Completes (.updateTimeout io) s (fun t => ended u.port 5 t ∧ (t.ioOf io).update = none ∧
        (t.ioOf io).slot = (s.ioOf io).slot ∧ (t.mailbox' u.port).mbevt.getLsbD 1 = true ∧ t.mem = s.mem))) ∧
    (let first := natOf (m.bytes 0 4)
      let n := natOf (m.bytes 4 4)
      (n = 0 ∨ 63 < n → Completes (.logrd port) s (answers 6 [])) ∧
      (1 ≤ n → n ≤ 63 → Completes (.logrd port) s
        (answers 1 (((s.kaolin.log.zipIdx.drop first).take n).flatMap (fun x => x.1.image x.2))))) ∧
    (let b := BitVec.ofNat 512 (natOf (m.bytes 0 64));
      (∀ ev, mgmtEvent (b.toNat % 256) s.nextId = some ev → Completes (.mgmt port) s (fun t => SameStorage s t ∧
        Awaits t ev ∧ t.mgmt = s.mgmt ++
          [{ mid := s.nextId, src := .mailbox port, block := b, monitor := true, begun := false }])) ∧
      (mgmtEvent (b.toNat % 256) s.nextId = none → Completes (.mgmt port) s (fun t => ended port 1 t ∧ t.mem = s.mem ∧
        (t.mailbox' port).byte 4 = 2#8))) ∧
    (∀ i, i ∈ ([.getVersion port, .getCapabilities port, .negotiateAlgorithms port, .getDigests port, .getCertificate port,
        .challenge port, .getMeasurements port] : List Instr) →
      (s.kaolin.ready.getLsbD 37 = false → Completes i s (answers 3 [])) ∧
      (s.kaolin.ready.getLsbD 37 = true → ∃ resp : List Byte, resp.length ≤ 4096 ∧ Completes i s (answers 1 resp))) ∧
    -- a measurement block, signed by the alias key
    (∀ n, s.kaolin.ready.getLsbD 37 = true → Config.spdmBlock m.message = n + 1 → n ≤ 8 →
      let block := if n < 8 then bytesOf 32 (rd s.kaolin.mr n).toNat else s.kaolin.log.zipIdx.flatMap (fun x => x.1.image x.2)
      Completes (.getMeasurements port) s
        (answers 1 ((Config.spdmEncode 0xE0 [block, Config.sign s.aliasSeed (m.message ++ block)]).take 4096))) ∧
    (s.kaolin.ready.getLsbD 37 = true →
      Completes (.spdmUnsupportedRequest port) s (answers 1 [0x13, 0x7F, 0x07, m.byte 1]))

/-- R435, R479–R482, R488: what a package reset leaves, the bring-up of the dies in order with what is measured and what becomes
ready or dead, the two limits of cooling, and the end of an eviction. -/
def Obligations.packageEvents : Prop :=
  ∀ (s : State) (a b router die : Nat) (version : W32) (digest : BitVec 256),
    let n := s.kaolin.nextDie
    let good := a ≠ 0 ∧ b ≠ 0
    let before := fun (l : List LogEntry) => if n = 0 then ∃ v dg,
        l = s.kaolin.log ++ [{ mr := 0, kind := 1, die := 18, version := v, digest := dg }] else l = s.kaolin.log
    let booted := fun (l : List LogEntry) => (n < 2 ∧ good → ∃ v dg,
      l = [{ mr := 4, kind := 1, die := 16 + n, version := v, digest := dg }]) ∧ (¬ (n < 2 ∧ good) → l = [])
    -- Kaolin has put the die's image into its firmware memory, if it was verified
    let loaded := fun (d : Nat) (t : State) =>
      let img := (Config.bootImage d).take (if d < 16 then Config.fwSizeDie else stateBlock)
      t.mem = if a = 0 then s.mem else (s.store (fwKey d 0) img.length (BitVec.ofNat (8 * img.length) (natOf img))).mem
    let measured := fun (mr d : Nat) (t : State) => s.kaolin.log.length < 4093 → (∃ l l', before l ∧ booted l' ∧ t.kaolin.log = l ++
        [{ mr := mr, kind := if a = 0 then 3 else 1, die := d, version := version, digest := digest }] ++ l') ∧
      (n = 0 → t.kaolin.ready.getLsbD 32 = true) ∧ rd t.kaolin.mr mr = sha256 (bytesOf 32 (rd s.kaolin.mr mr).toNat ++ bytesOf 32 digest.toNat)
    let brings := fun (P : State → Prop) => Completes (.dieBringup a b router version digest) s P
    (s.kaolin.tripped = true → exec .packageReset s = .next s ∧ brings (fun t => t = s)) ∧
    (s.kaolin.tripped = false →
      Completes .packageReset s (fun t => t.mem = s.mem ∧ t = { State.reset with
        mem := s.mem, mem0 := s.mem, ecc := s.ecc, lineKeys := s.lineKeys, tick := s.tick, wall := s.wall, free := s.free
        nextId := s.nextId, archive := s.archive, io := s.io.map (fun o => { o with update := none }) }) ∧
      (∀ d, n = d + 2 → d < 16 →
        (good → brings (fun t => loaded d t ∧ measured 3 d t ∧ t.kaolin.nextDie = n + 1 ∧ (t.getDie d).up = true ∧
          (∀ c, c < 4 → ∃ u, u ∈ t.threads ∧ u.die = d ∧ u.core = 256 + c ∧ u.turn = 0 ∧ u.priv = .supervisor) ∧
          t.kaolin.ready.getLsbD d = true ∧ (s.ownerDie d = d → t.kaolin.ready.getLsbD (16 + d) = true))) ∧
        (¬ good → brings (fun t => loaded d t ∧ measured 3 d t ∧ t.kaolin.nextDie = n + 1 ∧ (t.getDie d).dead = true ∧
          (t.getDie d).up = (s.getDie d).up ∧ t.kaolin.deadMap.getLsbD d = true ∧
          ∀ k, k < 16 → t.stackPort.getLsbD k = (s.stackPort.getLsbD k || decide (k = d))))) ∧
      (n < 2 →
        (good → brings (fun t => loaded (16 + n) t ∧ measured (n + 1) (16 + n) t ∧ t.kaolin.nextDie = n + 1 ∧
          (t.getDie (16 + n)).up = true ∧ t.kaolin.ready.getLsbD (33 + n) = true ∧ t.kaolin.ready.getLsbD 37 = true ∧
          t.kaolin.ready.getLsbD 38 = true ∧
          (∀ d, d < 16 → (t.getDie d).routerOk = ((s.getDie d).routerOk || router.testBit d)) ∧
          (∃ u, u ∈ t.threads ∧ u.die = 16 + n ∧ u.core = 256 ∧ u.turn = 7 ∧ u.priv = .monitor) ∧
          ∀ c, c < 4 → ∃ u, u ∈ t.threads ∧ u.die = 16 + n ∧ u.core = 256 + c ∧ u.turn = 0 ∧ u.priv = .supervisor)) ∧
        (¬ good → brings (fun t => loaded (16 + n) t ∧ measured (n + 1) (16 + n) t ∧ (t.getDie (16 + n)).dead = true ∧
          t.threads = s.threads ∧
          t.kaolin.nextDie = if n = 1 ∧ (s.getDie 16).dead = true then 18 else n + 1)))) ∧
    ((s.getDie die).cyc % 8 = 7 → Completes (.thermalStepdown die) s (fun t => t.me = s.me ∧ t.threads = s.threads ∧
      t.mem = s.mem ∧ (t.getDie die).freq = max 10 (min 20 ((s.getDie die).freq - 1)))) ∧
    Completes .thermalTrip s (fun t => t.mem = s.mem ∧ t.threads = [] ∧ t.parts = [] ∧ t.dies = [] ∧ t.agenda = [] ∧
      t.kaolin = { s.kaolin with tripped := true } ∧ (t.mailbox' 0).mbevt.getLsbD 0 = true ∧
      (t.mailbox' 1).mbevt.getLsbD 0 = true) ∧
    (∀ p, s.parts.find? (fun p => p.dies.contains die) = some p →
      (s.quiet p = false → Completes (.quiesceComplete die) s (fun t => SameStorage s t ∧ Awaits t (.quiesceComplete die))) ∧
      (s.quiet p = true → Completes (.quiesceComplete die) s (fun t => t.mem = (s.writeDie p die).mem ∧
        (t.getDie die).tlb = [] ∧ t.saved = s.saved ++ [{ part := p.num, die := die, cycle := s.cycleReg die }] ∧
        ((∀ d, d ∈ p.dies → ∃ v, v ∈ t.saved ∧ v.part = p.num ∧ v.die = d) → Awaits t (.partitionEvicted p.num))))) ∧
    (∀ p part, s.getPart? part = some p → p.moveTo = [] → Completes (.partitionEvicted part) s (fun t => SameStorage s t ∧
      t.getPart? part = some { p with resident := false } ∧
      ∀ m, m ∈ s.mgmt → m.block.toNat % 256 = 6 → m.part = part → Awaits t (.evict m.mid))) ∧
    -- a group move: an eviction, followed at once by the resumption on the other dies
    (∀ p part dies, s.getPart? part = some p →
      (p.resident = true → p.evicting = false → s.mayMove p dies = true → (∀ d, d ∈ p.dies → (s.saveArea p d).isSome = true) →
        runEvent (.groupMove part dies) s = .next (s.setPart { p with evicting := true, moveTo := dies })) ∧
      (s.mayMove p dies = false → runEvent (.groupMove part dies) s = .next s)) ∧
    (∀ p part, s.getPart? part = some p → p.moveTo ≠ [] → Completes (.partitionEvicted part) s (fun t =>
      t.getPart? part = some { p with
        dies := p.moveTo, stackList := p.stackList.map (s.stackFor p p.moveTo), moveTo := [], resident := true, evicting := false } ∧
      ∀ v, v ∈ t.saved → v.part ≠ part))
end

