-- ==== Sys2Proof/Laws/State.lean ====
section
/-! SUPPORT. What each named update of the state leaves unchanged, field by field. -/

namespace Sys2Proof.Machine

variable (s : State)

@[simp] theorem State.cancelTo_pre (f r : Nat) : (s.cancelTo f r).pre = s.pre := rfl
@[simp] theorem State.cancelTo_bun (f r : Nat) : (s.cancelTo f r).bun = s.bun := rfl
@[simp] theorem State.cancelTo_mem (f r : Nat) : (s.cancelTo f r).mem = s.mem := rfl
@[simp] theorem State.cancelTo_mem0 (f r : Nat) : (s.cancelTo f r).mem0 = s.mem0 := rfl
@[simp] theorem State.cancelTo_ecc (f r : Nat) : (s.cancelTo f r).ecc = s.ecc := rfl
@[simp] theorem State.cancelTo_late (f r : Nat) : (s.cancelTo f r).late = s.late := rfl
@[simp] theorem State.cancelTo_msgs (f r : Nat) : (s.cancelTo f r).msgs = s.msgs := rfl
@[simp] theorem State.cancelTo_lineKeys (f r : Nat) : (s.cancelTo f r).lineKeys = s.lineKeys := rfl
@[simp] theorem State.cancelTo_views (f r : Nat) : (s.cancelTo f r).views = s.views := rfl
@[simp] theorem State.cancelTo_scLog (f r : Nat) : (s.cancelTo f r).scLog = s.scLog := rfl
@[simp] theorem State.cancelTo_tick (f r : Nat) : (s.cancelTo f r).tick = s.tick := rfl
@[simp] theorem State.cancelTo_wall (f r : Nat) : (s.cancelTo f r).wall = s.wall := rfl
@[simp] theorem State.cancelTo_slots (f r : Nat) : (s.cancelTo f r).slots = s.slots := rfl
@[simp] theorem State.cancelTo_threads (f r : Nat) : (s.cancelTo f r).threads = s.threads := rfl
@[simp] theorem State.cancelTo_cores (f r : Nat) : (s.cancelTo f r).cores = s.cores := rfl
@[simp] theorem State.cancelTo_dies (f r : Nat) : (s.cancelTo f r).dies = s.dies := rfl
@[simp] theorem State.cancelTo_parts (f r : Nat) : (s.cancelTo f r).parts = s.parts := rfl
@[simp] theorem State.cancelTo_launches (f r : Nat) : (s.cancelTo f r).launches = s.launches := rfl
@[simp] theorem State.cancelTo_groups (f r : Nat) : (s.cancelTo f r).groups = s.groups := rfl
@[simp] theorem State.cancelTo_stackPort (f r : Nat) : (s.cancelTo f r).stackPort = s.stackPort := rfl
@[simp] theorem State.cancelTo_parked (f r : Nat) : (s.cancelTo f r).parked = s.parked := rfl
@[simp] theorem State.cancelTo_moves (f r : Nat) : (s.cancelTo f r).moves = s.moves := rfl
@[simp] theorem State.cancelTo_funcs (f r : Nat) : (s.cancelTo f r).funcs = s.funcs := rfl
@[simp] theorem State.cancelTo_cmds (f r : Nat) : (s.cancelTo f r).cmds = s.cmds := rfl
@[simp] theorem State.cancelTo_hostHeld (f r : Nat) : (s.cancelTo f r).hostHeld = s.hostHeld := rfl
@[simp] theorem State.cancelTo_hostReplies (f r : Nat) : (s.cancelTo f r).hostReplies = s.hostReplies := rfl
@[simp] theorem State.cancelTo_mailbox (f r : Nat) : (s.cancelTo f r).mailbox = s.mailbox := rfl
@[simp] theorem State.cancelTo_mgmt (f r : Nat) : (s.cancelTo f r).mgmt = s.mgmt := rfl
@[simp] theorem State.cancelTo_io (f r : Nat) : (s.cancelTo f r).io = s.io := rfl
@[simp] theorem State.cancelTo_kaolin (f r : Nat) : (s.cancelTo f r).kaolin = s.kaolin := rfl
@[simp] theorem State.cancelTo_dz (f r : Nat) : (s.cancelTo f r).dz = s.dz := rfl
@[simp] theorem State.cancelTo_flights (f r : Nat) : (s.cancelTo f r).flights = s.flights := rfl
@[simp] theorem State.cancelTo_touched (f r : Nat) : (s.cancelTo f r).touched = s.touched := rfl
@[simp] theorem State.cancelTo_traps (f r : Nat) : (s.cancelTo f r).traps = s.traps := rfl
@[simp] theorem State.cancelTo_frecs (f r : Nat) : (s.cancelTo f r).frecs = s.frecs := rfl
@[simp] theorem State.cancelTo_reports (f r : Nat) : (s.cancelTo f r).reports = s.reports := rfl
@[simp] theorem State.cancelTo_saved (f r : Nat) : (s.cancelTo f r).saved = s.saved := rfl
@[simp] theorem State.cancelTo_archive (f r : Nat) : (s.cancelTo f r).archive = s.archive := rfl
@[simp] theorem State.cancelTo_agenda (f r : Nat) : (s.cancelTo f r).agenda = s.agenda := rfl
@[simp] theorem State.cancelTo_free (f r : Nat) : (s.cancelTo f r).free = s.free := rfl
@[simp] theorem State.cancelTo_nextId (f r : Nat) : (s.cancelTo f r).nextId = s.nextId := rfl

@[simp] theorem State.store_me {w : Nat} (k n : Nat) (v : BitVec w) : (s.store k n v).me = s.me := rfl
@[simp] theorem State.store_pre {w : Nat} (k n : Nat) (v : BitVec w) : (s.store k n v).pre = s.pre := rfl
@[simp] theorem State.store_bun {w : Nat} (k n : Nat) (v : BitVec w) : (s.store k n v).bun = s.bun := rfl
@[simp] theorem State.store_mem0 {w : Nat} (k n : Nat) (v : BitVec w) : (s.store k n v).mem0 = s.mem0 := rfl
@[simp] theorem State.store_late {w : Nat} (k n : Nat) (v : BitVec w) : (s.store k n v).late = s.late := rfl
@[simp] theorem State.store_msgs {w : Nat} (k n : Nat) (v : BitVec w) : (s.store k n v).msgs = s.msgs := rfl
@[simp] theorem State.store_lineKeys {w : Nat} (k n : Nat) (v : BitVec w) : (s.store k n v).lineKeys = s.lineKeys := rfl
@[simp] theorem State.store_views {w : Nat} (k n : Nat) (v : BitVec w) : (s.store k n v).views = s.views := rfl
@[simp] theorem State.store_scLog {w : Nat} (k n : Nat) (v : BitVec w) : (s.store k n v).scLog = s.scLog := rfl
@[simp] theorem State.store_tick {w : Nat} (k n : Nat) (v : BitVec w) : (s.store k n v).tick = s.tick := rfl
@[simp] theorem State.store_wall {w : Nat} (k n : Nat) (v : BitVec w) : (s.store k n v).wall = s.wall := rfl
@[simp] theorem State.store_slots {w : Nat} (k n : Nat) (v : BitVec w) : (s.store k n v).slots = s.slots := rfl
@[simp] theorem State.store_threads {w : Nat} (k n : Nat) (v : BitVec w) : (s.store k n v).threads = s.threads := rfl
@[simp] theorem State.store_cores {w : Nat} (k n : Nat) (v : BitVec w) : (s.store k n v).cores = s.cores := rfl
@[simp] theorem State.store_dies {w : Nat} (k n : Nat) (v : BitVec w) : (s.store k n v).dies = s.dies := rfl
@[simp] theorem State.store_parts {w : Nat} (k n : Nat) (v : BitVec w) : (s.store k n v).parts = s.parts := rfl
@[simp] theorem State.store_launches {w : Nat} (k n : Nat) (v : BitVec w) : (s.store k n v).launches = s.launches := rfl
@[simp] theorem State.store_groups {w : Nat} (k n : Nat) (v : BitVec w) : (s.store k n v).groups = s.groups := rfl
@[simp] theorem State.store_reqs {w : Nat} (k n : Nat) (v : BitVec w) : (s.store k n v).reqs = s.reqs := rfl
@[simp] theorem State.store_stackPort {w : Nat} (k n : Nat) (v : BitVec w) : (s.store k n v).stackPort = s.stackPort := rfl
@[simp] theorem State.store_parked {w : Nat} (k n : Nat) (v : BitVec w) : (s.store k n v).parked = s.parked := rfl
@[simp] theorem State.store_moves {w : Nat} (k n : Nat) (v : BitVec w) : (s.store k n v).moves = s.moves := rfl
@[simp] theorem State.store_funcs {w : Nat} (k n : Nat) (v : BitVec w) : (s.store k n v).funcs = s.funcs := rfl
@[simp] theorem State.store_cmds {w : Nat} (k n : Nat) (v : BitVec w) : (s.store k n v).cmds = s.cmds := rfl
@[simp] theorem State.store_hostHeld {w : Nat} (k n : Nat) (v : BitVec w) : (s.store k n v).hostHeld = s.hostHeld := rfl
@[simp] theorem State.store_hostReplies {w : Nat} (k n : Nat) (v : BitVec w) : (s.store k n v).hostReplies = s.hostReplies := rfl
@[simp] theorem State.store_mailbox {w : Nat} (k n : Nat) (v : BitVec w) : (s.store k n v).mailbox = s.mailbox := rfl
@[simp] theorem State.store_mgmt {w : Nat} (k n : Nat) (v : BitVec w) : (s.store k n v).mgmt = s.mgmt := rfl
@[simp] theorem State.store_io {w : Nat} (k n : Nat) (v : BitVec w) : (s.store k n v).io = s.io := rfl
@[simp] theorem State.store_kaolin {w : Nat} (k n : Nat) (v : BitVec w) : (s.store k n v).kaolin = s.kaolin := rfl
@[simp] theorem State.store_dz {w : Nat} (k n : Nat) (v : BitVec w) : (s.store k n v).dz = s.dz := rfl
@[simp] theorem State.store_flights {w : Nat} (k n : Nat) (v : BitVec w) : (s.store k n v).flights = s.flights := rfl
@[simp] theorem State.store_touched {w : Nat} (k n : Nat) (v : BitVec w) : (s.store k n v).touched = s.touched := rfl
@[simp] theorem State.store_traps {w : Nat} (k n : Nat) (v : BitVec w) : (s.store k n v).traps = s.traps := rfl
@[simp] theorem State.store_frecs {w : Nat} (k n : Nat) (v : BitVec w) : (s.store k n v).frecs = s.frecs := rfl
@[simp] theorem State.store_reports {w : Nat} (k n : Nat) (v : BitVec w) : (s.store k n v).reports = s.reports := rfl
@[simp] theorem State.store_saved {w : Nat} (k n : Nat) (v : BitVec w) : (s.store k n v).saved = s.saved := rfl
@[simp] theorem State.store_archive {w : Nat} (k n : Nat) (v : BitVec w) : (s.store k n v).archive = s.archive := rfl
@[simp] theorem State.store_agenda {w : Nat} (k n : Nat) (v : BitVec w) : (s.store k n v).agenda = s.agenda := rfl
@[simp] theorem State.store_free {w : Nat} (k n : Nat) (v : BitVec w) : (s.store k n v).free = s.free := rfl
@[simp] theorem State.store_nextId {w : Nat} (k n : Nat) (v : BitVec w) : (s.store k n v).nextId = s.nextId := rfl

@[simp] theorem State.clear_me (k n : Nat) : (s.clear k n).me = s.me := rfl
@[simp] theorem State.clear_pre (k n : Nat) : (s.clear k n).pre = s.pre := rfl
@[simp] theorem State.clear_bun (k n : Nat) : (s.clear k n).bun = s.bun := rfl
@[simp] theorem State.clear_mem0 (k n : Nat) : (s.clear k n).mem0 = s.mem0 := rfl
@[simp] theorem State.clear_late (k n : Nat) : (s.clear k n).late = s.late := rfl
@[simp] theorem State.clear_msgs (k n : Nat) : (s.clear k n).msgs = s.msgs := rfl
@[simp] theorem State.clear_lineKeys (k n : Nat) : (s.clear k n).lineKeys = s.lineKeys := rfl
@[simp] theorem State.clear_views (k n : Nat) : (s.clear k n).views = s.views := rfl
@[simp] theorem State.clear_scLog (k n : Nat) : (s.clear k n).scLog = s.scLog := rfl
@[simp] theorem State.clear_tick (k n : Nat) : (s.clear k n).tick = s.tick := rfl
@[simp] theorem State.clear_wall (k n : Nat) : (s.clear k n).wall = s.wall := rfl
@[simp] theorem State.clear_slots (k n : Nat) : (s.clear k n).slots = s.slots := rfl
@[simp] theorem State.clear_threads (k n : Nat) : (s.clear k n).threads = s.threads := rfl
@[simp] theorem State.clear_cores (k n : Nat) : (s.clear k n).cores = s.cores := rfl
@[simp] theorem State.clear_dies (k n : Nat) : (s.clear k n).dies = s.dies := rfl
@[simp] theorem State.clear_parts (k n : Nat) : (s.clear k n).parts = s.parts := rfl
@[simp] theorem State.clear_launches (k n : Nat) : (s.clear k n).launches = s.launches := rfl
@[simp] theorem State.clear_groups (k n : Nat) : (s.clear k n).groups = s.groups := rfl
@[simp] theorem State.clear_reqs (k n : Nat) : (s.clear k n).reqs = s.reqs := rfl
@[simp] theorem State.clear_stackPort (k n : Nat) : (s.clear k n).stackPort = s.stackPort := rfl
@[simp] theorem State.clear_parked (k n : Nat) : (s.clear k n).parked = s.parked := rfl
@[simp] theorem State.clear_moves (k n : Nat) : (s.clear k n).moves = s.moves := rfl
@[simp] theorem State.clear_funcs (k n : Nat) : (s.clear k n).funcs = s.funcs := rfl
@[simp] theorem State.clear_cmds (k n : Nat) : (s.clear k n).cmds = s.cmds := rfl
@[simp] theorem State.clear_hostHeld (k n : Nat) : (s.clear k n).hostHeld = s.hostHeld := rfl
@[simp] theorem State.clear_hostReplies (k n : Nat) : (s.clear k n).hostReplies = s.hostReplies := rfl
@[simp] theorem State.clear_mailbox (k n : Nat) : (s.clear k n).mailbox = s.mailbox := rfl
@[simp] theorem State.clear_mgmt (k n : Nat) : (s.clear k n).mgmt = s.mgmt := rfl
@[simp] theorem State.clear_io (k n : Nat) : (s.clear k n).io = s.io := rfl
@[simp] theorem State.clear_kaolin (k n : Nat) : (s.clear k n).kaolin = s.kaolin := rfl
@[simp] theorem State.clear_dz (k n : Nat) : (s.clear k n).dz = s.dz := rfl
@[simp] theorem State.clear_flights (k n : Nat) : (s.clear k n).flights = s.flights := rfl
@[simp] theorem State.clear_touched (k n : Nat) : (s.clear k n).touched = s.touched := rfl
@[simp] theorem State.clear_traps (k n : Nat) : (s.clear k n).traps = s.traps := rfl
@[simp] theorem State.clear_frecs (k n : Nat) : (s.clear k n).frecs = s.frecs := rfl
@[simp] theorem State.clear_reports (k n : Nat) : (s.clear k n).reports = s.reports := rfl
@[simp] theorem State.clear_saved (k n : Nat) : (s.clear k n).saved = s.saved := rfl
@[simp] theorem State.clear_archive (k n : Nat) : (s.clear k n).archive = s.archive := rfl
@[simp] theorem State.clear_agenda (k n : Nat) : (s.clear k n).agenda = s.agenda := rfl
@[simp] theorem State.clear_free (k n : Nat) : (s.clear k n).free = s.free := rfl
@[simp] theorem State.clear_nextId (k n : Nat) : (s.clear k n).nextId = s.nextId := rfl

@[simp] theorem State.splice_me (k n : Nat) (b : List (Nat × Byte)) : (s.splice k n b).me = s.me := rfl
@[simp] theorem State.splice_pre (k n : Nat) (b : List (Nat × Byte)) : (s.splice k n b).pre = s.pre := rfl
@[simp] theorem State.splice_bun (k n : Nat) (b : List (Nat × Byte)) : (s.splice k n b).bun = s.bun := rfl
@[simp] theorem State.splice_mem0 (k n : Nat) (b : List (Nat × Byte)) : (s.splice k n b).mem0 = s.mem0 := rfl
@[simp] theorem State.splice_late (k n : Nat) (b : List (Nat × Byte)) : (s.splice k n b).late = s.late := rfl
@[simp] theorem State.splice_msgs (k n : Nat) (b : List (Nat × Byte)) : (s.splice k n b).msgs = s.msgs := rfl
@[simp] theorem State.splice_lineKeys (k n : Nat) (b : List (Nat × Byte)) : (s.splice k n b).lineKeys = s.lineKeys := rfl
@[simp] theorem State.splice_views (k n : Nat) (b : List (Nat × Byte)) : (s.splice k n b).views = s.views := rfl
@[simp] theorem State.splice_scLog (k n : Nat) (b : List (Nat × Byte)) : (s.splice k n b).scLog = s.scLog := rfl
@[simp] theorem State.splice_tick (k n : Nat) (b : List (Nat × Byte)) : (s.splice k n b).tick = s.tick := rfl
@[simp] theorem State.splice_wall (k n : Nat) (b : List (Nat × Byte)) : (s.splice k n b).wall = s.wall := rfl
@[simp] theorem State.splice_slots (k n : Nat) (b : List (Nat × Byte)) : (s.splice k n b).slots = s.slots := rfl
@[simp] theorem State.splice_threads (k n : Nat) (b : List (Nat × Byte)) : (s.splice k n b).threads = s.threads := rfl
@[simp] theorem State.splice_cores (k n : Nat) (b : List (Nat × Byte)) : (s.splice k n b).cores = s.cores := rfl
@[simp] theorem State.splice_dies (k n : Nat) (b : List (Nat × Byte)) : (s.splice k n b).dies = s.dies := rfl
@[simp] theorem State.splice_parts (k n : Nat) (b : List (Nat × Byte)) : (s.splice k n b).parts = s.parts := rfl
@[simp] theorem State.splice_launches (k n : Nat) (b : List (Nat × Byte)) : (s.splice k n b).launches = s.launches := rfl
@[simp] theorem State.splice_groups (k n : Nat) (b : List (Nat × Byte)) : (s.splice k n b).groups = s.groups := rfl
@[simp] theorem State.splice_reqs (k n : Nat) (b : List (Nat × Byte)) : (s.splice k n b).reqs = s.reqs := rfl
@[simp] theorem State.splice_stackPort (k n : Nat) (b : List (Nat × Byte)) : (s.splice k n b).stackPort = s.stackPort := rfl
@[simp] theorem State.splice_parked (k n : Nat) (b : List (Nat × Byte)) : (s.splice k n b).parked = s.parked := rfl
@[simp] theorem State.splice_moves (k n : Nat) (b : List (Nat × Byte)) : (s.splice k n b).moves = s.moves := rfl
@[simp] theorem State.splice_funcs (k n : Nat) (b : List (Nat × Byte)) : (s.splice k n b).funcs = s.funcs := rfl
@[simp] theorem State.splice_cmds (k n : Nat) (b : List (Nat × Byte)) : (s.splice k n b).cmds = s.cmds := rfl
@[simp] theorem State.splice_hostHeld (k n : Nat) (b : List (Nat × Byte)) : (s.splice k n b).hostHeld = s.hostHeld := rfl
@[simp] theorem State.splice_hostReplies (k n : Nat) (b : List (Nat × Byte)) : (s.splice k n b).hostReplies = s.hostReplies := rfl
@[simp] theorem State.splice_mailbox (k n : Nat) (b : List (Nat × Byte)) : (s.splice k n b).mailbox = s.mailbox := rfl
@[simp] theorem State.splice_mgmt (k n : Nat) (b : List (Nat × Byte)) : (s.splice k n b).mgmt = s.mgmt := rfl
@[simp] theorem State.splice_io (k n : Nat) (b : List (Nat × Byte)) : (s.splice k n b).io = s.io := rfl
@[simp] theorem State.splice_kaolin (k n : Nat) (b : List (Nat × Byte)) : (s.splice k n b).kaolin = s.kaolin := rfl
@[simp] theorem State.splice_dz (k n : Nat) (b : List (Nat × Byte)) : (s.splice k n b).dz = s.dz := rfl
@[simp] theorem State.splice_flights (k n : Nat) (b : List (Nat × Byte)) : (s.splice k n b).flights = s.flights := rfl
@[simp] theorem State.splice_touched (k n : Nat) (b : List (Nat × Byte)) : (s.splice k n b).touched = s.touched := rfl
@[simp] theorem State.splice_traps (k n : Nat) (b : List (Nat × Byte)) : (s.splice k n b).traps = s.traps := rfl
@[simp] theorem State.splice_frecs (k n : Nat) (b : List (Nat × Byte)) : (s.splice k n b).frecs = s.frecs := rfl
@[simp] theorem State.splice_reports (k n : Nat) (b : List (Nat × Byte)) : (s.splice k n b).reports = s.reports := rfl
@[simp] theorem State.splice_saved (k n : Nat) (b : List (Nat × Byte)) : (s.splice k n b).saved = s.saved := rfl
@[simp] theorem State.splice_archive (k n : Nat) (b : List (Nat × Byte)) : (s.splice k n b).archive = s.archive := rfl
@[simp] theorem State.splice_agenda (k n : Nat) (b : List (Nat × Byte)) : (s.splice k n b).agenda = s.agenda := rfl
@[simp] theorem State.splice_free (k n : Nat) (b : List (Nat × Byte)) : (s.splice k n b).free = s.free := rfl
@[simp] theorem State.splice_nextId (k n : Nat) (b : List (Nat × Byte)) : (s.splice k n b).nextId = s.nextId := rfl

@[simp] theorem State.setCore_me (c : Core) : (s.setCore c).me = s.me := rfl
@[simp] theorem State.setCore_pre (c : Core) : (s.setCore c).pre = s.pre := rfl
@[simp] theorem State.setCore_bun (c : Core) : (s.setCore c).bun = s.bun := rfl
@[simp] theorem State.setCore_mem (c : Core) : (s.setCore c).mem = s.mem := rfl
@[simp] theorem State.setCore_mem0 (c : Core) : (s.setCore c).mem0 = s.mem0 := rfl
@[simp] theorem State.setCore_ecc (c : Core) : (s.setCore c).ecc = s.ecc := rfl
@[simp] theorem State.setCore_late (c : Core) : (s.setCore c).late = s.late := rfl
@[simp] theorem State.setCore_msgs (c : Core) : (s.setCore c).msgs = s.msgs := rfl
@[simp] theorem State.setCore_lineKeys (c : Core) : (s.setCore c).lineKeys = s.lineKeys := rfl
@[simp] theorem State.setCore_views (c : Core) : (s.setCore c).views = s.views := rfl
@[simp] theorem State.setCore_scLog (c : Core) : (s.setCore c).scLog = s.scLog := rfl
@[simp] theorem State.setCore_tick (c : Core) : (s.setCore c).tick = s.tick := rfl
@[simp] theorem State.setCore_wall (c : Core) : (s.setCore c).wall = s.wall := rfl
@[simp] theorem State.setCore_slots (c : Core) : (s.setCore c).slots = s.slots := rfl
@[simp] theorem State.setCore_threads (c : Core) : (s.setCore c).threads = s.threads := rfl
@[simp] theorem State.setCore_dies (c : Core) : (s.setCore c).dies = s.dies := rfl
@[simp] theorem State.setCore_parts (c : Core) : (s.setCore c).parts = s.parts := rfl
@[simp] theorem State.setCore_launches (c : Core) : (s.setCore c).launches = s.launches := rfl
@[simp] theorem State.setCore_groups (c : Core) : (s.setCore c).groups = s.groups := rfl
@[simp] theorem State.setCore_reqs (c : Core) : (s.setCore c).reqs = s.reqs := rfl
@[simp] theorem State.setCore_stackPort (c : Core) : (s.setCore c).stackPort = s.stackPort := rfl
@[simp] theorem State.setCore_parked (c : Core) : (s.setCore c).parked = s.parked := rfl
@[simp] theorem State.setCore_moves (c : Core) : (s.setCore c).moves = s.moves := rfl
@[simp] theorem State.setCore_funcs (c : Core) : (s.setCore c).funcs = s.funcs := rfl
@[simp] theorem State.setCore_cmds (c : Core) : (s.setCore c).cmds = s.cmds := rfl
@[simp] theorem State.setCore_hostHeld (c : Core) : (s.setCore c).hostHeld = s.hostHeld := rfl
@[simp] theorem State.setCore_hostReplies (c : Core) : (s.setCore c).hostReplies = s.hostReplies := rfl
@[simp] theorem State.setCore_mailbox (c : Core) : (s.setCore c).mailbox = s.mailbox := rfl
@[simp] theorem State.setCore_mgmt (c : Core) : (s.setCore c).mgmt = s.mgmt := rfl
@[simp] theorem State.setCore_io (c : Core) : (s.setCore c).io = s.io := rfl
@[simp] theorem State.setCore_kaolin (c : Core) : (s.setCore c).kaolin = s.kaolin := rfl
@[simp] theorem State.setCore_dz (c : Core) : (s.setCore c).dz = s.dz := rfl
@[simp] theorem State.setCore_flights (c : Core) : (s.setCore c).flights = s.flights := rfl
@[simp] theorem State.setCore_touched (c : Core) : (s.setCore c).touched = s.touched := rfl
@[simp] theorem State.setCore_traps (c : Core) : (s.setCore c).traps = s.traps := rfl
@[simp] theorem State.setCore_frecs (c : Core) : (s.setCore c).frecs = s.frecs := rfl
@[simp] theorem State.setCore_reports (c : Core) : (s.setCore c).reports = s.reports := rfl
@[simp] theorem State.setCore_saved (c : Core) : (s.setCore c).saved = s.saved := rfl
@[simp] theorem State.setCore_archive (c : Core) : (s.setCore c).archive = s.archive := rfl
@[simp] theorem State.setCore_agenda (c : Core) : (s.setCore c).agenda = s.agenda := rfl
@[simp] theorem State.setCore_free (c : Core) : (s.setCore c).free = s.free := rfl
@[simp] theorem State.setCore_nextId (c : Core) : (s.setCore c).nextId = s.nextId := rfl

@[simp] theorem State.onCore_me (d c : Nat) (f : Core → Core) : (s.onCore d c f).me = s.me := rfl
@[simp] theorem State.onCore_pre (d c : Nat) (f : Core → Core) : (s.onCore d c f).pre = s.pre := rfl
@[simp] theorem State.onCore_bun (d c : Nat) (f : Core → Core) : (s.onCore d c f).bun = s.bun := rfl
@[simp] theorem State.onCore_mem (d c : Nat) (f : Core → Core) : (s.onCore d c f).mem = s.mem := rfl
@[simp] theorem State.onCore_mem0 (d c : Nat) (f : Core → Core) : (s.onCore d c f).mem0 = s.mem0 := rfl
@[simp] theorem State.onCore_ecc (d c : Nat) (f : Core → Core) : (s.onCore d c f).ecc = s.ecc := rfl
@[simp] theorem State.onCore_late (d c : Nat) (f : Core → Core) : (s.onCore d c f).late = s.late := rfl
@[simp] theorem State.onCore_msgs (d c : Nat) (f : Core → Core) : (s.onCore d c f).msgs = s.msgs := rfl
@[simp] theorem State.onCore_lineKeys (d c : Nat) (f : Core → Core) : (s.onCore d c f).lineKeys = s.lineKeys := rfl
@[simp] theorem State.onCore_views (d c : Nat) (f : Core → Core) : (s.onCore d c f).views = s.views := rfl
@[simp] theorem State.onCore_scLog (d c : Nat) (f : Core → Core) : (s.onCore d c f).scLog = s.scLog := rfl
@[simp] theorem State.onCore_tick (d c : Nat) (f : Core → Core) : (s.onCore d c f).tick = s.tick := rfl
@[simp] theorem State.onCore_wall (d c : Nat) (f : Core → Core) : (s.onCore d c f).wall = s.wall := rfl
@[simp] theorem State.onCore_slots (d c : Nat) (f : Core → Core) : (s.onCore d c f).slots = s.slots := rfl
@[simp] theorem State.onCore_threads (d c : Nat) (f : Core → Core) : (s.onCore d c f).threads = s.threads := rfl
@[simp] theorem State.onCore_dies (d c : Nat) (f : Core → Core) : (s.onCore d c f).dies = s.dies := rfl
@[simp] theorem State.onCore_parts (d c : Nat) (f : Core → Core) : (s.onCore d c f).parts = s.parts := rfl
@[simp] theorem State.onCore_launches (d c : Nat) (f : Core → Core) : (s.onCore d c f).launches = s.launches := rfl
@[simp] theorem State.onCore_groups (d c : Nat) (f : Core → Core) : (s.onCore d c f).groups = s.groups := rfl
@[simp] theorem State.onCore_reqs (d c : Nat) (f : Core → Core) : (s.onCore d c f).reqs = s.reqs := rfl
@[simp] theorem State.onCore_stackPort (d c : Nat) (f : Core → Core) : (s.onCore d c f).stackPort = s.stackPort := rfl
@[simp] theorem State.onCore_parked (d c : Nat) (f : Core → Core) : (s.onCore d c f).parked = s.parked := rfl
@[simp] theorem State.onCore_moves (d c : Nat) (f : Core → Core) : (s.onCore d c f).moves = s.moves := rfl
@[simp] theorem State.onCore_funcs (d c : Nat) (f : Core → Core) : (s.onCore d c f).funcs = s.funcs := rfl
@[simp] theorem State.onCore_cmds (d c : Nat) (f : Core → Core) : (s.onCore d c f).cmds = s.cmds := rfl
@[simp] theorem State.onCore_hostHeld (d c : Nat) (f : Core → Core) : (s.onCore d c f).hostHeld = s.hostHeld := rfl
@[simp] theorem State.onCore_hostReplies (d c : Nat) (f : Core → Core) : (s.onCore d c f).hostReplies = s.hostReplies := rfl
@[simp] theorem State.onCore_mailbox (d c : Nat) (f : Core → Core) : (s.onCore d c f).mailbox = s.mailbox := rfl
@[simp] theorem State.onCore_mgmt (d c : Nat) (f : Core → Core) : (s.onCore d c f).mgmt = s.mgmt := rfl
@[simp] theorem State.onCore_io (d c : Nat) (f : Core → Core) : (s.onCore d c f).io = s.io := rfl
@[simp] theorem State.onCore_kaolin (d c : Nat) (f : Core → Core) : (s.onCore d c f).kaolin = s.kaolin := rfl
@[simp] theorem State.onCore_dz (d c : Nat) (f : Core → Core) : (s.onCore d c f).dz = s.dz := rfl
@[simp] theorem State.onCore_flights (d c : Nat) (f : Core → Core) : (s.onCore d c f).flights = s.flights := rfl
@[simp] theorem State.onCore_touched (d c : Nat) (f : Core → Core) : (s.onCore d c f).touched = s.touched := rfl
@[simp] theorem State.onCore_traps (d c : Nat) (f : Core → Core) : (s.onCore d c f).traps = s.traps := rfl
@[simp] theorem State.onCore_frecs (d c : Nat) (f : Core → Core) : (s.onCore d c f).frecs = s.frecs := rfl
@[simp] theorem State.onCore_reports (d c : Nat) (f : Core → Core) : (s.onCore d c f).reports = s.reports := rfl
@[simp] theorem State.onCore_saved (d c : Nat) (f : Core → Core) : (s.onCore d c f).saved = s.saved := rfl
@[simp] theorem State.onCore_archive (d c : Nat) (f : Core → Core) : (s.onCore d c f).archive = s.archive := rfl
@[simp] theorem State.onCore_agenda (d c : Nat) (f : Core → Core) : (s.onCore d c f).agenda = s.agenda := rfl
@[simp] theorem State.onCore_free (d c : Nat) (f : Core → Core) : (s.onCore d c f).free = s.free := rfl
@[simp] theorem State.onCore_nextId (d c : Nat) (f : Core → Core) : (s.onCore d c f).nextId = s.nextId := rfl

@[simp] theorem State.setDie_me (d : Die) : (s.setDie d).me = s.me := rfl
@[simp] theorem State.setDie_pre (d : Die) : (s.setDie d).pre = s.pre := rfl
@[simp] theorem State.setDie_bun (d : Die) : (s.setDie d).bun = s.bun := rfl
@[simp] theorem State.setDie_mem (d : Die) : (s.setDie d).mem = s.mem := rfl
@[simp] theorem State.setDie_mem0 (d : Die) : (s.setDie d).mem0 = s.mem0 := rfl
@[simp] theorem State.setDie_ecc (d : Die) : (s.setDie d).ecc = s.ecc := rfl
@[simp] theorem State.setDie_late (d : Die) : (s.setDie d).late = s.late := rfl
@[simp] theorem State.setDie_msgs (d : Die) : (s.setDie d).msgs = s.msgs := rfl
@[simp] theorem State.setDie_lineKeys (d : Die) : (s.setDie d).lineKeys = s.lineKeys := rfl
@[simp] theorem State.setDie_views (d : Die) : (s.setDie d).views = s.views := rfl
@[simp] theorem State.setDie_scLog (d : Die) : (s.setDie d).scLog = s.scLog := rfl
@[simp] theorem State.setDie_tick (d : Die) : (s.setDie d).tick = s.tick := rfl
@[simp] theorem State.setDie_wall (d : Die) : (s.setDie d).wall = s.wall := rfl
@[simp] theorem State.setDie_slots (d : Die) : (s.setDie d).slots = s.slots := rfl
@[simp] theorem State.setDie_threads (d : Die) : (s.setDie d).threads = s.threads := rfl
@[simp] theorem State.setDie_cores (d : Die) : (s.setDie d).cores = s.cores := rfl
@[simp] theorem State.setDie_parts (d : Die) : (s.setDie d).parts = s.parts := rfl
@[simp] theorem State.setDie_launches (d : Die) : (s.setDie d).launches = s.launches := rfl
@[simp] theorem State.setDie_groups (d : Die) : (s.setDie d).groups = s.groups := rfl
@[simp] theorem State.setDie_reqs (d : Die) : (s.setDie d).reqs = s.reqs := rfl
@[simp] theorem State.setDie_stackPort (d : Die) : (s.setDie d).stackPort = s.stackPort := rfl
@[simp] theorem State.setDie_parked (d : Die) : (s.setDie d).parked = s.parked := rfl
@[simp] theorem State.setDie_moves (d : Die) : (s.setDie d).moves = s.moves := rfl
@[simp] theorem State.setDie_funcs (d : Die) : (s.setDie d).funcs = s.funcs := rfl
@[simp] theorem State.setDie_cmds (d : Die) : (s.setDie d).cmds = s.cmds := rfl
@[simp] theorem State.setDie_hostHeld (d : Die) : (s.setDie d).hostHeld = s.hostHeld := rfl
@[simp] theorem State.setDie_hostReplies (d : Die) : (s.setDie d).hostReplies = s.hostReplies := rfl
@[simp] theorem State.setDie_mailbox (d : Die) : (s.setDie d).mailbox = s.mailbox := rfl
@[simp] theorem State.setDie_mgmt (d : Die) : (s.setDie d).mgmt = s.mgmt := rfl
@[simp] theorem State.setDie_io (d : Die) : (s.setDie d).io = s.io := rfl
@[simp] theorem State.setDie_kaolin (d : Die) : (s.setDie d).kaolin = s.kaolin := rfl
@[simp] theorem State.setDie_dz (d : Die) : (s.setDie d).dz = s.dz := rfl
@[simp] theorem State.setDie_flights (d : Die) : (s.setDie d).flights = s.flights := rfl
@[simp] theorem State.setDie_touched (d : Die) : (s.setDie d).touched = s.touched := rfl
@[simp] theorem State.setDie_traps (d : Die) : (s.setDie d).traps = s.traps := rfl
@[simp] theorem State.setDie_frecs (d : Die) : (s.setDie d).frecs = s.frecs := rfl
@[simp] theorem State.setDie_reports (d : Die) : (s.setDie d).reports = s.reports := rfl
@[simp] theorem State.setDie_saved (d : Die) : (s.setDie d).saved = s.saved := rfl
@[simp] theorem State.setDie_archive (d : Die) : (s.setDie d).archive = s.archive := rfl
@[simp] theorem State.setDie_agenda (d : Die) : (s.setDie d).agenda = s.agenda := rfl
@[simp] theorem State.setDie_free (d : Die) : (s.setDie d).free = s.free := rfl
@[simp] theorem State.setDie_nextId (d : Die) : (s.setDie d).nextId = s.nextId := rfl

@[simp] theorem State.onDie_me (d : Nat) (f : Die → Die) : (s.onDie d f).me = s.me := rfl
@[simp] theorem State.onDie_pre (d : Nat) (f : Die → Die) : (s.onDie d f).pre = s.pre := rfl
@[simp] theorem State.onDie_bun (d : Nat) (f : Die → Die) : (s.onDie d f).bun = s.bun := rfl
@[simp] theorem State.onDie_mem (d : Nat) (f : Die → Die) : (s.onDie d f).mem = s.mem := rfl
@[simp] theorem State.onDie_mem0 (d : Nat) (f : Die → Die) : (s.onDie d f).mem0 = s.mem0 := rfl
@[simp] theorem State.onDie_ecc (d : Nat) (f : Die → Die) : (s.onDie d f).ecc = s.ecc := rfl
@[simp] theorem State.onDie_late (d : Nat) (f : Die → Die) : (s.onDie d f).late = s.late := rfl
@[simp] theorem State.onDie_msgs (d : Nat) (f : Die → Die) : (s.onDie d f).msgs = s.msgs := rfl
@[simp] theorem State.onDie_lineKeys (d : Nat) (f : Die → Die) : (s.onDie d f).lineKeys = s.lineKeys := rfl
@[simp] theorem State.onDie_views (d : Nat) (f : Die → Die) : (s.onDie d f).views = s.views := rfl
@[simp] theorem State.onDie_scLog (d : Nat) (f : Die → Die) : (s.onDie d f).scLog = s.scLog := rfl
@[simp] theorem State.onDie_tick (d : Nat) (f : Die → Die) : (s.onDie d f).tick = s.tick := rfl
@[simp] theorem State.onDie_wall (d : Nat) (f : Die → Die) : (s.onDie d f).wall = s.wall := rfl
@[simp] theorem State.onDie_slots (d : Nat) (f : Die → Die) : (s.onDie d f).slots = s.slots := rfl
@[simp] theorem State.onDie_threads (d : Nat) (f : Die → Die) : (s.onDie d f).threads = s.threads := rfl
@[simp] theorem State.onDie_cores (d : Nat) (f : Die → Die) : (s.onDie d f).cores = s.cores := rfl
@[simp] theorem State.onDie_parts (d : Nat) (f : Die → Die) : (s.onDie d f).parts = s.parts := rfl
@[simp] theorem State.onDie_launches (d : Nat) (f : Die → Die) : (s.onDie d f).launches = s.launches := rfl
@[simp] theorem State.onDie_groups (d : Nat) (f : Die → Die) : (s.onDie d f).groups = s.groups := rfl
@[simp] theorem State.onDie_reqs (d : Nat) (f : Die → Die) : (s.onDie d f).reqs = s.reqs := rfl
@[simp] theorem State.onDie_stackPort (d : Nat) (f : Die → Die) : (s.onDie d f).stackPort = s.stackPort := rfl
@[simp] theorem State.onDie_parked (d : Nat) (f : Die → Die) : (s.onDie d f).parked = s.parked := rfl
@[simp] theorem State.onDie_moves (d : Nat) (f : Die → Die) : (s.onDie d f).moves = s.moves := rfl
@[simp] theorem State.onDie_funcs (d : Nat) (f : Die → Die) : (s.onDie d f).funcs = s.funcs := rfl
@[simp] theorem State.onDie_cmds (d : Nat) (f : Die → Die) : (s.onDie d f).cmds = s.cmds := rfl
@[simp] theorem State.onDie_hostHeld (d : Nat) (f : Die → Die) : (s.onDie d f).hostHeld = s.hostHeld := rfl
@[simp] theorem State.onDie_hostReplies (d : Nat) (f : Die → Die) : (s.onDie d f).hostReplies = s.hostReplies := rfl
@[simp] theorem State.onDie_mailbox (d : Nat) (f : Die → Die) : (s.onDie d f).mailbox = s.mailbox := rfl
@[simp] theorem State.onDie_mgmt (d : Nat) (f : Die → Die) : (s.onDie d f).mgmt = s.mgmt := rfl
@[simp] theorem State.onDie_io (d : Nat) (f : Die → Die) : (s.onDie d f).io = s.io := rfl
@[simp] theorem State.onDie_kaolin (d : Nat) (f : Die → Die) : (s.onDie d f).kaolin = s.kaolin := rfl
@[simp] theorem State.onDie_dz (d : Nat) (f : Die → Die) : (s.onDie d f).dz = s.dz := rfl
@[simp] theorem State.onDie_flights (d : Nat) (f : Die → Die) : (s.onDie d f).flights = s.flights := rfl
@[simp] theorem State.onDie_touched (d : Nat) (f : Die → Die) : (s.onDie d f).touched = s.touched := rfl
@[simp] theorem State.onDie_traps (d : Nat) (f : Die → Die) : (s.onDie d f).traps = s.traps := rfl
@[simp] theorem State.onDie_frecs (d : Nat) (f : Die → Die) : (s.onDie d f).frecs = s.frecs := rfl
@[simp] theorem State.onDie_reports (d : Nat) (f : Die → Die) : (s.onDie d f).reports = s.reports := rfl
@[simp] theorem State.onDie_saved (d : Nat) (f : Die → Die) : (s.onDie d f).saved = s.saved := rfl
@[simp] theorem State.onDie_archive (d : Nat) (f : Die → Die) : (s.onDie d f).archive = s.archive := rfl
@[simp] theorem State.onDie_agenda (d : Nat) (f : Die → Die) : (s.onDie d f).agenda = s.agenda := rfl
@[simp] theorem State.onDie_free (d : Nat) (f : Die → Die) : (s.onDie d f).free = s.free := rfl
@[simp] theorem State.onDie_nextId (d : Nat) (f : Die → Die) : (s.onDie d f).nextId = s.nextId := rfl

@[simp] theorem State.setPart_me (p : Partition) : (s.setPart p).me = s.me := rfl
@[simp] theorem State.setPart_pre (p : Partition) : (s.setPart p).pre = s.pre := rfl
@[simp] theorem State.setPart_bun (p : Partition) : (s.setPart p).bun = s.bun := rfl
@[simp] theorem State.setPart_mem (p : Partition) : (s.setPart p).mem = s.mem := rfl
@[simp] theorem State.setPart_mem0 (p : Partition) : (s.setPart p).mem0 = s.mem0 := rfl
@[simp] theorem State.setPart_ecc (p : Partition) : (s.setPart p).ecc = s.ecc := rfl
@[simp] theorem State.setPart_late (p : Partition) : (s.setPart p).late = s.late := rfl
@[simp] theorem State.setPart_msgs (p : Partition) : (s.setPart p).msgs = s.msgs := rfl
@[simp] theorem State.setPart_lineKeys (p : Partition) : (s.setPart p).lineKeys = s.lineKeys := rfl
@[simp] theorem State.setPart_views (p : Partition) : (s.setPart p).views = s.views := rfl
@[simp] theorem State.setPart_scLog (p : Partition) : (s.setPart p).scLog = s.scLog := rfl
@[simp] theorem State.setPart_tick (p : Partition) : (s.setPart p).tick = s.tick := rfl
@[simp] theorem State.setPart_wall (p : Partition) : (s.setPart p).wall = s.wall := rfl
@[simp] theorem State.setPart_slots (p : Partition) : (s.setPart p).slots = s.slots := rfl
@[simp] theorem State.setPart_threads (p : Partition) : (s.setPart p).threads = s.threads := rfl
@[simp] theorem State.setPart_cores (p : Partition) : (s.setPart p).cores = s.cores := rfl
@[simp] theorem State.setPart_dies (p : Partition) : (s.setPart p).dies = s.dies := rfl
@[simp] theorem State.setPart_launches (p : Partition) : (s.setPart p).launches = s.launches := rfl
@[simp] theorem State.setPart_groups (p : Partition) : (s.setPart p).groups = s.groups := rfl
@[simp] theorem State.setPart_reqs (p : Partition) : (s.setPart p).reqs = s.reqs := rfl
@[simp] theorem State.setPart_stackPort (p : Partition) : (s.setPart p).stackPort = s.stackPort := rfl
@[simp] theorem State.setPart_parked (p : Partition) : (s.setPart p).parked = s.parked := rfl
@[simp] theorem State.setPart_moves (p : Partition) : (s.setPart p).moves = s.moves := rfl
@[simp] theorem State.setPart_funcs (p : Partition) : (s.setPart p).funcs = s.funcs := rfl
@[simp] theorem State.setPart_cmds (p : Partition) : (s.setPart p).cmds = s.cmds := rfl
@[simp] theorem State.setPart_hostHeld (p : Partition) : (s.setPart p).hostHeld = s.hostHeld := rfl
@[simp] theorem State.setPart_hostReplies (p : Partition) : (s.setPart p).hostReplies = s.hostReplies := rfl
@[simp] theorem State.setPart_mailbox (p : Partition) : (s.setPart p).mailbox = s.mailbox := rfl
@[simp] theorem State.setPart_mgmt (p : Partition) : (s.setPart p).mgmt = s.mgmt := rfl
@[simp] theorem State.setPart_io (p : Partition) : (s.setPart p).io = s.io := rfl
@[simp] theorem State.setPart_kaolin (p : Partition) : (s.setPart p).kaolin = s.kaolin := rfl
@[simp] theorem State.setPart_dz (p : Partition) : (s.setPart p).dz = s.dz := rfl
@[simp] theorem State.setPart_flights (p : Partition) : (s.setPart p).flights = s.flights := rfl
@[simp] theorem State.setPart_touched (p : Partition) : (s.setPart p).touched = s.touched := rfl
@[simp] theorem State.setPart_traps (p : Partition) : (s.setPart p).traps = s.traps := rfl
@[simp] theorem State.setPart_frecs (p : Partition) : (s.setPart p).frecs = s.frecs := rfl
@[simp] theorem State.setPart_reports (p : Partition) : (s.setPart p).reports = s.reports := rfl
@[simp] theorem State.setPart_saved (p : Partition) : (s.setPart p).saved = s.saved := rfl
@[simp] theorem State.setPart_archive (p : Partition) : (s.setPart p).archive = s.archive := rfl
@[simp] theorem State.setPart_agenda (p : Partition) : (s.setPart p).agenda = s.agenda := rfl
@[simp] theorem State.setPart_free (p : Partition) : (s.setPart p).free = s.free := rfl
@[simp] theorem State.setPart_nextId (p : Partition) : (s.setPart p).nextId = s.nextId := rfl

@[simp] theorem State.setLaunch_me (l : Launch) : (s.setLaunch l).me = s.me := rfl
@[simp] theorem State.setLaunch_pre (l : Launch) : (s.setLaunch l).pre = s.pre := rfl
@[simp] theorem State.setLaunch_bun (l : Launch) : (s.setLaunch l).bun = s.bun := rfl
@[simp] theorem State.setLaunch_mem (l : Launch) : (s.setLaunch l).mem = s.mem := rfl
@[simp] theorem State.setLaunch_mem0 (l : Launch) : (s.setLaunch l).mem0 = s.mem0 := rfl
@[simp] theorem State.setLaunch_ecc (l : Launch) : (s.setLaunch l).ecc = s.ecc := rfl
@[simp] theorem State.setLaunch_late (l : Launch) : (s.setLaunch l).late = s.late := rfl
@[simp] theorem State.setLaunch_msgs (l : Launch) : (s.setLaunch l).msgs = s.msgs := rfl
@[simp] theorem State.setLaunch_lineKeys (l : Launch) : (s.setLaunch l).lineKeys = s.lineKeys := rfl
@[simp] theorem State.setLaunch_views (l : Launch) : (s.setLaunch l).views = s.views := rfl
@[simp] theorem State.setLaunch_scLog (l : Launch) : (s.setLaunch l).scLog = s.scLog := rfl
@[simp] theorem State.setLaunch_tick (l : Launch) : (s.setLaunch l).tick = s.tick := rfl
@[simp] theorem State.setLaunch_wall (l : Launch) : (s.setLaunch l).wall = s.wall := rfl
@[simp] theorem State.setLaunch_slots (l : Launch) : (s.setLaunch l).slots = s.slots := rfl
@[simp] theorem State.setLaunch_threads (l : Launch) : (s.setLaunch l).threads = s.threads := rfl
@[simp] theorem State.setLaunch_cores (l : Launch) : (s.setLaunch l).cores = s.cores := rfl
@[simp] theorem State.setLaunch_dies (l : Launch) : (s.setLaunch l).dies = s.dies := rfl
@[simp] theorem State.setLaunch_parts (l : Launch) : (s.setLaunch l).parts = s.parts := rfl
@[simp] theorem State.setLaunch_groups (l : Launch) : (s.setLaunch l).groups = s.groups := rfl
@[simp] theorem State.setLaunch_reqs (l : Launch) : (s.setLaunch l).reqs = s.reqs := rfl
@[simp] theorem State.setLaunch_stackPort (l : Launch) : (s.setLaunch l).stackPort = s.stackPort := rfl
@[simp] theorem State.setLaunch_parked (l : Launch) : (s.setLaunch l).parked = s.parked := rfl
@[simp] theorem State.setLaunch_moves (l : Launch) : (s.setLaunch l).moves = s.moves := rfl
@[simp] theorem State.setLaunch_funcs (l : Launch) : (s.setLaunch l).funcs = s.funcs := rfl
@[simp] theorem State.setLaunch_cmds (l : Launch) : (s.setLaunch l).cmds = s.cmds := rfl
@[simp] theorem State.setLaunch_hostHeld (l : Launch) : (s.setLaunch l).hostHeld = s.hostHeld := rfl
@[simp] theorem State.setLaunch_hostReplies (l : Launch) : (s.setLaunch l).hostReplies = s.hostReplies := rfl
@[simp] theorem State.setLaunch_mailbox (l : Launch) : (s.setLaunch l).mailbox = s.mailbox := rfl
@[simp] theorem State.setLaunch_mgmt (l : Launch) : (s.setLaunch l).mgmt = s.mgmt := rfl
@[simp] theorem State.setLaunch_io (l : Launch) : (s.setLaunch l).io = s.io := rfl
@[simp] theorem State.setLaunch_kaolin (l : Launch) : (s.setLaunch l).kaolin = s.kaolin := rfl
@[simp] theorem State.setLaunch_dz (l : Launch) : (s.setLaunch l).dz = s.dz := rfl
@[simp] theorem State.setLaunch_flights (l : Launch) : (s.setLaunch l).flights = s.flights := rfl
@[simp] theorem State.setLaunch_touched (l : Launch) : (s.setLaunch l).touched = s.touched := rfl
@[simp] theorem State.setLaunch_traps (l : Launch) : (s.setLaunch l).traps = s.traps := rfl
@[simp] theorem State.setLaunch_frecs (l : Launch) : (s.setLaunch l).frecs = s.frecs := rfl
@[simp] theorem State.setLaunch_reports (l : Launch) : (s.setLaunch l).reports = s.reports := rfl
@[simp] theorem State.setLaunch_saved (l : Launch) : (s.setLaunch l).saved = s.saved := rfl
@[simp] theorem State.setLaunch_archive (l : Launch) : (s.setLaunch l).archive = s.archive := rfl
@[simp] theorem State.setLaunch_agenda (l : Launch) : (s.setLaunch l).agenda = s.agenda := rfl
@[simp] theorem State.setLaunch_free (l : Launch) : (s.setLaunch l).free = s.free := rfl
@[simp] theorem State.setLaunch_nextId (l : Launch) : (s.setLaunch l).nextId = s.nextId := rfl

@[simp] theorem State.setReq_me (r : Req) : (s.setReq r).me = s.me := rfl
@[simp] theorem State.setReq_pre (r : Req) : (s.setReq r).pre = s.pre := rfl
@[simp] theorem State.setReq_bun (r : Req) : (s.setReq r).bun = s.bun := rfl
@[simp] theorem State.setReq_mem (r : Req) : (s.setReq r).mem = s.mem := rfl
@[simp] theorem State.setReq_mem0 (r : Req) : (s.setReq r).mem0 = s.mem0 := rfl
@[simp] theorem State.setReq_ecc (r : Req) : (s.setReq r).ecc = s.ecc := rfl
@[simp] theorem State.setReq_late (r : Req) : (s.setReq r).late = s.late := rfl
@[simp] theorem State.setReq_msgs (r : Req) : (s.setReq r).msgs = s.msgs := rfl
@[simp] theorem State.setReq_lineKeys (r : Req) : (s.setReq r).lineKeys = s.lineKeys := rfl
@[simp] theorem State.setReq_views (r : Req) : (s.setReq r).views = s.views := rfl
@[simp] theorem State.setReq_scLog (r : Req) : (s.setReq r).scLog = s.scLog := rfl
@[simp] theorem State.setReq_tick (r : Req) : (s.setReq r).tick = s.tick := rfl
@[simp] theorem State.setReq_wall (r : Req) : (s.setReq r).wall = s.wall := rfl
@[simp] theorem State.setReq_slots (r : Req) : (s.setReq r).slots = s.slots := rfl
@[simp] theorem State.setReq_threads (r : Req) : (s.setReq r).threads = s.threads := rfl
@[simp] theorem State.setReq_cores (r : Req) : (s.setReq r).cores = s.cores := rfl
@[simp] theorem State.setReq_dies (r : Req) : (s.setReq r).dies = s.dies := rfl
@[simp] theorem State.setReq_parts (r : Req) : (s.setReq r).parts = s.parts := rfl
@[simp] theorem State.setReq_launches (r : Req) : (s.setReq r).launches = s.launches := rfl
@[simp] theorem State.setReq_groups (r : Req) : (s.setReq r).groups = s.groups := rfl
@[simp] theorem State.setReq_stackPort (r : Req) : (s.setReq r).stackPort = s.stackPort := rfl
@[simp] theorem State.setReq_parked (r : Req) : (s.setReq r).parked = s.parked := rfl
@[simp] theorem State.setReq_moves (r : Req) : (s.setReq r).moves = s.moves := rfl
@[simp] theorem State.setReq_funcs (r : Req) : (s.setReq r).funcs = s.funcs := rfl
@[simp] theorem State.setReq_cmds (r : Req) : (s.setReq r).cmds = s.cmds := rfl
@[simp] theorem State.setReq_hostHeld (r : Req) : (s.setReq r).hostHeld = s.hostHeld := rfl
@[simp] theorem State.setReq_hostReplies (r : Req) : (s.setReq r).hostReplies = s.hostReplies := rfl
@[simp] theorem State.setReq_mailbox (r : Req) : (s.setReq r).mailbox = s.mailbox := rfl
@[simp] theorem State.setReq_mgmt (r : Req) : (s.setReq r).mgmt = s.mgmt := rfl
@[simp] theorem State.setReq_io (r : Req) : (s.setReq r).io = s.io := rfl
@[simp] theorem State.setReq_kaolin (r : Req) : (s.setReq r).kaolin = s.kaolin := rfl
@[simp] theorem State.setReq_dz (r : Req) : (s.setReq r).dz = s.dz := rfl
@[simp] theorem State.setReq_flights (r : Req) : (s.setReq r).flights = s.flights := rfl
@[simp] theorem State.setReq_touched (r : Req) : (s.setReq r).touched = s.touched := rfl
@[simp] theorem State.setReq_traps (r : Req) : (s.setReq r).traps = s.traps := rfl
@[simp] theorem State.setReq_frecs (r : Req) : (s.setReq r).frecs = s.frecs := rfl
@[simp] theorem State.setReq_reports (r : Req) : (s.setReq r).reports = s.reports := rfl
@[simp] theorem State.setReq_saved (r : Req) : (s.setReq r).saved = s.saved := rfl
@[simp] theorem State.setReq_archive (r : Req) : (s.setReq r).archive = s.archive := rfl
@[simp] theorem State.setReq_agenda (r : Req) : (s.setReq r).agenda = s.agenda := rfl
@[simp] theorem State.setReq_free (r : Req) : (s.setReq r).free = s.free := rfl
@[simp] theorem State.setReq_nextId (r : Req) : (s.setReq r).nextId = s.nextId := rfl

@[simp] theorem State.dropReq_me (r : Nat) : (s.dropReq r).me = s.me := rfl
@[simp] theorem State.dropReq_pre (r : Nat) : (s.dropReq r).pre = s.pre := rfl
@[simp] theorem State.dropReq_bun (r : Nat) : (s.dropReq r).bun = s.bun := rfl
@[simp] theorem State.dropReq_mem (r : Nat) : (s.dropReq r).mem = s.mem := rfl
@[simp] theorem State.dropReq_mem0 (r : Nat) : (s.dropReq r).mem0 = s.mem0 := rfl
@[simp] theorem State.dropReq_ecc (r : Nat) : (s.dropReq r).ecc = s.ecc := rfl
@[simp] theorem State.dropReq_late (r : Nat) : (s.dropReq r).late = s.late := rfl
@[simp] theorem State.dropReq_msgs (r : Nat) : (s.dropReq r).msgs = s.msgs := rfl
@[simp] theorem State.dropReq_lineKeys (r : Nat) : (s.dropReq r).lineKeys = s.lineKeys := rfl
@[simp] theorem State.dropReq_views (r : Nat) : (s.dropReq r).views = s.views := rfl
@[simp] theorem State.dropReq_scLog (r : Nat) : (s.dropReq r).scLog = s.scLog := rfl
@[simp] theorem State.dropReq_tick (r : Nat) : (s.dropReq r).tick = s.tick := rfl
@[simp] theorem State.dropReq_wall (r : Nat) : (s.dropReq r).wall = s.wall := rfl
@[simp] theorem State.dropReq_slots (r : Nat) : (s.dropReq r).slots = s.slots := rfl
@[simp] theorem State.dropReq_threads (r : Nat) : (s.dropReq r).threads = s.threads := rfl
@[simp] theorem State.dropReq_cores (r : Nat) : (s.dropReq r).cores = s.cores := rfl
@[simp] theorem State.dropReq_dies (r : Nat) : (s.dropReq r).dies = s.dies := rfl
@[simp] theorem State.dropReq_parts (r : Nat) : (s.dropReq r).parts = s.parts := rfl
@[simp] theorem State.dropReq_launches (r : Nat) : (s.dropReq r).launches = s.launches := rfl
@[simp] theorem State.dropReq_groups (r : Nat) : (s.dropReq r).groups = s.groups := rfl
@[simp] theorem State.dropReq_stackPort (r : Nat) : (s.dropReq r).stackPort = s.stackPort := rfl
@[simp] theorem State.dropReq_parked (r : Nat) : (s.dropReq r).parked = s.parked := rfl
@[simp] theorem State.dropReq_moves (r : Nat) : (s.dropReq r).moves = s.moves := rfl
@[simp] theorem State.dropReq_funcs (r : Nat) : (s.dropReq r).funcs = s.funcs := rfl
@[simp] theorem State.dropReq_cmds (r : Nat) : (s.dropReq r).cmds = s.cmds := rfl
@[simp] theorem State.dropReq_hostHeld (r : Nat) : (s.dropReq r).hostHeld = s.hostHeld := rfl
@[simp] theorem State.dropReq_hostReplies (r : Nat) : (s.dropReq r).hostReplies = s.hostReplies := rfl
@[simp] theorem State.dropReq_mailbox (r : Nat) : (s.dropReq r).mailbox = s.mailbox := rfl
@[simp] theorem State.dropReq_mgmt (r : Nat) : (s.dropReq r).mgmt = s.mgmt := rfl
@[simp] theorem State.dropReq_io (r : Nat) : (s.dropReq r).io = s.io := rfl
@[simp] theorem State.dropReq_kaolin (r : Nat) : (s.dropReq r).kaolin = s.kaolin := rfl
@[simp] theorem State.dropReq_dz (r : Nat) : (s.dropReq r).dz = s.dz := rfl
@[simp] theorem State.dropReq_flights (r : Nat) : (s.dropReq r).flights = s.flights := rfl
@[simp] theorem State.dropReq_touched (r : Nat) : (s.dropReq r).touched = s.touched := rfl
@[simp] theorem State.dropReq_traps (r : Nat) : (s.dropReq r).traps = s.traps := rfl
@[simp] theorem State.dropReq_frecs (r : Nat) : (s.dropReq r).frecs = s.frecs := rfl
@[simp] theorem State.dropReq_reports (r : Nat) : (s.dropReq r).reports = s.reports := rfl
@[simp] theorem State.dropReq_saved (r : Nat) : (s.dropReq r).saved = s.saved := rfl
@[simp] theorem State.dropReq_archive (r : Nat) : (s.dropReq r).archive = s.archive := rfl
@[simp] theorem State.dropReq_agenda (r : Nat) : (s.dropReq r).agenda = s.agenda := rfl
@[simp] theorem State.dropReq_free (r : Nat) : (s.dropReq r).free = s.free := rfl
@[simp] theorem State.dropReq_nextId (r : Nat) : (s.dropReq r).nextId = s.nextId := rfl

@[simp] theorem State.setGroup_me (g : Group) : (s.setGroup g).me = s.me := rfl
@[simp] theorem State.setGroup_pre (g : Group) : (s.setGroup g).pre = s.pre := rfl
@[simp] theorem State.setGroup_bun (g : Group) : (s.setGroup g).bun = s.bun := rfl
@[simp] theorem State.setGroup_mem (g : Group) : (s.setGroup g).mem = s.mem := rfl
@[simp] theorem State.setGroup_mem0 (g : Group) : (s.setGroup g).mem0 = s.mem0 := rfl
@[simp] theorem State.setGroup_ecc (g : Group) : (s.setGroup g).ecc = s.ecc := rfl
@[simp] theorem State.setGroup_late (g : Group) : (s.setGroup g).late = s.late := rfl
@[simp] theorem State.setGroup_msgs (g : Group) : (s.setGroup g).msgs = s.msgs := rfl
@[simp] theorem State.setGroup_lineKeys (g : Group) : (s.setGroup g).lineKeys = s.lineKeys := rfl
@[simp] theorem State.setGroup_views (g : Group) : (s.setGroup g).views = s.views := rfl
@[simp] theorem State.setGroup_scLog (g : Group) : (s.setGroup g).scLog = s.scLog := rfl
@[simp] theorem State.setGroup_tick (g : Group) : (s.setGroup g).tick = s.tick := rfl
@[simp] theorem State.setGroup_wall (g : Group) : (s.setGroup g).wall = s.wall := rfl
@[simp] theorem State.setGroup_slots (g : Group) : (s.setGroup g).slots = s.slots := rfl
@[simp] theorem State.setGroup_threads (g : Group) : (s.setGroup g).threads = s.threads := rfl
@[simp] theorem State.setGroup_cores (g : Group) : (s.setGroup g).cores = s.cores := rfl
@[simp] theorem State.setGroup_dies (g : Group) : (s.setGroup g).dies = s.dies := rfl
@[simp] theorem State.setGroup_parts (g : Group) : (s.setGroup g).parts = s.parts := rfl
@[simp] theorem State.setGroup_launches (g : Group) : (s.setGroup g).launches = s.launches := rfl
@[simp] theorem State.setGroup_reqs (g : Group) : (s.setGroup g).reqs = s.reqs := rfl
@[simp] theorem State.setGroup_stackPort (g : Group) : (s.setGroup g).stackPort = s.stackPort := rfl
@[simp] theorem State.setGroup_parked (g : Group) : (s.setGroup g).parked = s.parked := rfl
@[simp] theorem State.setGroup_moves (g : Group) : (s.setGroup g).moves = s.moves := rfl
@[simp] theorem State.setGroup_funcs (g : Group) : (s.setGroup g).funcs = s.funcs := rfl
@[simp] theorem State.setGroup_cmds (g : Group) : (s.setGroup g).cmds = s.cmds := rfl
@[simp] theorem State.setGroup_hostHeld (g : Group) : (s.setGroup g).hostHeld = s.hostHeld := rfl
@[simp] theorem State.setGroup_hostReplies (g : Group) : (s.setGroup g).hostReplies = s.hostReplies := rfl
@[simp] theorem State.setGroup_mailbox (g : Group) : (s.setGroup g).mailbox = s.mailbox := rfl
@[simp] theorem State.setGroup_mgmt (g : Group) : (s.setGroup g).mgmt = s.mgmt := rfl
@[simp] theorem State.setGroup_io (g : Group) : (s.setGroup g).io = s.io := rfl
@[simp] theorem State.setGroup_kaolin (g : Group) : (s.setGroup g).kaolin = s.kaolin := rfl
@[simp] theorem State.setGroup_dz (g : Group) : (s.setGroup g).dz = s.dz := rfl
@[simp] theorem State.setGroup_flights (g : Group) : (s.setGroup g).flights = s.flights := rfl
@[simp] theorem State.setGroup_touched (g : Group) : (s.setGroup g).touched = s.touched := rfl
@[simp] theorem State.setGroup_traps (g : Group) : (s.setGroup g).traps = s.traps := rfl
@[simp] theorem State.setGroup_frecs (g : Group) : (s.setGroup g).frecs = s.frecs := rfl
@[simp] theorem State.setGroup_reports (g : Group) : (s.setGroup g).reports = s.reports := rfl
@[simp] theorem State.setGroup_saved (g : Group) : (s.setGroup g).saved = s.saved := rfl
@[simp] theorem State.setGroup_archive (g : Group) : (s.setGroup g).archive = s.archive := rfl
@[simp] theorem State.setGroup_agenda (g : Group) : (s.setGroup g).agenda = s.agenda := rfl
@[simp] theorem State.setGroup_free (g : Group) : (s.setGroup g).free = s.free := rfl
@[simp] theorem State.setGroup_nextId (g : Group) : (s.setGroup g).nextId = s.nextId := rfl

@[simp] theorem State.setFunc_me (f : Func) : (s.setFunc f).me = s.me := rfl
@[simp] theorem State.setFunc_pre (f : Func) : (s.setFunc f).pre = s.pre := rfl
@[simp] theorem State.setFunc_bun (f : Func) : (s.setFunc f).bun = s.bun := rfl
@[simp] theorem State.setFunc_mem (f : Func) : (s.setFunc f).mem = s.mem := rfl
@[simp] theorem State.setFunc_mem0 (f : Func) : (s.setFunc f).mem0 = s.mem0 := rfl
@[simp] theorem State.setFunc_ecc (f : Func) : (s.setFunc f).ecc = s.ecc := rfl
@[simp] theorem State.setFunc_late (f : Func) : (s.setFunc f).late = s.late := rfl
@[simp] theorem State.setFunc_msgs (f : Func) : (s.setFunc f).msgs = s.msgs := rfl
@[simp] theorem State.setFunc_lineKeys (f : Func) : (s.setFunc f).lineKeys = s.lineKeys := rfl
@[simp] theorem State.setFunc_views (f : Func) : (s.setFunc f).views = s.views := rfl
@[simp] theorem State.setFunc_scLog (f : Func) : (s.setFunc f).scLog = s.scLog := rfl
@[simp] theorem State.setFunc_tick (f : Func) : (s.setFunc f).tick = s.tick := rfl
@[simp] theorem State.setFunc_wall (f : Func) : (s.setFunc f).wall = s.wall := rfl
@[simp] theorem State.setFunc_slots (f : Func) : (s.setFunc f).slots = s.slots := rfl
@[simp] theorem State.setFunc_threads (f : Func) : (s.setFunc f).threads = s.threads := rfl
@[simp] theorem State.setFunc_cores (f : Func) : (s.setFunc f).cores = s.cores := rfl
@[simp] theorem State.setFunc_dies (f : Func) : (s.setFunc f).dies = s.dies := rfl
@[simp] theorem State.setFunc_parts (f : Func) : (s.setFunc f).parts = s.parts := rfl
@[simp] theorem State.setFunc_launches (f : Func) : (s.setFunc f).launches = s.launches := rfl
@[simp] theorem State.setFunc_groups (f : Func) : (s.setFunc f).groups = s.groups := rfl
@[simp] theorem State.setFunc_reqs (f : Func) : (s.setFunc f).reqs = s.reqs := rfl
@[simp] theorem State.setFunc_stackPort (f : Func) : (s.setFunc f).stackPort = s.stackPort := rfl
@[simp] theorem State.setFunc_parked (f : Func) : (s.setFunc f).parked = s.parked := rfl
@[simp] theorem State.setFunc_moves (f : Func) : (s.setFunc f).moves = s.moves := rfl
@[simp] theorem State.setFunc_cmds (f : Func) : (s.setFunc f).cmds = s.cmds := rfl
@[simp] theorem State.setFunc_hostHeld (f : Func) : (s.setFunc f).hostHeld = s.hostHeld := rfl
@[simp] theorem State.setFunc_hostReplies (f : Func) : (s.setFunc f).hostReplies = s.hostReplies := rfl
@[simp] theorem State.setFunc_mailbox (f : Func) : (s.setFunc f).mailbox = s.mailbox := rfl
@[simp] theorem State.setFunc_mgmt (f : Func) : (s.setFunc f).mgmt = s.mgmt := rfl
@[simp] theorem State.setFunc_io (f : Func) : (s.setFunc f).io = s.io := rfl
@[simp] theorem State.setFunc_kaolin (f : Func) : (s.setFunc f).kaolin = s.kaolin := rfl
@[simp] theorem State.setFunc_dz (f : Func) : (s.setFunc f).dz = s.dz := rfl
@[simp] theorem State.setFunc_flights (f : Func) : (s.setFunc f).flights = s.flights := rfl
@[simp] theorem State.setFunc_touched (f : Func) : (s.setFunc f).touched = s.touched := rfl
@[simp] theorem State.setFunc_traps (f : Func) : (s.setFunc f).traps = s.traps := rfl
@[simp] theorem State.setFunc_frecs (f : Func) : (s.setFunc f).frecs = s.frecs := rfl
@[simp] theorem State.setFunc_reports (f : Func) : (s.setFunc f).reports = s.reports := rfl
@[simp] theorem State.setFunc_saved (f : Func) : (s.setFunc f).saved = s.saved := rfl
@[simp] theorem State.setFunc_archive (f : Func) : (s.setFunc f).archive = s.archive := rfl
@[simp] theorem State.setFunc_agenda (f : Func) : (s.setFunc f).agenda = s.agenda := rfl
@[simp] theorem State.setFunc_free (f : Func) : (s.setFunc f).free = s.free := rfl
@[simp] theorem State.setFunc_nextId (f : Func) : (s.setFunc f).nextId = s.nextId := rfl

@[simp] theorem State.setCmd_me (c : Cmd) : (s.setCmd c).me = s.me := rfl
@[simp] theorem State.setCmd_pre (c : Cmd) : (s.setCmd c).pre = s.pre := rfl
@[simp] theorem State.setCmd_bun (c : Cmd) : (s.setCmd c).bun = s.bun := rfl
@[simp] theorem State.setCmd_mem (c : Cmd) : (s.setCmd c).mem = s.mem := rfl
@[simp] theorem State.setCmd_mem0 (c : Cmd) : (s.setCmd c).mem0 = s.mem0 := rfl
@[simp] theorem State.setCmd_ecc (c : Cmd) : (s.setCmd c).ecc = s.ecc := rfl
@[simp] theorem State.setCmd_late (c : Cmd) : (s.setCmd c).late = s.late := rfl
@[simp] theorem State.setCmd_msgs (c : Cmd) : (s.setCmd c).msgs = s.msgs := rfl
@[simp] theorem State.setCmd_lineKeys (c : Cmd) : (s.setCmd c).lineKeys = s.lineKeys := rfl
@[simp] theorem State.setCmd_views (c : Cmd) : (s.setCmd c).views = s.views := rfl
@[simp] theorem State.setCmd_scLog (c : Cmd) : (s.setCmd c).scLog = s.scLog := rfl
@[simp] theorem State.setCmd_tick (c : Cmd) : (s.setCmd c).tick = s.tick := rfl
@[simp] theorem State.setCmd_wall (c : Cmd) : (s.setCmd c).wall = s.wall := rfl
@[simp] theorem State.setCmd_slots (c : Cmd) : (s.setCmd c).slots = s.slots := rfl
@[simp] theorem State.setCmd_threads (c : Cmd) : (s.setCmd c).threads = s.threads := rfl
@[simp] theorem State.setCmd_cores (c : Cmd) : (s.setCmd c).cores = s.cores := rfl
@[simp] theorem State.setCmd_dies (c : Cmd) : (s.setCmd c).dies = s.dies := rfl
@[simp] theorem State.setCmd_parts (c : Cmd) : (s.setCmd c).parts = s.parts := rfl
@[simp] theorem State.setCmd_launches (c : Cmd) : (s.setCmd c).launches = s.launches := rfl
@[simp] theorem State.setCmd_groups (c : Cmd) : (s.setCmd c).groups = s.groups := rfl
@[simp] theorem State.setCmd_reqs (c : Cmd) : (s.setCmd c).reqs = s.reqs := rfl
@[simp] theorem State.setCmd_stackPort (c : Cmd) : (s.setCmd c).stackPort = s.stackPort := rfl
@[simp] theorem State.setCmd_parked (c : Cmd) : (s.setCmd c).parked = s.parked := rfl
@[simp] theorem State.setCmd_moves (c : Cmd) : (s.setCmd c).moves = s.moves := rfl
@[simp] theorem State.setCmd_funcs (c : Cmd) : (s.setCmd c).funcs = s.funcs := rfl
@[simp] theorem State.setCmd_hostHeld (c : Cmd) : (s.setCmd c).hostHeld = s.hostHeld := rfl
@[simp] theorem State.setCmd_hostReplies (c : Cmd) : (s.setCmd c).hostReplies = s.hostReplies := rfl
@[simp] theorem State.setCmd_mailbox (c : Cmd) : (s.setCmd c).mailbox = s.mailbox := rfl
@[simp] theorem State.setCmd_mgmt (c : Cmd) : (s.setCmd c).mgmt = s.mgmt := rfl
@[simp] theorem State.setCmd_io (c : Cmd) : (s.setCmd c).io = s.io := rfl
@[simp] theorem State.setCmd_kaolin (c : Cmd) : (s.setCmd c).kaolin = s.kaolin := rfl
@[simp] theorem State.setCmd_dz (c : Cmd) : (s.setCmd c).dz = s.dz := rfl
@[simp] theorem State.setCmd_flights (c : Cmd) : (s.setCmd c).flights = s.flights := rfl
@[simp] theorem State.setCmd_touched (c : Cmd) : (s.setCmd c).touched = s.touched := rfl
@[simp] theorem State.setCmd_traps (c : Cmd) : (s.setCmd c).traps = s.traps := rfl
@[simp] theorem State.setCmd_frecs (c : Cmd) : (s.setCmd c).frecs = s.frecs := rfl
@[simp] theorem State.setCmd_reports (c : Cmd) : (s.setCmd c).reports = s.reports := rfl
@[simp] theorem State.setCmd_saved (c : Cmd) : (s.setCmd c).saved = s.saved := rfl
@[simp] theorem State.setCmd_archive (c : Cmd) : (s.setCmd c).archive = s.archive := rfl
@[simp] theorem State.setCmd_agenda (c : Cmd) : (s.setCmd c).agenda = s.agenda := rfl
@[simp] theorem State.setCmd_free (c : Cmd) : (s.setCmd c).free = s.free := rfl
@[simp] theorem State.setCmd_nextId (c : Cmd) : (s.setCmd c).nextId = s.nextId := rfl

@[simp] theorem State.setPort_me (p : DzPort) : (s.setPort p).me = s.me := rfl
@[simp] theorem State.setPort_pre (p : DzPort) : (s.setPort p).pre = s.pre := rfl
@[simp] theorem State.setPort_bun (p : DzPort) : (s.setPort p).bun = s.bun := rfl
@[simp] theorem State.setPort_mem (p : DzPort) : (s.setPort p).mem = s.mem := rfl
@[simp] theorem State.setPort_mem0 (p : DzPort) : (s.setPort p).mem0 = s.mem0 := rfl
@[simp] theorem State.setPort_ecc (p : DzPort) : (s.setPort p).ecc = s.ecc := rfl
@[simp] theorem State.setPort_late (p : DzPort) : (s.setPort p).late = s.late := rfl
@[simp] theorem State.setPort_msgs (p : DzPort) : (s.setPort p).msgs = s.msgs := rfl
@[simp] theorem State.setPort_lineKeys (p : DzPort) : (s.setPort p).lineKeys = s.lineKeys := rfl
@[simp] theorem State.setPort_views (p : DzPort) : (s.setPort p).views = s.views := rfl
@[simp] theorem State.setPort_scLog (p : DzPort) : (s.setPort p).scLog = s.scLog := rfl
@[simp] theorem State.setPort_tick (p : DzPort) : (s.setPort p).tick = s.tick := rfl
@[simp] theorem State.setPort_wall (p : DzPort) : (s.setPort p).wall = s.wall := rfl
@[simp] theorem State.setPort_slots (p : DzPort) : (s.setPort p).slots = s.slots := rfl
@[simp] theorem State.setPort_threads (p : DzPort) : (s.setPort p).threads = s.threads := rfl
@[simp] theorem State.setPort_cores (p : DzPort) : (s.setPort p).cores = s.cores := rfl
@[simp] theorem State.setPort_dies (p : DzPort) : (s.setPort p).dies = s.dies := rfl
@[simp] theorem State.setPort_parts (p : DzPort) : (s.setPort p).parts = s.parts := rfl
@[simp] theorem State.setPort_launches (p : DzPort) : (s.setPort p).launches = s.launches := rfl
@[simp] theorem State.setPort_groups (p : DzPort) : (s.setPort p).groups = s.groups := rfl
@[simp] theorem State.setPort_reqs (p : DzPort) : (s.setPort p).reqs = s.reqs := rfl
@[simp] theorem State.setPort_stackPort (p : DzPort) : (s.setPort p).stackPort = s.stackPort := rfl
@[simp] theorem State.setPort_parked (p : DzPort) : (s.setPort p).parked = s.parked := rfl
@[simp] theorem State.setPort_moves (p : DzPort) : (s.setPort p).moves = s.moves := rfl
@[simp] theorem State.setPort_funcs (p : DzPort) : (s.setPort p).funcs = s.funcs := rfl
@[simp] theorem State.setPort_cmds (p : DzPort) : (s.setPort p).cmds = s.cmds := rfl
@[simp] theorem State.setPort_hostHeld (p : DzPort) : (s.setPort p).hostHeld = s.hostHeld := rfl
@[simp] theorem State.setPort_hostReplies (p : DzPort) : (s.setPort p).hostReplies = s.hostReplies := rfl
@[simp] theorem State.setPort_mailbox (p : DzPort) : (s.setPort p).mailbox = s.mailbox := rfl
@[simp] theorem State.setPort_mgmt (p : DzPort) : (s.setPort p).mgmt = s.mgmt := rfl
@[simp] theorem State.setPort_io (p : DzPort) : (s.setPort p).io = s.io := rfl
@[simp] theorem State.setPort_kaolin (p : DzPort) : (s.setPort p).kaolin = s.kaolin := rfl
@[simp] theorem State.setPort_flights (p : DzPort) : (s.setPort p).flights = s.flights := rfl
@[simp] theorem State.setPort_touched (p : DzPort) : (s.setPort p).touched = s.touched := rfl
@[simp] theorem State.setPort_traps (p : DzPort) : (s.setPort p).traps = s.traps := rfl
@[simp] theorem State.setPort_frecs (p : DzPort) : (s.setPort p).frecs = s.frecs := rfl
@[simp] theorem State.setPort_reports (p : DzPort) : (s.setPort p).reports = s.reports := rfl
@[simp] theorem State.setPort_saved (p : DzPort) : (s.setPort p).saved = s.saved := rfl
@[simp] theorem State.setPort_archive (p : DzPort) : (s.setPort p).archive = s.archive := rfl
@[simp] theorem State.setPort_agenda (p : DzPort) : (s.setPort p).agenda = s.agenda := rfl
@[simp] theorem State.setPort_free (p : DzPort) : (s.setPort p).free = s.free := rfl
@[simp] theorem State.setPort_nextId (p : DzPort) : (s.setPort p).nextId = s.nextId := rfl

@[simp] theorem State.wq_pre (r : Nat) (v : QReg) : (s.wq r v).pre = s.pre := rfl
@[simp] theorem State.wq_bun (r : Nat) (v : QReg) : (s.wq r v).bun = s.bun := rfl
@[simp] theorem State.wq_mem (r : Nat) (v : QReg) : (s.wq r v).mem = s.mem := rfl
@[simp] theorem State.wq_mem0 (r : Nat) (v : QReg) : (s.wq r v).mem0 = s.mem0 := rfl
@[simp] theorem State.wq_ecc (r : Nat) (v : QReg) : (s.wq r v).ecc = s.ecc := rfl
@[simp] theorem State.wq_late (r : Nat) (v : QReg) : (s.wq r v).late = s.late := rfl
@[simp] theorem State.wq_msgs (r : Nat) (v : QReg) : (s.wq r v).msgs = s.msgs := rfl
@[simp] theorem State.wq_lineKeys (r : Nat) (v : QReg) : (s.wq r v).lineKeys = s.lineKeys := rfl
@[simp] theorem State.wq_views (r : Nat) (v : QReg) : (s.wq r v).views = s.views := rfl
@[simp] theorem State.wq_scLog (r : Nat) (v : QReg) : (s.wq r v).scLog = s.scLog := rfl
@[simp] theorem State.wq_tick (r : Nat) (v : QReg) : (s.wq r v).tick = s.tick := rfl
@[simp] theorem State.wq_wall (r : Nat) (v : QReg) : (s.wq r v).wall = s.wall := rfl
@[simp] theorem State.wq_slots (r : Nat) (v : QReg) : (s.wq r v).slots = s.slots := rfl
@[simp] theorem State.wq_threads (r : Nat) (v : QReg) : (s.wq r v).threads = s.threads := rfl
@[simp] theorem State.wq_cores (r : Nat) (v : QReg) : (s.wq r v).cores = s.cores := rfl
@[simp] theorem State.wq_dies (r : Nat) (v : QReg) : (s.wq r v).dies = s.dies := rfl
@[simp] theorem State.wq_parts (r : Nat) (v : QReg) : (s.wq r v).parts = s.parts := rfl
@[simp] theorem State.wq_launches (r : Nat) (v : QReg) : (s.wq r v).launches = s.launches := rfl
@[simp] theorem State.wq_groups (r : Nat) (v : QReg) : (s.wq r v).groups = s.groups := rfl
@[simp] theorem State.wq_reqs (r : Nat) (v : QReg) : (s.wq r v).reqs = s.reqs := rfl
@[simp] theorem State.wq_stackPort (r : Nat) (v : QReg) : (s.wq r v).stackPort = s.stackPort := rfl
@[simp] theorem State.wq_parked (r : Nat) (v : QReg) : (s.wq r v).parked = s.parked := rfl
@[simp] theorem State.wq_moves (r : Nat) (v : QReg) : (s.wq r v).moves = s.moves := rfl
@[simp] theorem State.wq_funcs (r : Nat) (v : QReg) : (s.wq r v).funcs = s.funcs := rfl
@[simp] theorem State.wq_cmds (r : Nat) (v : QReg) : (s.wq r v).cmds = s.cmds := rfl
@[simp] theorem State.wq_hostHeld (r : Nat) (v : QReg) : (s.wq r v).hostHeld = s.hostHeld := rfl
@[simp] theorem State.wq_hostReplies (r : Nat) (v : QReg) : (s.wq r v).hostReplies = s.hostReplies := rfl
@[simp] theorem State.wq_mailbox (r : Nat) (v : QReg) : (s.wq r v).mailbox = s.mailbox := rfl
@[simp] theorem State.wq_mgmt (r : Nat) (v : QReg) : (s.wq r v).mgmt = s.mgmt := rfl
@[simp] theorem State.wq_io (r : Nat) (v : QReg) : (s.wq r v).io = s.io := rfl
@[simp] theorem State.wq_kaolin (r : Nat) (v : QReg) : (s.wq r v).kaolin = s.kaolin := rfl
@[simp] theorem State.wq_dz (r : Nat) (v : QReg) : (s.wq r v).dz = s.dz := rfl
@[simp] theorem State.wq_flights (r : Nat) (v : QReg) : (s.wq r v).flights = s.flights := rfl
@[simp] theorem State.wq_touched (r : Nat) (v : QReg) : (s.wq r v).touched = s.touched := rfl
@[simp] theorem State.wq_traps (r : Nat) (v : QReg) : (s.wq r v).traps = s.traps := rfl
@[simp] theorem State.wq_frecs (r : Nat) (v : QReg) : (s.wq r v).frecs = s.frecs := rfl
@[simp] theorem State.wq_reports (r : Nat) (v : QReg) : (s.wq r v).reports = s.reports := rfl
@[simp] theorem State.wq_saved (r : Nat) (v : QReg) : (s.wq r v).saved = s.saved := rfl
@[simp] theorem State.wq_archive (r : Nat) (v : QReg) : (s.wq r v).archive = s.archive := rfl
@[simp] theorem State.wq_agenda (r : Nat) (v : QReg) : (s.wq r v).agenda = s.agenda := rfl
@[simp] theorem State.wq_free (r : Nat) (v : QReg) : (s.wq r v).free = s.free := rfl
@[simp] theorem State.wq_nextId (r : Nat) (v : QReg) : (s.wq r v).nextId = s.nextId := rfl

@[simp] theorem State.we_pre (r : Nat) (v : W64) : (s.we r v).pre = s.pre := rfl
@[simp] theorem State.we_bun (r : Nat) (v : W64) : (s.we r v).bun = s.bun := rfl
@[simp] theorem State.we_mem (r : Nat) (v : W64) : (s.we r v).mem = s.mem := rfl
@[simp] theorem State.we_mem0 (r : Nat) (v : W64) : (s.we r v).mem0 = s.mem0 := rfl
@[simp] theorem State.we_ecc (r : Nat) (v : W64) : (s.we r v).ecc = s.ecc := rfl
@[simp] theorem State.we_late (r : Nat) (v : W64) : (s.we r v).late = s.late := rfl
@[simp] theorem State.we_msgs (r : Nat) (v : W64) : (s.we r v).msgs = s.msgs := rfl
@[simp] theorem State.we_lineKeys (r : Nat) (v : W64) : (s.we r v).lineKeys = s.lineKeys := rfl
@[simp] theorem State.we_views (r : Nat) (v : W64) : (s.we r v).views = s.views := rfl
@[simp] theorem State.we_scLog (r : Nat) (v : W64) : (s.we r v).scLog = s.scLog := rfl
@[simp] theorem State.we_tick (r : Nat) (v : W64) : (s.we r v).tick = s.tick := rfl
@[simp] theorem State.we_wall (r : Nat) (v : W64) : (s.we r v).wall = s.wall := rfl
@[simp] theorem State.we_slots (r : Nat) (v : W64) : (s.we r v).slots = s.slots := rfl
@[simp] theorem State.we_threads (r : Nat) (v : W64) : (s.we r v).threads = s.threads := rfl
@[simp] theorem State.we_cores (r : Nat) (v : W64) : (s.we r v).cores = s.cores := rfl
@[simp] theorem State.we_dies (r : Nat) (v : W64) : (s.we r v).dies = s.dies := rfl
@[simp] theorem State.we_parts (r : Nat) (v : W64) : (s.we r v).parts = s.parts := rfl
@[simp] theorem State.we_launches (r : Nat) (v : W64) : (s.we r v).launches = s.launches := rfl
@[simp] theorem State.we_groups (r : Nat) (v : W64) : (s.we r v).groups = s.groups := rfl
@[simp] theorem State.we_reqs (r : Nat) (v : W64) : (s.we r v).reqs = s.reqs := rfl
@[simp] theorem State.we_stackPort (r : Nat) (v : W64) : (s.we r v).stackPort = s.stackPort := rfl
@[simp] theorem State.we_parked (r : Nat) (v : W64) : (s.we r v).parked = s.parked := rfl
@[simp] theorem State.we_moves (r : Nat) (v : W64) : (s.we r v).moves = s.moves := rfl
@[simp] theorem State.we_funcs (r : Nat) (v : W64) : (s.we r v).funcs = s.funcs := rfl
@[simp] theorem State.we_cmds (r : Nat) (v : W64) : (s.we r v).cmds = s.cmds := rfl
@[simp] theorem State.we_hostHeld (r : Nat) (v : W64) : (s.we r v).hostHeld = s.hostHeld := rfl
@[simp] theorem State.we_hostReplies (r : Nat) (v : W64) : (s.we r v).hostReplies = s.hostReplies := rfl
@[simp] theorem State.we_mailbox (r : Nat) (v : W64) : (s.we r v).mailbox = s.mailbox := rfl
@[simp] theorem State.we_mgmt (r : Nat) (v : W64) : (s.we r v).mgmt = s.mgmt := rfl
@[simp] theorem State.we_io (r : Nat) (v : W64) : (s.we r v).io = s.io := rfl
@[simp] theorem State.we_kaolin (r : Nat) (v : W64) : (s.we r v).kaolin = s.kaolin := rfl
@[simp] theorem State.we_dz (r : Nat) (v : W64) : (s.we r v).dz = s.dz := rfl
@[simp] theorem State.we_flights (r : Nat) (v : W64) : (s.we r v).flights = s.flights := rfl
@[simp] theorem State.we_touched (r : Nat) (v : W64) : (s.we r v).touched = s.touched := rfl
@[simp] theorem State.we_traps (r : Nat) (v : W64) : (s.we r v).traps = s.traps := rfl
@[simp] theorem State.we_frecs (r : Nat) (v : W64) : (s.we r v).frecs = s.frecs := rfl
@[simp] theorem State.we_reports (r : Nat) (v : W64) : (s.we r v).reports = s.reports := rfl
@[simp] theorem State.we_saved (r : Nat) (v : W64) : (s.we r v).saved = s.saved := rfl
@[simp] theorem State.we_archive (r : Nat) (v : W64) : (s.we r v).archive = s.archive := rfl
@[simp] theorem State.we_agenda (r : Nat) (v : W64) : (s.we r v).agenda = s.agenda := rfl
@[simp] theorem State.we_free (r : Nat) (v : W64) : (s.we r v).free = s.free := rfl
@[simp] theorem State.we_nextId (r : Nat) (v : W64) : (s.we r v).nextId = s.nextId := rfl

@[simp] theorem State.wh_pre (r : Nat) (v : W64) : (s.wh r v).pre = s.pre := rfl
@[simp] theorem State.wh_bun (r : Nat) (v : W64) : (s.wh r v).bun = s.bun := rfl
@[simp] theorem State.wh_mem (r : Nat) (v : W64) : (s.wh r v).mem = s.mem := rfl
@[simp] theorem State.wh_mem0 (r : Nat) (v : W64) : (s.wh r v).mem0 = s.mem0 := rfl
@[simp] theorem State.wh_ecc (r : Nat) (v : W64) : (s.wh r v).ecc = s.ecc := rfl
@[simp] theorem State.wh_late (r : Nat) (v : W64) : (s.wh r v).late = s.late := rfl
@[simp] theorem State.wh_msgs (r : Nat) (v : W64) : (s.wh r v).msgs = s.msgs := rfl
@[simp] theorem State.wh_lineKeys (r : Nat) (v : W64) : (s.wh r v).lineKeys = s.lineKeys := rfl
@[simp] theorem State.wh_views (r : Nat) (v : W64) : (s.wh r v).views = s.views := rfl
@[simp] theorem State.wh_scLog (r : Nat) (v : W64) : (s.wh r v).scLog = s.scLog := rfl
@[simp] theorem State.wh_tick (r : Nat) (v : W64) : (s.wh r v).tick = s.tick := rfl
@[simp] theorem State.wh_wall (r : Nat) (v : W64) : (s.wh r v).wall = s.wall := rfl
@[simp] theorem State.wh_slots (r : Nat) (v : W64) : (s.wh r v).slots = s.slots := rfl
@[simp] theorem State.wh_threads (r : Nat) (v : W64) : (s.wh r v).threads = s.threads := rfl
@[simp] theorem State.wh_cores (r : Nat) (v : W64) : (s.wh r v).cores = s.cores := rfl
@[simp] theorem State.wh_dies (r : Nat) (v : W64) : (s.wh r v).dies = s.dies := rfl
@[simp] theorem State.wh_parts (r : Nat) (v : W64) : (s.wh r v).parts = s.parts := rfl
@[simp] theorem State.wh_launches (r : Nat) (v : W64) : (s.wh r v).launches = s.launches := rfl
@[simp] theorem State.wh_groups (r : Nat) (v : W64) : (s.wh r v).groups = s.groups := rfl
@[simp] theorem State.wh_reqs (r : Nat) (v : W64) : (s.wh r v).reqs = s.reqs := rfl
@[simp] theorem State.wh_stackPort (r : Nat) (v : W64) : (s.wh r v).stackPort = s.stackPort := rfl
@[simp] theorem State.wh_parked (r : Nat) (v : W64) : (s.wh r v).parked = s.parked := rfl
@[simp] theorem State.wh_moves (r : Nat) (v : W64) : (s.wh r v).moves = s.moves := rfl
@[simp] theorem State.wh_funcs (r : Nat) (v : W64) : (s.wh r v).funcs = s.funcs := rfl
@[simp] theorem State.wh_cmds (r : Nat) (v : W64) : (s.wh r v).cmds = s.cmds := rfl
@[simp] theorem State.wh_hostHeld (r : Nat) (v : W64) : (s.wh r v).hostHeld = s.hostHeld := rfl
@[simp] theorem State.wh_hostReplies (r : Nat) (v : W64) : (s.wh r v).hostReplies = s.hostReplies := rfl
@[simp] theorem State.wh_mailbox (r : Nat) (v : W64) : (s.wh r v).mailbox = s.mailbox := rfl
@[simp] theorem State.wh_mgmt (r : Nat) (v : W64) : (s.wh r v).mgmt = s.mgmt := rfl
@[simp] theorem State.wh_io (r : Nat) (v : W64) : (s.wh r v).io = s.io := rfl
@[simp] theorem State.wh_kaolin (r : Nat) (v : W64) : (s.wh r v).kaolin = s.kaolin := rfl
@[simp] theorem State.wh_dz (r : Nat) (v : W64) : (s.wh r v).dz = s.dz := rfl
@[simp] theorem State.wh_flights (r : Nat) (v : W64) : (s.wh r v).flights = s.flights := rfl
@[simp] theorem State.wh_touched (r : Nat) (v : W64) : (s.wh r v).touched = s.touched := rfl
@[simp] theorem State.wh_traps (r : Nat) (v : W64) : (s.wh r v).traps = s.traps := rfl
@[simp] theorem State.wh_frecs (r : Nat) (v : W64) : (s.wh r v).frecs = s.frecs := rfl
@[simp] theorem State.wh_reports (r : Nat) (v : W64) : (s.wh r v).reports = s.reports := rfl
@[simp] theorem State.wh_saved (r : Nat) (v : W64) : (s.wh r v).saved = s.saved := rfl
@[simp] theorem State.wh_archive (r : Nat) (v : W64) : (s.wh r v).archive = s.archive := rfl
@[simp] theorem State.wh_agenda (r : Nat) (v : W64) : (s.wh r v).agenda = s.agenda := rfl
@[simp] theorem State.wh_free (r : Nat) (v : W64) : (s.wh r v).free = s.free := rfl
@[simp] theorem State.wh_nextId (r : Nat) (v : W64) : (s.wh r v).nextId = s.nextId := rfl

@[simp] theorem State.wc_pre (r : Nat) (v : Bool) : (s.wc r v).pre = s.pre := rfl
@[simp] theorem State.wc_bun (r : Nat) (v : Bool) : (s.wc r v).bun = s.bun := rfl
@[simp] theorem State.wc_mem (r : Nat) (v : Bool) : (s.wc r v).mem = s.mem := rfl
@[simp] theorem State.wc_mem0 (r : Nat) (v : Bool) : (s.wc r v).mem0 = s.mem0 := rfl
@[simp] theorem State.wc_ecc (r : Nat) (v : Bool) : (s.wc r v).ecc = s.ecc := rfl
@[simp] theorem State.wc_late (r : Nat) (v : Bool) : (s.wc r v).late = s.late := rfl
@[simp] theorem State.wc_msgs (r : Nat) (v : Bool) : (s.wc r v).msgs = s.msgs := rfl
@[simp] theorem State.wc_lineKeys (r : Nat) (v : Bool) : (s.wc r v).lineKeys = s.lineKeys := rfl
@[simp] theorem State.wc_views (r : Nat) (v : Bool) : (s.wc r v).views = s.views := rfl
@[simp] theorem State.wc_scLog (r : Nat) (v : Bool) : (s.wc r v).scLog = s.scLog := rfl
@[simp] theorem State.wc_tick (r : Nat) (v : Bool) : (s.wc r v).tick = s.tick := rfl
@[simp] theorem State.wc_wall (r : Nat) (v : Bool) : (s.wc r v).wall = s.wall := rfl
@[simp] theorem State.wc_slots (r : Nat) (v : Bool) : (s.wc r v).slots = s.slots := rfl
@[simp] theorem State.wc_threads (r : Nat) (v : Bool) : (s.wc r v).threads = s.threads := rfl
@[simp] theorem State.wc_cores (r : Nat) (v : Bool) : (s.wc r v).cores = s.cores := rfl
@[simp] theorem State.wc_dies (r : Nat) (v : Bool) : (s.wc r v).dies = s.dies := rfl
@[simp] theorem State.wc_parts (r : Nat) (v : Bool) : (s.wc r v).parts = s.parts := rfl
@[simp] theorem State.wc_launches (r : Nat) (v : Bool) : (s.wc r v).launches = s.launches := rfl
@[simp] theorem State.wc_groups (r : Nat) (v : Bool) : (s.wc r v).groups = s.groups := rfl
@[simp] theorem State.wc_reqs (r : Nat) (v : Bool) : (s.wc r v).reqs = s.reqs := rfl
@[simp] theorem State.wc_stackPort (r : Nat) (v : Bool) : (s.wc r v).stackPort = s.stackPort := rfl
@[simp] theorem State.wc_parked (r : Nat) (v : Bool) : (s.wc r v).parked = s.parked := rfl
@[simp] theorem State.wc_moves (r : Nat) (v : Bool) : (s.wc r v).moves = s.moves := rfl
@[simp] theorem State.wc_funcs (r : Nat) (v : Bool) : (s.wc r v).funcs = s.funcs := rfl
@[simp] theorem State.wc_cmds (r : Nat) (v : Bool) : (s.wc r v).cmds = s.cmds := rfl
@[simp] theorem State.wc_hostHeld (r : Nat) (v : Bool) : (s.wc r v).hostHeld = s.hostHeld := rfl
@[simp] theorem State.wc_hostReplies (r : Nat) (v : Bool) : (s.wc r v).hostReplies = s.hostReplies := rfl
@[simp] theorem State.wc_mailbox (r : Nat) (v : Bool) : (s.wc r v).mailbox = s.mailbox := rfl
@[simp] theorem State.wc_mgmt (r : Nat) (v : Bool) : (s.wc r v).mgmt = s.mgmt := rfl
@[simp] theorem State.wc_io (r : Nat) (v : Bool) : (s.wc r v).io = s.io := rfl
@[simp] theorem State.wc_kaolin (r : Nat) (v : Bool) : (s.wc r v).kaolin = s.kaolin := rfl
@[simp] theorem State.wc_dz (r : Nat) (v : Bool) : (s.wc r v).dz = s.dz := rfl
@[simp] theorem State.wc_flights (r : Nat) (v : Bool) : (s.wc r v).flights = s.flights := rfl
@[simp] theorem State.wc_touched (r : Nat) (v : Bool) : (s.wc r v).touched = s.touched := rfl
@[simp] theorem State.wc_traps (r : Nat) (v : Bool) : (s.wc r v).traps = s.traps := rfl
@[simp] theorem State.wc_frecs (r : Nat) (v : Bool) : (s.wc r v).frecs = s.frecs := rfl
@[simp] theorem State.wc_reports (r : Nat) (v : Bool) : (s.wc r v).reports = s.reports := rfl
@[simp] theorem State.wc_saved (r : Nat) (v : Bool) : (s.wc r v).saved = s.saved := rfl
@[simp] theorem State.wc_archive (r : Nat) (v : Bool) : (s.wc r v).archive = s.archive := rfl
@[simp] theorem State.wc_agenda (r : Nat) (v : Bool) : (s.wc r v).agenda = s.agenda := rfl
@[simp] theorem State.wc_free (r : Nat) (v : Bool) : (s.wc r v).free = s.free := rfl
@[simp] theorem State.wc_nextId (r : Nat) (v : Bool) : (s.wc r v).nextId = s.nextId := rfl

@[simp] theorem State.wa_pre (r : Nat) (v : W64) : (s.wa r v).pre = s.pre := rfl
@[simp] theorem State.wa_bun (r : Nat) (v : W64) : (s.wa r v).bun = s.bun := rfl
@[simp] theorem State.wa_mem (r : Nat) (v : W64) : (s.wa r v).mem = s.mem := rfl
@[simp] theorem State.wa_mem0 (r : Nat) (v : W64) : (s.wa r v).mem0 = s.mem0 := rfl
@[simp] theorem State.wa_ecc (r : Nat) (v : W64) : (s.wa r v).ecc = s.ecc := rfl
@[simp] theorem State.wa_late (r : Nat) (v : W64) : (s.wa r v).late = s.late := rfl
@[simp] theorem State.wa_msgs (r : Nat) (v : W64) : (s.wa r v).msgs = s.msgs := rfl
@[simp] theorem State.wa_lineKeys (r : Nat) (v : W64) : (s.wa r v).lineKeys = s.lineKeys := rfl
@[simp] theorem State.wa_views (r : Nat) (v : W64) : (s.wa r v).views = s.views := rfl
@[simp] theorem State.wa_scLog (r : Nat) (v : W64) : (s.wa r v).scLog = s.scLog := rfl
@[simp] theorem State.wa_tick (r : Nat) (v : W64) : (s.wa r v).tick = s.tick := rfl
@[simp] theorem State.wa_wall (r : Nat) (v : W64) : (s.wa r v).wall = s.wall := rfl
@[simp] theorem State.wa_slots (r : Nat) (v : W64) : (s.wa r v).slots = s.slots := rfl
@[simp] theorem State.wa_threads (r : Nat) (v : W64) : (s.wa r v).threads = s.threads := rfl
@[simp] theorem State.wa_cores (r : Nat) (v : W64) : (s.wa r v).cores = s.cores := rfl
@[simp] theorem State.wa_dies (r : Nat) (v : W64) : (s.wa r v).dies = s.dies := rfl
@[simp] theorem State.wa_parts (r : Nat) (v : W64) : (s.wa r v).parts = s.parts := rfl
@[simp] theorem State.wa_launches (r : Nat) (v : W64) : (s.wa r v).launches = s.launches := rfl
@[simp] theorem State.wa_groups (r : Nat) (v : W64) : (s.wa r v).groups = s.groups := rfl
@[simp] theorem State.wa_stackPort (r : Nat) (v : W64) : (s.wa r v).stackPort = s.stackPort := rfl
@[simp] theorem State.wa_parked (r : Nat) (v : W64) : (s.wa r v).parked = s.parked := rfl
@[simp] theorem State.wa_moves (r : Nat) (v : W64) : (s.wa r v).moves = s.moves := rfl
@[simp] theorem State.wa_funcs (r : Nat) (v : W64) : (s.wa r v).funcs = s.funcs := rfl
@[simp] theorem State.wa_cmds (r : Nat) (v : W64) : (s.wa r v).cmds = s.cmds := rfl
@[simp] theorem State.wa_hostHeld (r : Nat) (v : W64) : (s.wa r v).hostHeld = s.hostHeld := rfl
@[simp] theorem State.wa_hostReplies (r : Nat) (v : W64) : (s.wa r v).hostReplies = s.hostReplies := rfl
@[simp] theorem State.wa_mailbox (r : Nat) (v : W64) : (s.wa r v).mailbox = s.mailbox := rfl
@[simp] theorem State.wa_mgmt (r : Nat) (v : W64) : (s.wa r v).mgmt = s.mgmt := rfl
@[simp] theorem State.wa_io (r : Nat) (v : W64) : (s.wa r v).io = s.io := rfl
@[simp] theorem State.wa_kaolin (r : Nat) (v : W64) : (s.wa r v).kaolin = s.kaolin := rfl
@[simp] theorem State.wa_dz (r : Nat) (v : W64) : (s.wa r v).dz = s.dz := rfl
@[simp] theorem State.wa_flights (r : Nat) (v : W64) : (s.wa r v).flights = s.flights := rfl
@[simp] theorem State.wa_touched (r : Nat) (v : W64) : (s.wa r v).touched = s.touched := rfl
@[simp] theorem State.wa_traps (r : Nat) (v : W64) : (s.wa r v).traps = s.traps := rfl
@[simp] theorem State.wa_frecs (r : Nat) (v : W64) : (s.wa r v).frecs = s.frecs := rfl
@[simp] theorem State.wa_reports (r : Nat) (v : W64) : (s.wa r v).reports = s.reports := rfl
@[simp] theorem State.wa_saved (r : Nat) (v : W64) : (s.wa r v).saved = s.saved := rfl
@[simp] theorem State.wa_archive (r : Nat) (v : W64) : (s.wa r v).archive = s.archive := rfl
@[simp] theorem State.wa_agenda (r : Nat) (v : W64) : (s.wa r v).agenda = s.agenda := rfl
@[simp] theorem State.wa_free (r : Nat) (v : W64) : (s.wa r v).free = s.free := rfl
@[simp] theorem State.wa_nextId (r : Nat) (v : W64) : (s.wa r v).nextId = s.nextId := rfl

@[simp] theorem State.wv_pre (r : Nat) (v : VReg) : (s.wv r v).pre = s.pre := rfl
@[simp] theorem State.wv_bun (r : Nat) (v : VReg) : (s.wv r v).bun = s.bun := rfl
@[simp] theorem State.wv_mem (r : Nat) (v : VReg) : (s.wv r v).mem = s.mem := rfl
@[simp] theorem State.wv_mem0 (r : Nat) (v : VReg) : (s.wv r v).mem0 = s.mem0 := rfl
@[simp] theorem State.wv_ecc (r : Nat) (v : VReg) : (s.wv r v).ecc = s.ecc := rfl
@[simp] theorem State.wv_late (r : Nat) (v : VReg) : (s.wv r v).late = s.late := rfl
@[simp] theorem State.wv_msgs (r : Nat) (v : VReg) : (s.wv r v).msgs = s.msgs := rfl
@[simp] theorem State.wv_lineKeys (r : Nat) (v : VReg) : (s.wv r v).lineKeys = s.lineKeys := rfl
@[simp] theorem State.wv_views (r : Nat) (v : VReg) : (s.wv r v).views = s.views := rfl
@[simp] theorem State.wv_scLog (r : Nat) (v : VReg) : (s.wv r v).scLog = s.scLog := rfl
@[simp] theorem State.wv_tick (r : Nat) (v : VReg) : (s.wv r v).tick = s.tick := rfl
@[simp] theorem State.wv_wall (r : Nat) (v : VReg) : (s.wv r v).wall = s.wall := rfl
@[simp] theorem State.wv_slots (r : Nat) (v : VReg) : (s.wv r v).slots = s.slots := rfl
@[simp] theorem State.wv_threads (r : Nat) (v : VReg) : (s.wv r v).threads = s.threads := rfl
@[simp] theorem State.wv_cores (r : Nat) (v : VReg) : (s.wv r v).cores = s.cores := rfl
@[simp] theorem State.wv_dies (r : Nat) (v : VReg) : (s.wv r v).dies = s.dies := rfl
@[simp] theorem State.wv_parts (r : Nat) (v : VReg) : (s.wv r v).parts = s.parts := rfl
@[simp] theorem State.wv_launches (r : Nat) (v : VReg) : (s.wv r v).launches = s.launches := rfl
@[simp] theorem State.wv_groups (r : Nat) (v : VReg) : (s.wv r v).groups = s.groups := rfl
@[simp] theorem State.wv_stackPort (r : Nat) (v : VReg) : (s.wv r v).stackPort = s.stackPort := rfl
@[simp] theorem State.wv_parked (r : Nat) (v : VReg) : (s.wv r v).parked = s.parked := rfl
@[simp] theorem State.wv_moves (r : Nat) (v : VReg) : (s.wv r v).moves = s.moves := rfl
@[simp] theorem State.wv_funcs (r : Nat) (v : VReg) : (s.wv r v).funcs = s.funcs := rfl
@[simp] theorem State.wv_cmds (r : Nat) (v : VReg) : (s.wv r v).cmds = s.cmds := rfl
@[simp] theorem State.wv_hostHeld (r : Nat) (v : VReg) : (s.wv r v).hostHeld = s.hostHeld := rfl
@[simp] theorem State.wv_hostReplies (r : Nat) (v : VReg) : (s.wv r v).hostReplies = s.hostReplies := rfl
@[simp] theorem State.wv_mailbox (r : Nat) (v : VReg) : (s.wv r v).mailbox = s.mailbox := rfl
@[simp] theorem State.wv_mgmt (r : Nat) (v : VReg) : (s.wv r v).mgmt = s.mgmt := rfl
@[simp] theorem State.wv_io (r : Nat) (v : VReg) : (s.wv r v).io = s.io := rfl
@[simp] theorem State.wv_kaolin (r : Nat) (v : VReg) : (s.wv r v).kaolin = s.kaolin := rfl
@[simp] theorem State.wv_dz (r : Nat) (v : VReg) : (s.wv r v).dz = s.dz := rfl
@[simp] theorem State.wv_flights (r : Nat) (v : VReg) : (s.wv r v).flights = s.flights := rfl
@[simp] theorem State.wv_touched (r : Nat) (v : VReg) : (s.wv r v).touched = s.touched := rfl
@[simp] theorem State.wv_traps (r : Nat) (v : VReg) : (s.wv r v).traps = s.traps := rfl
@[simp] theorem State.wv_frecs (r : Nat) (v : VReg) : (s.wv r v).frecs = s.frecs := rfl
@[simp] theorem State.wv_reports (r : Nat) (v : VReg) : (s.wv r v).reports = s.reports := rfl
@[simp] theorem State.wv_saved (r : Nat) (v : VReg) : (s.wv r v).saved = s.saved := rfl
@[simp] theorem State.wv_archive (r : Nat) (v : VReg) : (s.wv r v).archive = s.archive := rfl
@[simp] theorem State.wv_agenda (r : Nat) (v : VReg) : (s.wv r v).agenda = s.agenda := rfl
@[simp] theorem State.wv_free (r : Nat) (v : VReg) : (s.wv r v).free = s.free := rfl
@[simp] theorem State.wv_nextId (r : Nat) (v : VReg) : (s.wv r v).nextId = s.nextId := rfl

@[simp] theorem State.orFlags_pre (f : Flags) : (s.orFlags f).pre = s.pre := rfl
@[simp] theorem State.orFlags_mem (f : Flags) : (s.orFlags f).mem = s.mem := rfl
@[simp] theorem State.orFlags_mem0 (f : Flags) : (s.orFlags f).mem0 = s.mem0 := rfl
@[simp] theorem State.orFlags_ecc (f : Flags) : (s.orFlags f).ecc = s.ecc := rfl
@[simp] theorem State.orFlags_late (f : Flags) : (s.orFlags f).late = s.late := rfl
@[simp] theorem State.orFlags_msgs (f : Flags) : (s.orFlags f).msgs = s.msgs := rfl
@[simp] theorem State.orFlags_lineKeys (f : Flags) : (s.orFlags f).lineKeys = s.lineKeys := rfl
@[simp] theorem State.orFlags_views (f : Flags) : (s.orFlags f).views = s.views := rfl
@[simp] theorem State.orFlags_scLog (f : Flags) : (s.orFlags f).scLog = s.scLog := rfl
@[simp] theorem State.orFlags_tick (f : Flags) : (s.orFlags f).tick = s.tick := rfl
@[simp] theorem State.orFlags_wall (f : Flags) : (s.orFlags f).wall = s.wall := rfl
@[simp] theorem State.orFlags_slots (f : Flags) : (s.orFlags f).slots = s.slots := rfl
@[simp] theorem State.orFlags_threads (f : Flags) : (s.orFlags f).threads = s.threads := rfl
@[simp] theorem State.orFlags_cores (f : Flags) : (s.orFlags f).cores = s.cores := rfl
@[simp] theorem State.orFlags_dies (f : Flags) : (s.orFlags f).dies = s.dies := rfl
@[simp] theorem State.orFlags_parts (f : Flags) : (s.orFlags f).parts = s.parts := rfl
@[simp] theorem State.orFlags_launches (f : Flags) : (s.orFlags f).launches = s.launches := rfl
@[simp] theorem State.orFlags_groups (f : Flags) : (s.orFlags f).groups = s.groups := rfl
@[simp] theorem State.orFlags_reqs (f : Flags) : (s.orFlags f).reqs = s.reqs := rfl
@[simp] theorem State.orFlags_stackPort (f : Flags) : (s.orFlags f).stackPort = s.stackPort := rfl
@[simp] theorem State.orFlags_parked (f : Flags) : (s.orFlags f).parked = s.parked := rfl
@[simp] theorem State.orFlags_moves (f : Flags) : (s.orFlags f).moves = s.moves := rfl
@[simp] theorem State.orFlags_funcs (f : Flags) : (s.orFlags f).funcs = s.funcs := rfl
@[simp] theorem State.orFlags_cmds (f : Flags) : (s.orFlags f).cmds = s.cmds := rfl
@[simp] theorem State.orFlags_hostHeld (f : Flags) : (s.orFlags f).hostHeld = s.hostHeld := rfl
@[simp] theorem State.orFlags_hostReplies (f : Flags) : (s.orFlags f).hostReplies = s.hostReplies := rfl
@[simp] theorem State.orFlags_mailbox (f : Flags) : (s.orFlags f).mailbox = s.mailbox := rfl
@[simp] theorem State.orFlags_mgmt (f : Flags) : (s.orFlags f).mgmt = s.mgmt := rfl
@[simp] theorem State.orFlags_io (f : Flags) : (s.orFlags f).io = s.io := rfl
@[simp] theorem State.orFlags_kaolin (f : Flags) : (s.orFlags f).kaolin = s.kaolin := rfl
@[simp] theorem State.orFlags_dz (f : Flags) : (s.orFlags f).dz = s.dz := rfl
@[simp] theorem State.orFlags_flights (f : Flags) : (s.orFlags f).flights = s.flights := rfl
@[simp] theorem State.orFlags_touched (f : Flags) : (s.orFlags f).touched = s.touched := rfl
@[simp] theorem State.orFlags_traps (f : Flags) : (s.orFlags f).traps = s.traps := rfl
@[simp] theorem State.orFlags_frecs (f : Flags) : (s.orFlags f).frecs = s.frecs := rfl
@[simp] theorem State.orFlags_reports (f : Flags) : (s.orFlags f).reports = s.reports := rfl
@[simp] theorem State.orFlags_saved (f : Flags) : (s.orFlags f).saved = s.saved := rfl
@[simp] theorem State.orFlags_archive (f : Flags) : (s.orFlags f).archive = s.archive := rfl
@[simp] theorem State.orFlags_agenda (f : Flags) : (s.orFlags f).agenda = s.agenda := rfl
@[simp] theorem State.orFlags_free (f : Flags) : (s.orFlags f).free = s.free := rfl
@[simp] theorem State.orFlags_nextId (f : Flags) : (s.orFlags f).nextId = s.nextId := rfl

@[simp] theorem State.checkout_mem (t : Thread) : (s.checkout t).mem = s.mem := rfl
@[simp] theorem State.checkout_mem0 (t : Thread) : (s.checkout t).mem0 = s.mem0 := rfl
@[simp] theorem State.checkout_ecc (t : Thread) : (s.checkout t).ecc = s.ecc := rfl
@[simp] theorem State.checkout_late (t : Thread) : (s.checkout t).late = s.late := rfl
@[simp] theorem State.checkout_msgs (t : Thread) : (s.checkout t).msgs = s.msgs := rfl
@[simp] theorem State.checkout_lineKeys (t : Thread) : (s.checkout t).lineKeys = s.lineKeys := rfl
@[simp] theorem State.checkout_views (t : Thread) : (s.checkout t).views = s.views := rfl
@[simp] theorem State.checkout_scLog (t : Thread) : (s.checkout t).scLog = s.scLog := rfl
@[simp] theorem State.checkout_tick (t : Thread) : (s.checkout t).tick = s.tick := rfl
@[simp] theorem State.checkout_wall (t : Thread) : (s.checkout t).wall = s.wall := rfl
@[simp] theorem State.checkout_slots (t : Thread) : (s.checkout t).slots = s.slots := rfl
@[simp] theorem State.checkout_threads (t : Thread) : (s.checkout t).threads = s.threads := rfl
@[simp] theorem State.checkout_cores (t : Thread) : (s.checkout t).cores = s.cores := rfl
@[simp] theorem State.checkout_dies (t : Thread) : (s.checkout t).dies = s.dies := rfl
@[simp] theorem State.checkout_parts (t : Thread) : (s.checkout t).parts = s.parts := rfl
@[simp] theorem State.checkout_launches (t : Thread) : (s.checkout t).launches = s.launches := rfl
@[simp] theorem State.checkout_groups (t : Thread) : (s.checkout t).groups = s.groups := rfl
@[simp] theorem State.checkout_reqs (t : Thread) : (s.checkout t).reqs = s.reqs := rfl
@[simp] theorem State.checkout_stackPort (t : Thread) : (s.checkout t).stackPort = s.stackPort := rfl
@[simp] theorem State.checkout_parked (t : Thread) : (s.checkout t).parked = s.parked := rfl
@[simp] theorem State.checkout_moves (t : Thread) : (s.checkout t).moves = s.moves := rfl
@[simp] theorem State.checkout_funcs (t : Thread) : (s.checkout t).funcs = s.funcs := rfl
@[simp] theorem State.checkout_cmds (t : Thread) : (s.checkout t).cmds = s.cmds := rfl
@[simp] theorem State.checkout_hostHeld (t : Thread) : (s.checkout t).hostHeld = s.hostHeld := rfl
@[simp] theorem State.checkout_hostReplies (t : Thread) : (s.checkout t).hostReplies = s.hostReplies := rfl
@[simp] theorem State.checkout_mailbox (t : Thread) : (s.checkout t).mailbox = s.mailbox := rfl
@[simp] theorem State.checkout_mgmt (t : Thread) : (s.checkout t).mgmt = s.mgmt := rfl
@[simp] theorem State.checkout_io (t : Thread) : (s.checkout t).io = s.io := rfl
@[simp] theorem State.checkout_kaolin (t : Thread) : (s.checkout t).kaolin = s.kaolin := rfl
@[simp] theorem State.checkout_dz (t : Thread) : (s.checkout t).dz = s.dz := rfl
@[simp] theorem State.checkout_flights (t : Thread) : (s.checkout t).flights = s.flights := rfl
@[simp] theorem State.checkout_touched (t : Thread) : (s.checkout t).touched = s.touched := rfl
@[simp] theorem State.checkout_traps (t : Thread) : (s.checkout t).traps = s.traps := rfl
@[simp] theorem State.checkout_frecs (t : Thread) : (s.checkout t).frecs = s.frecs := rfl
@[simp] theorem State.checkout_reports (t : Thread) : (s.checkout t).reports = s.reports := rfl
@[simp] theorem State.checkout_saved (t : Thread) : (s.checkout t).saved = s.saved := rfl
@[simp] theorem State.checkout_archive (t : Thread) : (s.checkout t).archive = s.archive := rfl
@[simp] theorem State.checkout_agenda (t : Thread) : (s.checkout t).agenda = s.agenda := rfl
@[simp] theorem State.checkout_free (t : Thread) : (s.checkout t).free = s.free := rfl
@[simp] theorem State.checkout_nextId (t : Thread) : (s.checkout t).nextId = s.nextId := rfl

@[simp] theorem State.commit_mem : (s.commit).mem = s.mem := rfl
@[simp] theorem State.commit_mem0 : (s.commit).mem0 = s.mem0 := rfl
@[simp] theorem State.commit_ecc : (s.commit).ecc = s.ecc := rfl
@[simp] theorem State.commit_late : (s.commit).late = s.late := rfl
@[simp] theorem State.commit_msgs : (s.commit).msgs = s.msgs := rfl
@[simp] theorem State.commit_lineKeys : (s.commit).lineKeys = s.lineKeys := rfl
@[simp] theorem State.commit_views : (s.commit).views = s.views := rfl
@[simp] theorem State.commit_scLog : (s.commit).scLog = s.scLog := rfl
@[simp] theorem State.commit_tick : (s.commit).tick = s.tick := rfl
@[simp] theorem State.commit_wall : (s.commit).wall = s.wall := rfl
@[simp] theorem State.commit_slots : (s.commit).slots = s.slots := rfl
@[simp] theorem State.commit_cores : (s.commit).cores = s.cores := rfl
@[simp] theorem State.commit_dies : (s.commit).dies = s.dies := rfl
@[simp] theorem State.commit_parts : (s.commit).parts = s.parts := rfl
@[simp] theorem State.commit_launches : (s.commit).launches = s.launches := rfl
@[simp] theorem State.commit_groups : (s.commit).groups = s.groups := rfl
@[simp] theorem State.commit_reqs : (s.commit).reqs = s.reqs := rfl
@[simp] theorem State.commit_stackPort : (s.commit).stackPort = s.stackPort := rfl
@[simp] theorem State.commit_parked : (s.commit).parked = s.parked := rfl
@[simp] theorem State.commit_moves : (s.commit).moves = s.moves := rfl
@[simp] theorem State.commit_funcs : (s.commit).funcs = s.funcs := rfl
@[simp] theorem State.commit_cmds : (s.commit).cmds = s.cmds := rfl
@[simp] theorem State.commit_hostHeld : (s.commit).hostHeld = s.hostHeld := rfl
@[simp] theorem State.commit_hostReplies : (s.commit).hostReplies = s.hostReplies := rfl
@[simp] theorem State.commit_mailbox : (s.commit).mailbox = s.mailbox := rfl
@[simp] theorem State.commit_mgmt : (s.commit).mgmt = s.mgmt := rfl
@[simp] theorem State.commit_io : (s.commit).io = s.io := rfl
@[simp] theorem State.commit_kaolin : (s.commit).kaolin = s.kaolin := rfl
@[simp] theorem State.commit_dz : (s.commit).dz = s.dz := rfl
@[simp] theorem State.commit_flights : (s.commit).flights = s.flights := rfl
@[simp] theorem State.commit_touched : (s.commit).touched = s.touched := rfl
@[simp] theorem State.commit_traps : (s.commit).traps = s.traps := rfl
@[simp] theorem State.commit_frecs : (s.commit).frecs = s.frecs := rfl
@[simp] theorem State.commit_reports : (s.commit).reports = s.reports := rfl
@[simp] theorem State.commit_saved : (s.commit).saved = s.saved := rfl
@[simp] theorem State.commit_archive : (s.commit).archive = s.archive := rfl
@[simp] theorem State.commit_agenda : (s.commit).agenda = s.agenda := rfl
@[simp] theorem State.commit_free : (s.commit).free = s.free := rfl
@[simp] theorem State.commit_nextId : (s.commit).nextId = s.nextId := rfl

@[simp] theorem State.reread_me : (s.reread).me = s.me := rfl
@[simp] theorem State.reread_bun : (s.reread).bun = s.bun := rfl
@[simp] theorem State.reread_mem : (s.reread).mem = s.mem := rfl
@[simp] theorem State.reread_mem0 : (s.reread).mem0 = s.mem0 := rfl
@[simp] theorem State.reread_ecc : (s.reread).ecc = s.ecc := rfl
@[simp] theorem State.reread_late : (s.reread).late = s.late := rfl
@[simp] theorem State.reread_msgs : (s.reread).msgs = s.msgs := rfl
@[simp] theorem State.reread_lineKeys : (s.reread).lineKeys = s.lineKeys := rfl
@[simp] theorem State.reread_views : (s.reread).views = s.views := rfl
@[simp] theorem State.reread_scLog : (s.reread).scLog = s.scLog := rfl
@[simp] theorem State.reread_tick : (s.reread).tick = s.tick := rfl
@[simp] theorem State.reread_wall : (s.reread).wall = s.wall := rfl
@[simp] theorem State.reread_slots : (s.reread).slots = s.slots := rfl
@[simp] theorem State.reread_threads : (s.reread).threads = s.threads := rfl
@[simp] theorem State.reread_cores : (s.reread).cores = s.cores := rfl
@[simp] theorem State.reread_dies : (s.reread).dies = s.dies := rfl
@[simp] theorem State.reread_parts : (s.reread).parts = s.parts := rfl
@[simp] theorem State.reread_launches : (s.reread).launches = s.launches := rfl
@[simp] theorem State.reread_groups : (s.reread).groups = s.groups := rfl
@[simp] theorem State.reread_reqs : (s.reread).reqs = s.reqs := rfl
@[simp] theorem State.reread_stackPort : (s.reread).stackPort = s.stackPort := rfl
@[simp] theorem State.reread_parked : (s.reread).parked = s.parked := rfl
@[simp] theorem State.reread_moves : (s.reread).moves = s.moves := rfl
@[simp] theorem State.reread_funcs : (s.reread).funcs = s.funcs := rfl
@[simp] theorem State.reread_cmds : (s.reread).cmds = s.cmds := rfl
@[simp] theorem State.reread_hostHeld : (s.reread).hostHeld = s.hostHeld := rfl
@[simp] theorem State.reread_hostReplies : (s.reread).hostReplies = s.hostReplies := rfl
@[simp] theorem State.reread_mailbox : (s.reread).mailbox = s.mailbox := rfl
@[simp] theorem State.reread_mgmt : (s.reread).mgmt = s.mgmt := rfl
@[simp] theorem State.reread_io : (s.reread).io = s.io := rfl
@[simp] theorem State.reread_kaolin : (s.reread).kaolin = s.kaolin := rfl
@[simp] theorem State.reread_dz : (s.reread).dz = s.dz := rfl
@[simp] theorem State.reread_flights : (s.reread).flights = s.flights := rfl
@[simp] theorem State.reread_touched : (s.reread).touched = s.touched := rfl
@[simp] theorem State.reread_traps : (s.reread).traps = s.traps := rfl
@[simp] theorem State.reread_frecs : (s.reread).frecs = s.frecs := rfl
@[simp] theorem State.reread_reports : (s.reread).reports = s.reports := rfl
@[simp] theorem State.reread_saved : (s.reread).saved = s.saved := rfl
@[simp] theorem State.reread_archive : (s.reread).archive = s.archive := rfl
@[simp] theorem State.reread_agenda : (s.reread).agenda = s.agenda := rfl
@[simp] theorem State.reread_free : (s.reread).free = s.free := rfl
@[simp] theorem State.reread_nextId : (s.reread).nextId = s.nextId := rfl

@[simp] theorem State.block_pre : (s.block).pre = s.pre := rfl
@[simp] theorem State.block_mem : (s.block).mem = s.mem := rfl
@[simp] theorem State.block_mem0 : (s.block).mem0 = s.mem0 := rfl
@[simp] theorem State.block_ecc : (s.block).ecc = s.ecc := rfl
@[simp] theorem State.block_late : (s.block).late = s.late := rfl
@[simp] theorem State.block_msgs : (s.block).msgs = s.msgs := rfl
@[simp] theorem State.block_lineKeys : (s.block).lineKeys = s.lineKeys := rfl
@[simp] theorem State.block_views : (s.block).views = s.views := rfl
@[simp] theorem State.block_scLog : (s.block).scLog = s.scLog := rfl
@[simp] theorem State.block_tick : (s.block).tick = s.tick := rfl
@[simp] theorem State.block_wall : (s.block).wall = s.wall := rfl
@[simp] theorem State.block_slots : (s.block).slots = s.slots := rfl
@[simp] theorem State.block_threads : (s.block).threads = s.threads := rfl
@[simp] theorem State.block_cores : (s.block).cores = s.cores := rfl
@[simp] theorem State.block_dies : (s.block).dies = s.dies := rfl
@[simp] theorem State.block_parts : (s.block).parts = s.parts := rfl
@[simp] theorem State.block_launches : (s.block).launches = s.launches := rfl
@[simp] theorem State.block_groups : (s.block).groups = s.groups := rfl
@[simp] theorem State.block_reqs : (s.block).reqs = s.reqs := rfl
@[simp] theorem State.block_stackPort : (s.block).stackPort = s.stackPort := rfl
@[simp] theorem State.block_parked : (s.block).parked = s.parked := rfl
@[simp] theorem State.block_moves : (s.block).moves = s.moves := rfl
@[simp] theorem State.block_funcs : (s.block).funcs = s.funcs := rfl
@[simp] theorem State.block_cmds : (s.block).cmds = s.cmds := rfl
@[simp] theorem State.block_hostHeld : (s.block).hostHeld = s.hostHeld := rfl
@[simp] theorem State.block_hostReplies : (s.block).hostReplies = s.hostReplies := rfl
@[simp] theorem State.block_mailbox : (s.block).mailbox = s.mailbox := rfl
@[simp] theorem State.block_mgmt : (s.block).mgmt = s.mgmt := rfl
@[simp] theorem State.block_io : (s.block).io = s.io := rfl
@[simp] theorem State.block_kaolin : (s.block).kaolin = s.kaolin := rfl
@[simp] theorem State.block_dz : (s.block).dz = s.dz := rfl
@[simp] theorem State.block_flights : (s.block).flights = s.flights := rfl
@[simp] theorem State.block_touched : (s.block).touched = s.touched := rfl
@[simp] theorem State.block_traps : (s.block).traps = s.traps := rfl
@[simp] theorem State.block_frecs : (s.block).frecs = s.frecs := rfl
@[simp] theorem State.block_reports : (s.block).reports = s.reports := rfl
@[simp] theorem State.block_saved : (s.block).saved = s.saved := rfl
@[simp] theorem State.block_archive : (s.block).archive = s.archive := rfl
@[simp] theorem State.block_agenda : (s.block).agenda = s.agenda := rfl
@[simp] theorem State.block_free : (s.block).free = s.free := rfl
@[simp] theorem State.block_nextId : (s.block).nextId = s.nextId := rfl

@[simp] theorem State.wx_pre (r : Nat) (v : W32) : (s.wx r v).pre = s.pre := by
  unfold State.wx; split <;> rfl
@[simp] theorem State.wx_bun (r : Nat) (v : W32) : (s.wx r v).bun = s.bun := by
  unfold State.wx; split <;> rfl
@[simp] theorem State.wx_mem (r : Nat) (v : W32) : (s.wx r v).mem = s.mem := by
  unfold State.wx; split <;> rfl
@[simp] theorem State.wx_mem0 (r : Nat) (v : W32) : (s.wx r v).mem0 = s.mem0 := by
  unfold State.wx; split <;> rfl
@[simp] theorem State.wx_ecc (r : Nat) (v : W32) : (s.wx r v).ecc = s.ecc := by
  unfold State.wx; split <;> rfl
@[simp] theorem State.wx_late (r : Nat) (v : W32) : (s.wx r v).late = s.late := by
  unfold State.wx; split <;> rfl
@[simp] theorem State.wx_msgs (r : Nat) (v : W32) : (s.wx r v).msgs = s.msgs := by
  unfold State.wx; split <;> rfl
@[simp] theorem State.wx_lineKeys (r : Nat) (v : W32) : (s.wx r v).lineKeys = s.lineKeys := by
  unfold State.wx; split <;> rfl
@[simp] theorem State.wx_views (r : Nat) (v : W32) : (s.wx r v).views = s.views := by
  unfold State.wx; split <;> rfl
@[simp] theorem State.wx_scLog (r : Nat) (v : W32) : (s.wx r v).scLog = s.scLog := by
  unfold State.wx; split <;> rfl
@[simp] theorem State.wx_tick (r : Nat) (v : W32) : (s.wx r v).tick = s.tick := by
  unfold State.wx; split <;> rfl
@[simp] theorem State.wx_wall (r : Nat) (v : W32) : (s.wx r v).wall = s.wall := by
  unfold State.wx; split <;> rfl
@[simp] theorem State.wx_slots (r : Nat) (v : W32) : (s.wx r v).slots = s.slots := by
  unfold State.wx; split <;> rfl
@[simp] theorem State.wx_threads (r : Nat) (v : W32) : (s.wx r v).threads = s.threads := by
  unfold State.wx; split <;> rfl
@[simp] theorem State.wx_cores (r : Nat) (v : W32) : (s.wx r v).cores = s.cores := by
  unfold State.wx; split <;> rfl
@[simp] theorem State.wx_dies (r : Nat) (v : W32) : (s.wx r v).dies = s.dies := by
  unfold State.wx; split <;> rfl
@[simp] theorem State.wx_parts (r : Nat) (v : W32) : (s.wx r v).parts = s.parts := by
  unfold State.wx; split <;> rfl
@[simp] theorem State.wx_launches (r : Nat) (v : W32) : (s.wx r v).launches = s.launches := by
  unfold State.wx; split <;> rfl
@[simp] theorem State.wx_groups (r : Nat) (v : W32) : (s.wx r v).groups = s.groups := by
  unfold State.wx; split <;> rfl
@[simp] theorem State.wx_stackPort (r : Nat) (v : W32) : (s.wx r v).stackPort = s.stackPort := by
  unfold State.wx; split <;> rfl
@[simp] theorem State.wx_parked (r : Nat) (v : W32) : (s.wx r v).parked = s.parked := by
  unfold State.wx; split <;> rfl
@[simp] theorem State.wx_moves (r : Nat) (v : W32) : (s.wx r v).moves = s.moves := by
  unfold State.wx; split <;> rfl
@[simp] theorem State.wx_funcs (r : Nat) (v : W32) : (s.wx r v).funcs = s.funcs := by
  unfold State.wx; split <;> rfl
@[simp] theorem State.wx_cmds (r : Nat) (v : W32) : (s.wx r v).cmds = s.cmds := by
  unfold State.wx; split <;> rfl
@[simp] theorem State.wx_hostHeld (r : Nat) (v : W32) : (s.wx r v).hostHeld = s.hostHeld := by
  unfold State.wx; split <;> rfl
@[simp] theorem State.wx_hostReplies (r : Nat) (v : W32) : (s.wx r v).hostReplies = s.hostReplies := by
  unfold State.wx; split <;> rfl
@[simp] theorem State.wx_mailbox (r : Nat) (v : W32) : (s.wx r v).mailbox = s.mailbox := by
  unfold State.wx; split <;> rfl
@[simp] theorem State.wx_mgmt (r : Nat) (v : W32) : (s.wx r v).mgmt = s.mgmt := by
  unfold State.wx; split <;> rfl
@[simp] theorem State.wx_io (r : Nat) (v : W32) : (s.wx r v).io = s.io := by
  unfold State.wx; split <;> rfl
@[simp] theorem State.wx_kaolin (r : Nat) (v : W32) : (s.wx r v).kaolin = s.kaolin := by
  unfold State.wx; split <;> rfl
@[simp] theorem State.wx_dz (r : Nat) (v : W32) : (s.wx r v).dz = s.dz := by
  unfold State.wx; split <;> rfl
@[simp] theorem State.wx_flights (r : Nat) (v : W32) : (s.wx r v).flights = s.flights := by
  unfold State.wx; split <;> rfl
@[simp] theorem State.wx_touched (r : Nat) (v : W32) : (s.wx r v).touched = s.touched := by
  unfold State.wx; split <;> rfl
@[simp] theorem State.wx_traps (r : Nat) (v : W32) : (s.wx r v).traps = s.traps := by
  unfold State.wx; split <;> rfl
@[simp] theorem State.wx_frecs (r : Nat) (v : W32) : (s.wx r v).frecs = s.frecs := by
  unfold State.wx; split <;> rfl
@[simp] theorem State.wx_reports (r : Nat) (v : W32) : (s.wx r v).reports = s.reports := by
  unfold State.wx; split <;> rfl
@[simp] theorem State.wx_saved (r : Nat) (v : W32) : (s.wx r v).saved = s.saved := by
  unfold State.wx; split <;> rfl
@[simp] theorem State.wx_archive (r : Nat) (v : W32) : (s.wx r v).archive = s.archive := by
  unfold State.wx; split <;> rfl
@[simp] theorem State.wx_agenda (r : Nat) (v : W32) : (s.wx r v).agenda = s.agenda := by
  unfold State.wx; split <;> rfl
@[simp] theorem State.wx_free (r : Nat) (v : W32) : (s.wx r v).free = s.free := by
  unfold State.wx; split <;> rfl
@[simp] theorem State.wx_nextId (r : Nat) (v : W32) : (s.wx r v).nextId = s.nextId := by
  unfold State.wx; split <;> rfl

@[simp] theorem State.wk_pre (r : Nat) (v : W64) : (s.wk r v).pre = s.pre := by
  unfold State.wk; split <;> rfl
@[simp] theorem State.wk_bun (r : Nat) (v : W64) : (s.wk r v).bun = s.bun := by
  unfold State.wk; split <;> rfl
@[simp] theorem State.wk_mem (r : Nat) (v : W64) : (s.wk r v).mem = s.mem := by
  unfold State.wk; split <;> rfl
@[simp] theorem State.wk_mem0 (r : Nat) (v : W64) : (s.wk r v).mem0 = s.mem0 := by
  unfold State.wk; split <;> rfl
@[simp] theorem State.wk_ecc (r : Nat) (v : W64) : (s.wk r v).ecc = s.ecc := by
  unfold State.wk; split <;> rfl
@[simp] theorem State.wk_late (r : Nat) (v : W64) : (s.wk r v).late = s.late := by
  unfold State.wk; split <;> rfl
@[simp] theorem State.wk_msgs (r : Nat) (v : W64) : (s.wk r v).msgs = s.msgs := by
  unfold State.wk; split <;> rfl
@[simp] theorem State.wk_lineKeys (r : Nat) (v : W64) : (s.wk r v).lineKeys = s.lineKeys := by
  unfold State.wk; split <;> rfl
@[simp] theorem State.wk_views (r : Nat) (v : W64) : (s.wk r v).views = s.views := by
  unfold State.wk; split <;> rfl
@[simp] theorem State.wk_scLog (r : Nat) (v : W64) : (s.wk r v).scLog = s.scLog := by
  unfold State.wk; split <;> rfl
@[simp] theorem State.wk_tick (r : Nat) (v : W64) : (s.wk r v).tick = s.tick := by
  unfold State.wk; split <;> rfl
@[simp] theorem State.wk_wall (r : Nat) (v : W64) : (s.wk r v).wall = s.wall := by
  unfold State.wk; split <;> rfl
@[simp] theorem State.wk_slots (r : Nat) (v : W64) : (s.wk r v).slots = s.slots := by
  unfold State.wk; split <;> rfl
@[simp] theorem State.wk_threads (r : Nat) (v : W64) : (s.wk r v).threads = s.threads := by
  unfold State.wk; split <;> rfl
@[simp] theorem State.wk_cores (r : Nat) (v : W64) : (s.wk r v).cores = s.cores := by
  unfold State.wk; split <;> rfl
@[simp] theorem State.wk_dies (r : Nat) (v : W64) : (s.wk r v).dies = s.dies := by
  unfold State.wk; split <;> rfl
@[simp] theorem State.wk_parts (r : Nat) (v : W64) : (s.wk r v).parts = s.parts := by
  unfold State.wk; split <;> rfl
@[simp] theorem State.wk_launches (r : Nat) (v : W64) : (s.wk r v).launches = s.launches := by
  unfold State.wk; split <;> rfl
@[simp] theorem State.wk_groups (r : Nat) (v : W64) : (s.wk r v).groups = s.groups := by
  unfold State.wk; split <;> rfl
@[simp] theorem State.wk_stackPort (r : Nat) (v : W64) : (s.wk r v).stackPort = s.stackPort := by
  unfold State.wk; split <;> rfl
@[simp] theorem State.wk_parked (r : Nat) (v : W64) : (s.wk r v).parked = s.parked := by
  unfold State.wk; split <;> rfl
@[simp] theorem State.wk_moves (r : Nat) (v : W64) : (s.wk r v).moves = s.moves := by
  unfold State.wk; split <;> rfl
@[simp] theorem State.wk_funcs (r : Nat) (v : W64) : (s.wk r v).funcs = s.funcs := by
  unfold State.wk; split <;> rfl
@[simp] theorem State.wk_cmds (r : Nat) (v : W64) : (s.wk r v).cmds = s.cmds := by
  unfold State.wk; split <;> rfl
@[simp] theorem State.wk_hostHeld (r : Nat) (v : W64) : (s.wk r v).hostHeld = s.hostHeld := by
  unfold State.wk; split <;> rfl
@[simp] theorem State.wk_hostReplies (r : Nat) (v : W64) : (s.wk r v).hostReplies = s.hostReplies := by
  unfold State.wk; split <;> rfl
@[simp] theorem State.wk_mailbox (r : Nat) (v : W64) : (s.wk r v).mailbox = s.mailbox := by
  unfold State.wk; split <;> rfl
@[simp] theorem State.wk_mgmt (r : Nat) (v : W64) : (s.wk r v).mgmt = s.mgmt := by
  unfold State.wk; split <;> rfl
@[simp] theorem State.wk_io (r : Nat) (v : W64) : (s.wk r v).io = s.io := by
  unfold State.wk; split <;> rfl
@[simp] theorem State.wk_kaolin (r : Nat) (v : W64) : (s.wk r v).kaolin = s.kaolin := by
  unfold State.wk; split <;> rfl
@[simp] theorem State.wk_dz (r : Nat) (v : W64) : (s.wk r v).dz = s.dz := by
  unfold State.wk; split <;> rfl
@[simp] theorem State.wk_flights (r : Nat) (v : W64) : (s.wk r v).flights = s.flights := by
  unfold State.wk; split <;> rfl
@[simp] theorem State.wk_touched (r : Nat) (v : W64) : (s.wk r v).touched = s.touched := by
  unfold State.wk; split <;> rfl
@[simp] theorem State.wk_traps (r : Nat) (v : W64) : (s.wk r v).traps = s.traps := by
  unfold State.wk; split <;> rfl
@[simp] theorem State.wk_frecs (r : Nat) (v : W64) : (s.wk r v).frecs = s.frecs := by
  unfold State.wk; split <;> rfl
@[simp] theorem State.wk_reports (r : Nat) (v : W64) : (s.wk r v).reports = s.reports := by
  unfold State.wk; split <;> rfl
@[simp] theorem State.wk_saved (r : Nat) (v : W64) : (s.wk r v).saved = s.saved := by
  unfold State.wk; split <;> rfl
@[simp] theorem State.wk_archive (r : Nat) (v : W64) : (s.wk r v).archive = s.archive := by
  unfold State.wk; split <;> rfl
@[simp] theorem State.wk_agenda (r : Nat) (v : W64) : (s.wk r v).agenda = s.agenda := by
  unfold State.wk; split <;> rfl
@[simp] theorem State.wk_free (r : Nat) (v : W64) : (s.wk r v).free = s.free := by
  unfold State.wk; split <;> rfl
@[simp] theorem State.wk_nextId (r : Nat) (v : W64) : (s.wk r v).nextId = s.nextId := by
  unfold State.wk; split <;> rfl

@[simp] theorem State.takeCount_me : (s.takeCount).me = s.me := by
  unfold State.takeCount; split <;> rfl
@[simp] theorem State.takeCount_pre : (s.takeCount).pre = s.pre := by
  unfold State.takeCount; split <;> rfl
@[simp] theorem State.takeCount_mem : (s.takeCount).mem = s.mem := by
  unfold State.takeCount; split <;> rfl
@[simp] theorem State.takeCount_mem0 : (s.takeCount).mem0 = s.mem0 := by
  unfold State.takeCount; split <;> rfl
@[simp] theorem State.takeCount_ecc : (s.takeCount).ecc = s.ecc := by
  unfold State.takeCount; split <;> rfl
@[simp] theorem State.takeCount_late : (s.takeCount).late = s.late := by
  unfold State.takeCount; split <;> rfl
@[simp] theorem State.takeCount_msgs : (s.takeCount).msgs = s.msgs := by
  unfold State.takeCount; split <;> rfl
@[simp] theorem State.takeCount_lineKeys : (s.takeCount).lineKeys = s.lineKeys := by
  unfold State.takeCount; split <;> rfl
@[simp] theorem State.takeCount_views : (s.takeCount).views = s.views := by
  unfold State.takeCount; split <;> rfl
@[simp] theorem State.takeCount_scLog : (s.takeCount).scLog = s.scLog := by
  unfold State.takeCount; split <;> rfl
@[simp] theorem State.takeCount_tick : (s.takeCount).tick = s.tick := by
  unfold State.takeCount; split <;> rfl
@[simp] theorem State.takeCount_wall : (s.takeCount).wall = s.wall := by
  unfold State.takeCount; split <;> rfl
@[simp] theorem State.takeCount_slots : (s.takeCount).slots = s.slots := by
  unfold State.takeCount; split <;> rfl
@[simp] theorem State.takeCount_threads : (s.takeCount).threads = s.threads := by
  unfold State.takeCount; split <;> rfl
@[simp] theorem State.takeCount_cores : (s.takeCount).cores = s.cores := by
  unfold State.takeCount; split <;> rfl
@[simp] theorem State.takeCount_dies : (s.takeCount).dies = s.dies := by
  unfold State.takeCount; split <;> rfl
@[simp] theorem State.takeCount_parts : (s.takeCount).parts = s.parts := by
  unfold State.takeCount; split <;> rfl
@[simp] theorem State.takeCount_launches : (s.takeCount).launches = s.launches := by
  unfold State.takeCount; split <;> rfl
@[simp] theorem State.takeCount_groups : (s.takeCount).groups = s.groups := by
  unfold State.takeCount; split <;> rfl
@[simp] theorem State.takeCount_reqs : (s.takeCount).reqs = s.reqs := by
  unfold State.takeCount; split <;> rfl
@[simp] theorem State.takeCount_stackPort : (s.takeCount).stackPort = s.stackPort := by
  unfold State.takeCount; split <;> rfl
@[simp] theorem State.takeCount_parked : (s.takeCount).parked = s.parked := by
  unfold State.takeCount; split <;> rfl
@[simp] theorem State.takeCount_moves : (s.takeCount).moves = s.moves := by
  unfold State.takeCount; split <;> rfl
@[simp] theorem State.takeCount_funcs : (s.takeCount).funcs = s.funcs := by
  unfold State.takeCount; split <;> rfl
@[simp] theorem State.takeCount_cmds : (s.takeCount).cmds = s.cmds := by
  unfold State.takeCount; split <;> rfl
@[simp] theorem State.takeCount_hostHeld : (s.takeCount).hostHeld = s.hostHeld := by
  unfold State.takeCount; split <;> rfl
@[simp] theorem State.takeCount_hostReplies : (s.takeCount).hostReplies = s.hostReplies := by
  unfold State.takeCount; split <;> rfl
@[simp] theorem State.takeCount_mailbox : (s.takeCount).mailbox = s.mailbox := by
  unfold State.takeCount; split <;> rfl
@[simp] theorem State.takeCount_mgmt : (s.takeCount).mgmt = s.mgmt := by
  unfold State.takeCount; split <;> rfl
@[simp] theorem State.takeCount_io : (s.takeCount).io = s.io := by
  unfold State.takeCount; split <;> rfl
@[simp] theorem State.takeCount_kaolin : (s.takeCount).kaolin = s.kaolin := by
  unfold State.takeCount; split <;> rfl
@[simp] theorem State.takeCount_dz : (s.takeCount).dz = s.dz := by
  unfold State.takeCount; split <;> rfl
@[simp] theorem State.takeCount_flights : (s.takeCount).flights = s.flights := by
  unfold State.takeCount; split <;> rfl
@[simp] theorem State.takeCount_touched : (s.takeCount).touched = s.touched := by
  unfold State.takeCount; split <;> rfl
@[simp] theorem State.takeCount_traps : (s.takeCount).traps = s.traps := by
  unfold State.takeCount; split <;> rfl
@[simp] theorem State.takeCount_frecs : (s.takeCount).frecs = s.frecs := by
  unfold State.takeCount; split <;> rfl
@[simp] theorem State.takeCount_reports : (s.takeCount).reports = s.reports := by
  unfold State.takeCount; split <;> rfl
@[simp] theorem State.takeCount_saved : (s.takeCount).saved = s.saved := by
  unfold State.takeCount; split <;> rfl
@[simp] theorem State.takeCount_archive : (s.takeCount).archive = s.archive := by
  unfold State.takeCount; split <;> rfl
@[simp] theorem State.takeCount_agenda : (s.takeCount).agenda = s.agenda := by
  unfold State.takeCount; split <;> rfl
@[simp] theorem State.takeCount_free : (s.takeCount).free = s.free := by
  unfold State.takeCount; split <;> rfl
@[simp] theorem State.takeCount_nextId : (s.takeCount).nextId = s.nextId := by
  unfold State.takeCount; split <;> rfl

@[simp] theorem State.setThread_pre (t : Thread) : (s.setThread t).pre = s.pre := by
  unfold State.setThread; split <;> rfl
@[simp] theorem State.setThread_bun (t : Thread) : (s.setThread t).bun = s.bun := by
  unfold State.setThread; split <;> rfl
@[simp] theorem State.setThread_mem (t : Thread) : (s.setThread t).mem = s.mem := by
  unfold State.setThread; split <;> rfl
@[simp] theorem State.setThread_mem0 (t : Thread) : (s.setThread t).mem0 = s.mem0 := by
  unfold State.setThread; split <;> rfl
@[simp] theorem State.setThread_ecc (t : Thread) : (s.setThread t).ecc = s.ecc := by
  unfold State.setThread; split <;> rfl
@[simp] theorem State.setThread_late (t : Thread) : (s.setThread t).late = s.late := by
  unfold State.setThread; split <;> rfl
@[simp] theorem State.setThread_msgs (t : Thread) : (s.setThread t).msgs = s.msgs := by
  unfold State.setThread; split <;> rfl
@[simp] theorem State.setThread_lineKeys (t : Thread) : (s.setThread t).lineKeys = s.lineKeys := by
  unfold State.setThread; split <;> rfl
@[simp] theorem State.setThread_views (t : Thread) : (s.setThread t).views = s.views := by
  unfold State.setThread; split <;> rfl
@[simp] theorem State.setThread_scLog (t : Thread) : (s.setThread t).scLog = s.scLog := by
  unfold State.setThread; split <;> rfl
@[simp] theorem State.setThread_tick (t : Thread) : (s.setThread t).tick = s.tick := by
  unfold State.setThread; split <;> rfl
@[simp] theorem State.setThread_wall (t : Thread) : (s.setThread t).wall = s.wall := by
  unfold State.setThread; split <;> rfl
@[simp] theorem State.setThread_slots (t : Thread) : (s.setThread t).slots = s.slots := by
  unfold State.setThread; split <;> rfl
@[simp] theorem State.setThread_cores (t : Thread) : (s.setThread t).cores = s.cores := by
  unfold State.setThread; split <;> rfl
@[simp] theorem State.setThread_dies (t : Thread) : (s.setThread t).dies = s.dies := by
  unfold State.setThread; split <;> rfl
@[simp] theorem State.setThread_parts (t : Thread) : (s.setThread t).parts = s.parts := by
  unfold State.setThread; split <;> rfl
@[simp] theorem State.setThread_launches (t : Thread) : (s.setThread t).launches = s.launches := by
  unfold State.setThread; split <;> rfl
@[simp] theorem State.setThread_groups (t : Thread) : (s.setThread t).groups = s.groups := by
  unfold State.setThread; split <;> rfl
@[simp] theorem State.setThread_reqs (t : Thread) : (s.setThread t).reqs = s.reqs := by
  unfold State.setThread; split <;> rfl
@[simp] theorem State.setThread_stackPort (t : Thread) : (s.setThread t).stackPort = s.stackPort := by
  unfold State.setThread; split <;> rfl
@[simp] theorem State.setThread_parked (t : Thread) : (s.setThread t).parked = s.parked := by
  unfold State.setThread; split <;> rfl
@[simp] theorem State.setThread_moves (t : Thread) : (s.setThread t).moves = s.moves := by
  unfold State.setThread; split <;> rfl
@[simp] theorem State.setThread_funcs (t : Thread) : (s.setThread t).funcs = s.funcs := by
  unfold State.setThread; split <;> rfl
@[simp] theorem State.setThread_cmds (t : Thread) : (s.setThread t).cmds = s.cmds := by
  unfold State.setThread; split <;> rfl
@[simp] theorem State.setThread_hostHeld (t : Thread) : (s.setThread t).hostHeld = s.hostHeld := by
  unfold State.setThread; split <;> rfl
@[simp] theorem State.setThread_hostReplies (t : Thread) : (s.setThread t).hostReplies = s.hostReplies := by
  unfold State.setThread; split <;> rfl
@[simp] theorem State.setThread_mailbox (t : Thread) : (s.setThread t).mailbox = s.mailbox := by
  unfold State.setThread; split <;> rfl
@[simp] theorem State.setThread_mgmt (t : Thread) : (s.setThread t).mgmt = s.mgmt := by
  unfold State.setThread; split <;> rfl
@[simp] theorem State.setThread_io (t : Thread) : (s.setThread t).io = s.io := by
  unfold State.setThread; split <;> rfl
@[simp] theorem State.setThread_kaolin (t : Thread) : (s.setThread t).kaolin = s.kaolin := by
  unfold State.setThread; split <;> rfl
@[simp] theorem State.setThread_dz (t : Thread) : (s.setThread t).dz = s.dz := by
  unfold State.setThread; split <;> rfl
@[simp] theorem State.setThread_flights (t : Thread) : (s.setThread t).flights = s.flights := by
  unfold State.setThread; split <;> rfl
@[simp] theorem State.setThread_touched (t : Thread) : (s.setThread t).touched = s.touched := by
  unfold State.setThread; split <;> rfl
@[simp] theorem State.setThread_traps (t : Thread) : (s.setThread t).traps = s.traps := by
  unfold State.setThread; split <;> rfl
@[simp] theorem State.setThread_frecs (t : Thread) : (s.setThread t).frecs = s.frecs := by
  unfold State.setThread; split <;> rfl
@[simp] theorem State.setThread_reports (t : Thread) : (s.setThread t).reports = s.reports := by
  unfold State.setThread; split <;> rfl
@[simp] theorem State.setThread_saved (t : Thread) : (s.setThread t).saved = s.saved := by
  unfold State.setThread; split <;> rfl
@[simp] theorem State.setThread_archive (t : Thread) : (s.setThread t).archive = s.archive := by
  unfold State.setThread; split <;> rfl
@[simp] theorem State.setThread_agenda (t : Thread) : (s.setThread t).agenda = s.agenda := by
  unfold State.setThread; split <;> rfl
@[simp] theorem State.setThread_free (t : Thread) : (s.setThread t).free = s.free := by
  unfold State.setThread; split <;> rfl
@[simp] theorem State.setThread_nextId (t : Thread) : (s.setThread t).nextId = s.nextId := by
  unfold State.setThread; split <;> rfl

@[simp] theorem State.onThread_pre (i : Nat) (f : Thread → Thread) : (s.onThread i f).pre = s.pre := by
  unfold State.onThread; split <;> simp
@[simp] theorem State.onThread_bun (i : Nat) (f : Thread → Thread) : (s.onThread i f).bun = s.bun := by
  unfold State.onThread; split <;> simp
@[simp] theorem State.onThread_mem (i : Nat) (f : Thread → Thread) : (s.onThread i f).mem = s.mem := by
  unfold State.onThread; split <;> simp
@[simp] theorem State.onThread_mem0 (i : Nat) (f : Thread → Thread) : (s.onThread i f).mem0 = s.mem0 := by
  unfold State.onThread; split <;> simp
@[simp] theorem State.onThread_ecc (i : Nat) (f : Thread → Thread) : (s.onThread i f).ecc = s.ecc := by
  unfold State.onThread; split <;> simp
@[simp] theorem State.onThread_late (i : Nat) (f : Thread → Thread) : (s.onThread i f).late = s.late := by
  unfold State.onThread; split <;> simp
@[simp] theorem State.onThread_msgs (i : Nat) (f : Thread → Thread) : (s.onThread i f).msgs = s.msgs := by
  unfold State.onThread; split <;> simp
@[simp] theorem State.onThread_lineKeys (i : Nat) (f : Thread → Thread) : (s.onThread i f).lineKeys = s.lineKeys := by
  unfold State.onThread; split <;> simp
@[simp] theorem State.onThread_views (i : Nat) (f : Thread → Thread) : (s.onThread i f).views = s.views := by
  unfold State.onThread; split <;> simp
@[simp] theorem State.onThread_scLog (i : Nat) (f : Thread → Thread) : (s.onThread i f).scLog = s.scLog := by
  unfold State.onThread; split <;> simp
@[simp] theorem State.onThread_tick (i : Nat) (f : Thread → Thread) : (s.onThread i f).tick = s.tick := by
  unfold State.onThread; split <;> simp
@[simp] theorem State.onThread_wall (i : Nat) (f : Thread → Thread) : (s.onThread i f).wall = s.wall := by
  unfold State.onThread; split <;> simp
@[simp] theorem State.onThread_slots (i : Nat) (f : Thread → Thread) : (s.onThread i f).slots = s.slots := by
  unfold State.onThread; split <;> simp
@[simp] theorem State.onThread_cores (i : Nat) (f : Thread → Thread) : (s.onThread i f).cores = s.cores := by
  unfold State.onThread; split <;> simp
@[simp] theorem State.onThread_dies (i : Nat) (f : Thread → Thread) : (s.onThread i f).dies = s.dies := by
  unfold State.onThread; split <;> simp
@[simp] theorem State.onThread_parts (i : Nat) (f : Thread → Thread) : (s.onThread i f).parts = s.parts := by
  unfold State.onThread; split <;> simp
@[simp] theorem State.onThread_launches (i : Nat) (f : Thread → Thread) : (s.onThread i f).launches = s.launches := by
  unfold State.onThread; split <;> simp
@[simp] theorem State.onThread_groups (i : Nat) (f : Thread → Thread) : (s.onThread i f).groups = s.groups := by
  unfold State.onThread; split <;> simp
@[simp] theorem State.onThread_reqs (i : Nat) (f : Thread → Thread) : (s.onThread i f).reqs = s.reqs := by
  unfold State.onThread; split <;> simp
@[simp] theorem State.onThread_stackPort (i : Nat) (f : Thread → Thread) : (s.onThread i f).stackPort = s.stackPort := by
  unfold State.onThread; split <;> simp
@[simp] theorem State.onThread_parked (i : Nat) (f : Thread → Thread) : (s.onThread i f).parked = s.parked := by
  unfold State.onThread; split <;> simp
@[simp] theorem State.onThread_moves (i : Nat) (f : Thread → Thread) : (s.onThread i f).moves = s.moves := by
  unfold State.onThread; split <;> simp
@[simp] theorem State.onThread_funcs (i : Nat) (f : Thread → Thread) : (s.onThread i f).funcs = s.funcs := by
  unfold State.onThread; split <;> simp
@[simp] theorem State.onThread_cmds (i : Nat) (f : Thread → Thread) : (s.onThread i f).cmds = s.cmds := by
  unfold State.onThread; split <;> simp
@[simp] theorem State.onThread_hostHeld (i : Nat) (f : Thread → Thread) : (s.onThread i f).hostHeld = s.hostHeld := by
  unfold State.onThread; split <;> simp
@[simp] theorem State.onThread_hostReplies (i : Nat) (f : Thread → Thread) : (s.onThread i f).hostReplies = s.hostReplies := by
  unfold State.onThread; split <;> simp
@[simp] theorem State.onThread_mailbox (i : Nat) (f : Thread → Thread) : (s.onThread i f).mailbox = s.mailbox := by
  unfold State.onThread; split <;> simp
@[simp] theorem State.onThread_mgmt (i : Nat) (f : Thread → Thread) : (s.onThread i f).mgmt = s.mgmt := by
  unfold State.onThread; split <;> simp
@[simp] theorem State.onThread_io (i : Nat) (f : Thread → Thread) : (s.onThread i f).io = s.io := by
  unfold State.onThread; split <;> simp
@[simp] theorem State.onThread_kaolin (i : Nat) (f : Thread → Thread) : (s.onThread i f).kaolin = s.kaolin := by
  unfold State.onThread; split <;> simp
@[simp] theorem State.onThread_dz (i : Nat) (f : Thread → Thread) : (s.onThread i f).dz = s.dz := by
  unfold State.onThread; split <;> simp
@[simp] theorem State.onThread_flights (i : Nat) (f : Thread → Thread) : (s.onThread i f).flights = s.flights := by
  unfold State.onThread; split <;> simp
@[simp] theorem State.onThread_touched (i : Nat) (f : Thread → Thread) : (s.onThread i f).touched = s.touched := by
  unfold State.onThread; split <;> simp
@[simp] theorem State.onThread_traps (i : Nat) (f : Thread → Thread) : (s.onThread i f).traps = s.traps := by
  unfold State.onThread; split <;> simp
@[simp] theorem State.onThread_frecs (i : Nat) (f : Thread → Thread) : (s.onThread i f).frecs = s.frecs := by
  unfold State.onThread; split <;> simp
@[simp] theorem State.onThread_reports (i : Nat) (f : Thread → Thread) : (s.onThread i f).reports = s.reports := by
  unfold State.onThread; split <;> simp
@[simp] theorem State.onThread_saved (i : Nat) (f : Thread → Thread) : (s.onThread i f).saved = s.saved := by
  unfold State.onThread; split <;> simp
@[simp] theorem State.onThread_archive (i : Nat) (f : Thread → Thread) : (s.onThread i f).archive = s.archive := by
  unfold State.onThread; split <;> simp
@[simp] theorem State.onThread_agenda (i : Nat) (f : Thread → Thread) : (s.onThread i f).agenda = s.agenda := by
  unfold State.onThread; split <;> simp
@[simp] theorem State.onThread_free (i : Nat) (f : Thread → Thread) : (s.onThread i f).free = s.free := by
  unfold State.onThread; split <;> simp
@[simp] theorem State.onThread_nextId (i : Nat) (f : Thread → Thread) : (s.onThread i f).nextId = s.nextId := by
  unfold State.onThread; split <;> simp

@[simp] theorem State.sched_me (d : Due) (e : Event) : (s.sched d e).me = s.me := by
  unfold State.sched; split; · rfl
  · dsimp only; split; · rfl
    · split <;> rfl
@[simp] theorem State.sched_pre (d : Due) (e : Event) : (s.sched d e).pre = s.pre := by
  unfold State.sched; split; · rfl
  · dsimp only; split; · rfl
    · split <;> rfl
@[simp] theorem State.sched_bun (d : Due) (e : Event) : (s.sched d e).bun = s.bun := by
  unfold State.sched; split; · rfl
  · dsimp only; split; · rfl
    · split <;> rfl
@[simp] theorem State.sched_mem (d : Due) (e : Event) : (s.sched d e).mem = s.mem := by
  unfold State.sched; split; · rfl
  · dsimp only; split; · rfl
    · split <;> rfl
@[simp] theorem State.sched_mem0 (d : Due) (e : Event) : (s.sched d e).mem0 = s.mem0 := by
  unfold State.sched; split; · rfl
  · dsimp only; split; · rfl
    · split <;> rfl
@[simp] theorem State.sched_ecc (d : Due) (e : Event) : (s.sched d e).ecc = s.ecc := by
  unfold State.sched; split; · rfl
  · dsimp only; split; · rfl
    · split <;> rfl
@[simp] theorem State.sched_late (d : Due) (e : Event) : (s.sched d e).late = s.late := by
  unfold State.sched; split; · rfl
  · dsimp only; split; · rfl
    · split <;> rfl
@[simp] theorem State.sched_msgs (d : Due) (e : Event) : (s.sched d e).msgs = s.msgs := by
  unfold State.sched; split; · rfl
  · dsimp only; split; · rfl
    · split <;> rfl
@[simp] theorem State.sched_lineKeys (d : Due) (e : Event) : (s.sched d e).lineKeys = s.lineKeys := by
  unfold State.sched; split; · rfl
  · dsimp only; split; · rfl
    · split <;> rfl
@[simp] theorem State.sched_views (d : Due) (e : Event) : (s.sched d e).views = s.views := by
  unfold State.sched; split; · rfl
  · dsimp only; split; · rfl
    · split <;> rfl
@[simp] theorem State.sched_scLog (d : Due) (e : Event) : (s.sched d e).scLog = s.scLog := by
  unfold State.sched; split; · rfl
  · dsimp only; split; · rfl
    · split <;> rfl
@[simp] theorem State.sched_tick (d : Due) (e : Event) : (s.sched d e).tick = s.tick := by
  unfold State.sched; split; · rfl
  · dsimp only; split; · rfl
    · split <;> rfl
@[simp] theorem State.sched_wall (d : Due) (e : Event) : (s.sched d e).wall = s.wall := by
  unfold State.sched; split; · rfl
  · dsimp only; split; · rfl
    · split <;> rfl
@[simp] theorem State.sched_slots (d : Due) (e : Event) : (s.sched d e).slots = s.slots := by
  unfold State.sched; split; · rfl
  · dsimp only; split; · rfl
    · split <;> rfl
@[simp] theorem State.sched_threads (d : Due) (e : Event) : (s.sched d e).threads = s.threads := by
  unfold State.sched; split; · rfl
  · dsimp only; split; · rfl
    · split <;> rfl
@[simp] theorem State.sched_cores (d : Due) (e : Event) : (s.sched d e).cores = s.cores := by
  unfold State.sched; split; · rfl
  · dsimp only; split; · rfl
    · split <;> rfl
@[simp] theorem State.sched_parts (d : Due) (e : Event) : (s.sched d e).parts = s.parts := by
  unfold State.sched; split; · rfl
  · dsimp only; split; · rfl
    · split <;> rfl
@[simp] theorem State.sched_launches (d : Due) (e : Event) : (s.sched d e).launches = s.launches := by
  unfold State.sched; split; · rfl
  · dsimp only; split; · rfl
    · split <;> rfl
@[simp] theorem State.sched_groups (d : Due) (e : Event) : (s.sched d e).groups = s.groups := by
  unfold State.sched; split; · rfl
  · dsimp only; split; · rfl
    · split <;> rfl
@[simp] theorem State.sched_reqs (d : Due) (e : Event) : (s.sched d e).reqs = s.reqs := by
  unfold State.sched; split; · rfl
  · dsimp only; split; · rfl
    · split <;> rfl
@[simp] theorem State.sched_stackPort (d : Due) (e : Event) : (s.sched d e).stackPort = s.stackPort := by
  unfold State.sched; split; · rfl
  · dsimp only; split; · rfl
    · split <;> rfl
@[simp] theorem State.sched_parked (d : Due) (e : Event) : (s.sched d e).parked = s.parked := by
  unfold State.sched; split; · rfl
  · dsimp only; split; · rfl
    · split <;> rfl
@[simp] theorem State.sched_moves (d : Due) (e : Event) : (s.sched d e).moves = s.moves := by
  unfold State.sched; split; · rfl
  · dsimp only; split; · rfl
    · split <;> rfl
@[simp] theorem State.sched_funcs (d : Due) (e : Event) : (s.sched d e).funcs = s.funcs := by
  unfold State.sched; split; · rfl
  · dsimp only; split; · rfl
    · split <;> rfl
@[simp] theorem State.sched_cmds (d : Due) (e : Event) : (s.sched d e).cmds = s.cmds := by
  unfold State.sched; split; · rfl
  · dsimp only; split; · rfl
    · split <;> rfl
@[simp] theorem State.sched_hostHeld (d : Due) (e : Event) : (s.sched d e).hostHeld = s.hostHeld := by
  unfold State.sched; split; · rfl
  · dsimp only; split; · rfl
    · split <;> rfl
@[simp] theorem State.sched_hostReplies (d : Due) (e : Event) : (s.sched d e).hostReplies = s.hostReplies := by
  unfold State.sched; split; · rfl
  · dsimp only; split; · rfl
    · split <;> rfl
@[simp] theorem State.sched_mailbox (d : Due) (e : Event) : (s.sched d e).mailbox = s.mailbox := by
  unfold State.sched; split; · rfl
  · dsimp only; split; · rfl
    · split <;> rfl
@[simp] theorem State.sched_mgmt (d : Due) (e : Event) : (s.sched d e).mgmt = s.mgmt := by
  unfold State.sched; split; · rfl
  · dsimp only; split; · rfl
    · split <;> rfl
@[simp] theorem State.sched_io (d : Due) (e : Event) : (s.sched d e).io = s.io := by
  unfold State.sched; split; · rfl
  · dsimp only; split; · rfl
    · split <;> rfl
@[simp] theorem State.sched_kaolin (d : Due) (e : Event) : (s.sched d e).kaolin = s.kaolin := by
  unfold State.sched; split; · rfl
  · dsimp only; split; · rfl
    · split <;> rfl
@[simp] theorem State.sched_dz (d : Due) (e : Event) : (s.sched d e).dz = s.dz := by
  unfold State.sched; split; · rfl
  · dsimp only; split; · rfl
    · split <;> rfl
@[simp] theorem State.sched_flights (d : Due) (e : Event) : (s.sched d e).flights = s.flights := by
  unfold State.sched; split; · rfl
  · dsimp only; split; · rfl
    · split <;> rfl
@[simp] theorem State.sched_touched (d : Due) (e : Event) : (s.sched d e).touched = s.touched := by
  unfold State.sched; split; · rfl
  · dsimp only; split; · rfl
    · split <;> rfl
@[simp] theorem State.sched_traps (d : Due) (e : Event) : (s.sched d e).traps = s.traps := by
  unfold State.sched; split; · rfl
  · dsimp only; split; · rfl
    · split <;> rfl
@[simp] theorem State.sched_frecs (d : Due) (e : Event) : (s.sched d e).frecs = s.frecs := by
  unfold State.sched; split; · rfl
  · dsimp only; split; · rfl
    · split <;> rfl
@[simp] theorem State.sched_reports (d : Due) (e : Event) : (s.sched d e).reports = s.reports := by
  unfold State.sched; split; · rfl
  · dsimp only; split; · rfl
    · split <;> rfl
@[simp] theorem State.sched_saved (d : Due) (e : Event) : (s.sched d e).saved = s.saved := by
  unfold State.sched; split; · rfl
  · dsimp only; split; · rfl
    · split <;> rfl
@[simp] theorem State.sched_archive (d : Due) (e : Event) : (s.sched d e).archive = s.archive := by
  unfold State.sched; split; · rfl
  · dsimp only; split; · rfl
    · split <;> rfl
@[simp] theorem State.sched_free (d : Due) (e : Event) : (s.sched d e).free = s.free := by
  unfold State.sched; split; · rfl
  · dsimp only; split; · rfl
    · split <;> rfl
@[simp] theorem State.sched_nextId (d : Due) (e : Event) : (s.sched d e).nextId = s.nextId := by
  unfold State.sched; split; · rfl
  · dsimp only; split; · rfl
    · split <;> rfl

@[simp] theorem State.schedIn_me (d n r : Nat) (e : Event) : (s.schedIn d n r e).me = s.me := by
  simp [State.schedIn]
@[simp] theorem State.schedIn_pre (d n r : Nat) (e : Event) : (s.schedIn d n r e).pre = s.pre := by
  simp [State.schedIn]
@[simp] theorem State.schedIn_bun (d n r : Nat) (e : Event) : (s.schedIn d n r e).bun = s.bun := by
  simp [State.schedIn]
@[simp] theorem State.schedIn_mem (d n r : Nat) (e : Event) : (s.schedIn d n r e).mem = s.mem := by
  simp [State.schedIn]
@[simp] theorem State.schedIn_mem0 (d n r : Nat) (e : Event) : (s.schedIn d n r e).mem0 = s.mem0 := by
  simp [State.schedIn]
@[simp] theorem State.schedIn_ecc (d n r : Nat) (e : Event) : (s.schedIn d n r e).ecc = s.ecc := by
  simp [State.schedIn]
@[simp] theorem State.schedIn_late (d n r : Nat) (e : Event) : (s.schedIn d n r e).late = s.late := by
  simp [State.schedIn]
@[simp] theorem State.schedIn_msgs (d n r : Nat) (e : Event) : (s.schedIn d n r e).msgs = s.msgs := by
  simp [State.schedIn]
@[simp] theorem State.schedIn_lineKeys (d n r : Nat) (e : Event) : (s.schedIn d n r e).lineKeys = s.lineKeys := by
  simp [State.schedIn]
@[simp] theorem State.schedIn_views (d n r : Nat) (e : Event) : (s.schedIn d n r e).views = s.views := by
  simp [State.schedIn]
@[simp] theorem State.schedIn_scLog (d n r : Nat) (e : Event) : (s.schedIn d n r e).scLog = s.scLog := by
  simp [State.schedIn]
@[simp] theorem State.schedIn_tick (d n r : Nat) (e : Event) : (s.schedIn d n r e).tick = s.tick := by
  simp [State.schedIn]
@[simp] theorem State.schedIn_wall (d n r : Nat) (e : Event) : (s.schedIn d n r e).wall = s.wall := by
  simp [State.schedIn]
@[simp] theorem State.schedIn_slots (d n r : Nat) (e : Event) : (s.schedIn d n r e).slots = s.slots := by
  simp [State.schedIn]
@[simp] theorem State.schedIn_threads (d n r : Nat) (e : Event) : (s.schedIn d n r e).threads = s.threads := by
  simp [State.schedIn]
@[simp] theorem State.schedIn_cores (d n r : Nat) (e : Event) : (s.schedIn d n r e).cores = s.cores := by
  simp [State.schedIn]
@[simp] theorem State.schedIn_parts (d n r : Nat) (e : Event) : (s.schedIn d n r e).parts = s.parts := by
  simp [State.schedIn]
@[simp] theorem State.schedIn_launches (d n r : Nat) (e : Event) : (s.schedIn d n r e).launches = s.launches := by
  simp [State.schedIn]
@[simp] theorem State.schedIn_groups (d n r : Nat) (e : Event) : (s.schedIn d n r e).groups = s.groups := by
  simp [State.schedIn]
@[simp] theorem State.schedIn_reqs (d n r : Nat) (e : Event) : (s.schedIn d n r e).reqs = s.reqs := by
  simp [State.schedIn]
@[simp] theorem State.schedIn_stackPort (d n r : Nat) (e : Event) : (s.schedIn d n r e).stackPort = s.stackPort := by
  simp [State.schedIn]
@[simp] theorem State.schedIn_parked (d n r : Nat) (e : Event) : (s.schedIn d n r e).parked = s.parked := by
  simp [State.schedIn]
@[simp] theorem State.schedIn_moves (d n r : Nat) (e : Event) : (s.schedIn d n r e).moves = s.moves := by
  simp [State.schedIn]
@[simp] theorem State.schedIn_funcs (d n r : Nat) (e : Event) : (s.schedIn d n r e).funcs = s.funcs := by
  simp [State.schedIn]
@[simp] theorem State.schedIn_cmds (d n r : Nat) (e : Event) : (s.schedIn d n r e).cmds = s.cmds := by
  simp [State.schedIn]
@[simp] theorem State.schedIn_hostHeld (d n r : Nat) (e : Event) : (s.schedIn d n r e).hostHeld = s.hostHeld := by
  simp [State.schedIn]
@[simp] theorem State.schedIn_hostReplies (d n r : Nat) (e : Event) : (s.schedIn d n r e).hostReplies = s.hostReplies := by
  simp [State.schedIn]
@[simp] theorem State.schedIn_mailbox (d n r : Nat) (e : Event) : (s.schedIn d n r e).mailbox = s.mailbox := by
  simp [State.schedIn]
@[simp] theorem State.schedIn_mgmt (d n r : Nat) (e : Event) : (s.schedIn d n r e).mgmt = s.mgmt := by
  simp [State.schedIn]
@[simp] theorem State.schedIn_io (d n r : Nat) (e : Event) : (s.schedIn d n r e).io = s.io := by
  simp [State.schedIn]
@[simp] theorem State.schedIn_kaolin (d n r : Nat) (e : Event) : (s.schedIn d n r e).kaolin = s.kaolin := by
  simp [State.schedIn]
@[simp] theorem State.schedIn_dz (d n r : Nat) (e : Event) : (s.schedIn d n r e).dz = s.dz := by
  simp [State.schedIn]
@[simp] theorem State.schedIn_flights (d n r : Nat) (e : Event) : (s.schedIn d n r e).flights = s.flights := by
  simp [State.schedIn]
@[simp] theorem State.schedIn_touched (d n r : Nat) (e : Event) : (s.schedIn d n r e).touched = s.touched := by
  simp [State.schedIn]
@[simp] theorem State.schedIn_traps (d n r : Nat) (e : Event) : (s.schedIn d n r e).traps = s.traps := by
  simp [State.schedIn]
@[simp] theorem State.schedIn_frecs (d n r : Nat) (e : Event) : (s.schedIn d n r e).frecs = s.frecs := by
  simp [State.schedIn]
@[simp] theorem State.schedIn_reports (d n r : Nat) (e : Event) : (s.schedIn d n r e).reports = s.reports := by
  simp [State.schedIn]
@[simp] theorem State.schedIn_saved (d n r : Nat) (e : Event) : (s.schedIn d n r e).saved = s.saved := by
  simp [State.schedIn]
@[simp] theorem State.schedIn_archive (d n r : Nat) (e : Event) : (s.schedIn d n r e).archive = s.archive := by
  simp [State.schedIn]
@[simp] theorem State.schedIn_free (d n r : Nat) (e : Event) : (s.schedIn d n r e).free = s.free := by
  simp [State.schedIn]
@[simp] theorem State.schedIn_nextId (d n r : Nat) (e : Event) : (s.schedIn d n r e).nextId = s.nextId := by
  simp [State.schedIn]

@[simp] theorem State.schedWall_me (n : Nat) (e : Event) : (s.schedWall n e).me = s.me := by
  simp [State.schedWall]
@[simp] theorem State.schedWall_pre (n : Nat) (e : Event) : (s.schedWall n e).pre = s.pre := by
  simp [State.schedWall]
@[simp] theorem State.schedWall_bun (n : Nat) (e : Event) : (s.schedWall n e).bun = s.bun := by
  simp [State.schedWall]
@[simp] theorem State.schedWall_mem (n : Nat) (e : Event) : (s.schedWall n e).mem = s.mem := by
  simp [State.schedWall]
@[simp] theorem State.schedWall_mem0 (n : Nat) (e : Event) : (s.schedWall n e).mem0 = s.mem0 := by
  simp [State.schedWall]
@[simp] theorem State.schedWall_ecc (n : Nat) (e : Event) : (s.schedWall n e).ecc = s.ecc := by
  simp [State.schedWall]
@[simp] theorem State.schedWall_late (n : Nat) (e : Event) : (s.schedWall n e).late = s.late := by
  simp [State.schedWall]
@[simp] theorem State.schedWall_msgs (n : Nat) (e : Event) : (s.schedWall n e).msgs = s.msgs := by
  simp [State.schedWall]
@[simp] theorem State.schedWall_lineKeys (n : Nat) (e : Event) : (s.schedWall n e).lineKeys = s.lineKeys := by
  simp [State.schedWall]
@[simp] theorem State.schedWall_views (n : Nat) (e : Event) : (s.schedWall n e).views = s.views := by
  simp [State.schedWall]
@[simp] theorem State.schedWall_scLog (n : Nat) (e : Event) : (s.schedWall n e).scLog = s.scLog := by
  simp [State.schedWall]
@[simp] theorem State.schedWall_tick (n : Nat) (e : Event) : (s.schedWall n e).tick = s.tick := by
  simp [State.schedWall]
@[simp] theorem State.schedWall_wall (n : Nat) (e : Event) : (s.schedWall n e).wall = s.wall := by
  simp [State.schedWall]
@[simp] theorem State.schedWall_slots (n : Nat) (e : Event) : (s.schedWall n e).slots = s.slots := by
  simp [State.schedWall]
@[simp] theorem State.schedWall_threads (n : Nat) (e : Event) : (s.schedWall n e).threads = s.threads := by
  simp [State.schedWall]
@[simp] theorem State.schedWall_cores (n : Nat) (e : Event) : (s.schedWall n e).cores = s.cores := by
  simp [State.schedWall]
@[simp] theorem State.schedWall_parts (n : Nat) (e : Event) : (s.schedWall n e).parts = s.parts := by
  simp [State.schedWall]
@[simp] theorem State.schedWall_launches (n : Nat) (e : Event) : (s.schedWall n e).launches = s.launches := by
  simp [State.schedWall]
@[simp] theorem State.schedWall_groups (n : Nat) (e : Event) : (s.schedWall n e).groups = s.groups := by
  simp [State.schedWall]
@[simp] theorem State.schedWall_reqs (n : Nat) (e : Event) : (s.schedWall n e).reqs = s.reqs := by
  simp [State.schedWall]
@[simp] theorem State.schedWall_stackPort (n : Nat) (e : Event) : (s.schedWall n e).stackPort = s.stackPort := by
  simp [State.schedWall]
@[simp] theorem State.schedWall_parked (n : Nat) (e : Event) : (s.schedWall n e).parked = s.parked := by
  simp [State.schedWall]
@[simp] theorem State.schedWall_moves (n : Nat) (e : Event) : (s.schedWall n e).moves = s.moves := by
  simp [State.schedWall]
@[simp] theorem State.schedWall_funcs (n : Nat) (e : Event) : (s.schedWall n e).funcs = s.funcs := by
  simp [State.schedWall]
@[simp] theorem State.schedWall_cmds (n : Nat) (e : Event) : (s.schedWall n e).cmds = s.cmds := by
  simp [State.schedWall]
@[simp] theorem State.schedWall_hostHeld (n : Nat) (e : Event) : (s.schedWall n e).hostHeld = s.hostHeld := by
  simp [State.schedWall]
@[simp] theorem State.schedWall_hostReplies (n : Nat) (e : Event) : (s.schedWall n e).hostReplies = s.hostReplies := by
  simp [State.schedWall]
@[simp] theorem State.schedWall_mailbox (n : Nat) (e : Event) : (s.schedWall n e).mailbox = s.mailbox := by
  simp [State.schedWall]
@[simp] theorem State.schedWall_mgmt (n : Nat) (e : Event) : (s.schedWall n e).mgmt = s.mgmt := by
  simp [State.schedWall]
@[simp] theorem State.schedWall_io (n : Nat) (e : Event) : (s.schedWall n e).io = s.io := by
  simp [State.schedWall]
@[simp] theorem State.schedWall_kaolin (n : Nat) (e : Event) : (s.schedWall n e).kaolin = s.kaolin := by
  simp [State.schedWall]
@[simp] theorem State.schedWall_dz (n : Nat) (e : Event) : (s.schedWall n e).dz = s.dz := by
  simp [State.schedWall]
@[simp] theorem State.schedWall_flights (n : Nat) (e : Event) : (s.schedWall n e).flights = s.flights := by
  simp [State.schedWall]
@[simp] theorem State.schedWall_touched (n : Nat) (e : Event) : (s.schedWall n e).touched = s.touched := by
  simp [State.schedWall]
@[simp] theorem State.schedWall_traps (n : Nat) (e : Event) : (s.schedWall n e).traps = s.traps := by
  simp [State.schedWall]
@[simp] theorem State.schedWall_frecs (n : Nat) (e : Event) : (s.schedWall n e).frecs = s.frecs := by
  simp [State.schedWall]
@[simp] theorem State.schedWall_reports (n : Nat) (e : Event) : (s.schedWall n e).reports = s.reports := by
  simp [State.schedWall]
@[simp] theorem State.schedWall_saved (n : Nat) (e : Event) : (s.schedWall n e).saved = s.saved := by
  simp [State.schedWall]
@[simp] theorem State.schedWall_archive (n : Nat) (e : Event) : (s.schedWall n e).archive = s.archive := by
  simp [State.schedWall]
@[simp] theorem State.schedWall_free (n : Nat) (e : Event) : (s.schedWall n e).free = s.free := by
  simp [State.schedWall]
@[simp] theorem State.schedWall_nextId (n : Nat) (e : Event) : (s.schedWall n e).nextId = s.nextId := by
  simp [State.schedWall]

end Sys2Proof.Machine
end

