-- ==== Sys2Proof/Laws/Memory.lean ====
section
/-! SUPPORT. The canonical memory: every operation keeps its form, a read after a write gives the bytes written, and a
write leaves every other byte alone. -/

namespace Sys2Proof.Machine

/-! ### One cell -/

theorem Memory.wf_nil : Memory.wf [] := ⟨List.Pairwise.nil, by simp⟩

theorem Memory.wf_tail {c : Host.Cell} {m : List Host.Cell} (h : Memory.wf (c :: m)) : Memory.wf m :=
  ⟨(List.pairwise_cons.mp h.1).2, fun x hx => h.2 x (List.mem_cons_of_mem _ hx)⟩

theorem Memory.wf_cons_iff {c : Host.Cell} {m : List Host.Cell} :
    Memory.wf (c :: m) ↔ (∀ x ∈ m, c.1 < x.1) ∧ c.2 ≠ Config.blank ∧ Memory.wf m := by
  constructor
  · intro h
    exact ⟨(List.pairwise_cons.mp h.1).1, h.2 c (by simp), Memory.wf_tail h⟩
  · rintro ⟨h1, h2, h3⟩
    refine ⟨List.pairwise_cons.mpr ⟨h1, h3.1⟩, ?_⟩
    intro x hx
    rcases List.mem_cons.mp hx with rfl | hx
    · exact h2
    · exact h3.2 x hx

theorem Memory.wf_filter {m : List Host.Cell} (p : Host.Cell → Bool) (h : Memory.wf m) : Memory.wf (m.filter p) :=
  ⟨h.1.filter p, fun c hc => h.2 c (List.mem_filter.mp hc).1⟩

/-- A cell of the result is a cell of the list or the one written. -/
theorem mem_memSet {m : List Host.Cell} {k : Nat} {v : Byte} {c : Host.Cell} (h : c ∈ memSet m k v) :
    c ∈ m ∨ c = (k, v) := by
  induction m with
  | nil =>
    simp only [memSet] at h
    split at h <;> simp_all
  | cons a m ih =>
    obtain ⟨x, y⟩ := a
    simp only [memSet] at h
    split at h
    · split at h
      · exact .inl h
      · rcases List.mem_cons.mp h with h | h
        · exact .inr h
        · exact .inl h
    · split at h
      · split at h
        · exact .inl (List.mem_cons_of_mem _ h)
        · rcases List.mem_cons.mp h with h | h
          · exact .inr h
          · exact .inl (List.mem_cons_of_mem _ h)
      · rcases List.mem_cons.mp h with h | h
        · exact .inl (by simp [h])
        · rcases ih h with h | h
          · exact .inl (List.mem_cons_of_mem _ h)
          · exact .inr h

/-- Writing a byte keeps the canonical form. -/
theorem memSet_wf {m : List Host.Cell} (k : Nat) (v : Byte) (h : Memory.wf m) : Memory.wf (memSet m k v) := by
  induction m with
  | nil =>
    simp only [memSet]
    split
    · exact h
    · exact Memory.wf_cons_iff.mpr ⟨by simp, by assumption, Memory.wf_nil⟩
  | cons a m ih =>
    obtain ⟨x, y⟩ := a
    obtain ⟨h1, h2, h3⟩ := Memory.wf_cons_iff.mp h
    simp only [memSet]
    split
    · split
      · exact h
      · refine Memory.wf_cons_iff.mpr ⟨?_, by assumption, h⟩
        intro c hc
        rcases List.mem_cons.mp hc with rfl | hc
        · assumption
        · exact Nat.lt_trans ‹k < x› (h1 c hc)
    · split
      · subst k
        split
        · exact h3
        · exact Memory.wf_cons_iff.mpr ⟨h1, by assumption, h3⟩
      · refine Memory.wf_cons_iff.mpr ⟨?_, h2, ih h3⟩
        intro c hc
        rcases mem_memSet hc with hc | rfl
        · exact h1 c hc
        · show x < k
          omega

/-- Nothing is listed at a key below the whole list. -/
theorem memGet_below {m : List Host.Cell} {k : Nat} (h : ∀ c ∈ m, k < c.1) : memGet m k = Config.blank := by
  cases m with
  | nil => rfl
  | cons a m => simp [memGet, h a (by simp)]

/-- The byte written is the byte read. -/
theorem memGet_memSet_same {m : List Host.Cell} (k : Nat) (v : Byte) (h : Memory.wf m) :
    memGet (memSet m k v) k = v := by
  induction m with
  | nil =>
    simp only [memSet]
    split <;> simp_all [memGet]
  | cons a m ih =>
    obtain ⟨x, y⟩ := a
    obtain ⟨h1, h2, h3⟩ := Memory.wf_cons_iff.mp h
    simp only [memSet]
    split
    · split
      · simp_all [memGet]
      · simp [memGet]
    · split
      · subst k
        split
        · rename_i hv
          rw [hv]
          exact memGet_below h1
        · simp [memGet]
      · rename_i hx hk
        simp [memGet, hx, hk, ih h3]

/-- Every other byte reads as before. -/
theorem memGet_memSet_other {m : List Host.Cell} {k j : Nat} (v : Byte) (h : Memory.wf m) (hj : j ≠ k) :
    memGet (memSet m k v) j = memGet m j := by
  induction m with
  | nil =>
    simp only [memSet]
    split
    · rfl
    · by_cases hlt : j < k <;> simp [memGet, hj, hlt]
  | cons a m ih =>
    obtain ⟨x, y⟩ := a
    obtain ⟨h1, h2, h3⟩ := Memory.wf_cons_iff.mp h
    simp only [memSet]
    split
    · split
      · rfl
      · rename_i hx _
        by_cases hlt : j < k
        · have : j < x := by omega
          simp [memGet, hlt, this]
        · simp [memGet, hj, hlt]
    · split
      · rename_i hk
        have hjx : j ≠ x := by omega
        split
        · by_cases hlt : j < x
          · rw [memGet_below (fun c hc => Nat.lt_trans hlt (h1 c hc))]
            simp [memGet, hlt]
          · simp [memGet, hlt, hjx]
        · by_cases hlt : j < x <;> simp [memGet, hk, hlt, hjx]
      · by_cases hlt : j < x <;> by_cases hjx : j = x <;> simp [memGet, hlt, hjx, ih h3]

theorem memGet_memSet {m : List Host.Cell} (k j : Nat) (v : Byte) (h : Memory.wf m) :
    memGet (memSet m k v) j = if j = k then v else memGet m j := by
  by_cases hj : j = k
  · subst hj; simp [memGet_memSet_same _ _ h]
  · simp [hj, memGet_memSet_other v h hj]

/-! ### Ranges -/

theorem memWrite_wf {m : List Host.Cell} (k n v : Nat) (h : Memory.wf m) : Memory.wf (memWrite m k n v) := by
  induction n generalizing m k v with
  | zero => exact h
  | succ n ih => exact ih _ _ (memSet_wf _ _ h)

/-- A write of n bytes from k puts byte i of the number at k + i and leaves every other byte. -/
theorem memGet_memWrite {m : List Host.Cell} (k n v j : Nat) (h : Memory.wf m) :
    memGet (memWrite m k n v) j =
      if k ≤ j ∧ j < k + n then BitVec.ofNat 8 (v / 256 ^ (j - k)) else memGet m j := by
  induction n generalizing m k v with
  | zero =>
    rw [if_neg (by omega)]
    rfl
  | succ n ih =>
    simp only [memWrite]
    rw [ih _ _ (memSet_wf _ _ h), memGet_memSet _ _ _ h]
    by_cases h1 : j = k
    · subst h1
      rw [if_neg (by omega), if_pos rfl, if_pos (by omega)]
      simp
    · by_cases h2 : k ≤ j ∧ j < k + (n + 1)
      · rw [if_pos (by omega), if_pos h2, Nat.div_div_eq_div_mul]
        have : j - k = j - (k + 1) + 1 := by omega
        rw [this, Nat.pow_succ, Nat.mul_comm 256]
      · rw [if_neg (by omega), if_neg h1, if_neg h2]

theorem memClear_wf {m : List Host.Cell} (k n : Nat) (h : Memory.wf m) : Memory.wf (memClear m k n) :=
  Memory.wf_filter _ h

/-- Cells made canonical are canonical, whatever they were. -/
theorem canonCells_wf (l : List Host.Cell) : Memory.wf (canonCells l) := by
  induction l with
  | nil => exact Memory.wf_nil
  | cons c r ih =>
    simp only [canonCells]
    split
    · split
      · exact Memory.wf_nil
      · exact Memory.wf_cons_iff.mpr ⟨by simp, by assumption, Memory.wf_nil⟩
    · rename_i d t hd
      rw [hd] at ih
      split
      · rename_i hc
        simp only [ne_eq, Bool.and_eq_true, decide_eq_true_eq] at hc
        refine Memory.wf_cons_iff.mpr ⟨?_, by simp_all, ih⟩
        intro x hx
        rcases List.mem_cons.mp hx with rfl | hx
        · simp_all
        · have := (Memory.wf_cons_iff.mp ih).1 x hx
          simp_all
          omega
      · exact ih

/-- Every cell made canonical is one of the cells. -/
theorem mem_canonCells {l : List Host.Cell} {c : Host.Cell} (h : c ∈ canonCells l) : c ∈ l := by
  induction l with
  | nil => simp [canonCells] at h
  | cons a r ih =>
    simp only [canonCells] at h
    split at h
    · split at h <;> simp_all
    · rename_i d t hd
      rw [hd] at ih
      split at h
      · rcases List.mem_cons.mp h with rfl | h
        · simp
        · exact List.mem_cons_of_mem _ (ih h)
      · exact List.mem_cons_of_mem _ (ih h)

/-- Two canonical lists, all of the first below all of the second, make a canonical list. -/
theorem Memory.wf_append {a b : List Host.Cell} (ha : Memory.wf a) (hb : Memory.wf b)
    (h : ∀ x ∈ a, ∀ y ∈ b, x.1 < y.1) : Memory.wf (a ++ b) :=
  ⟨List.pairwise_append.mpr ⟨ha.1, hb.1, h⟩, fun c hc => (List.mem_append.mp hc).elim (ha.2 c) (hb.2 c)⟩

theorem memSplice_wf {m : List Host.Cell} (k n : Nat) (bytes : List (Nat × Byte)) (h : Memory.wf m) :
    Memory.wf (memSplice m k n bytes) := by
  have key : ∀ c ∈ canonCells ((((bytes.filter (fun b => decide (b.1 < n))).map (fun b => (k + b.1, b.2))).mergeSort
      (fun a b => decide (a.1 ≤ b.1)))), k ≤ c.1 ∧ c.1 < k + n := by
    intro c hc
    have := mem_canonCells hc
    rw [List.mem_mergeSort] at this
    simp only [List.mem_map, List.mem_filter, decide_eq_true_eq] at this
    obtain ⟨b, ⟨_, hb⟩, rfl⟩ := this
    exact ⟨Nat.le_add_right _ _, Nat.add_lt_add_left hb _⟩
  refine Memory.wf_append (Memory.wf_append (Memory.wf_filter _ h) (canonCells_wf _) ?_) (Memory.wf_filter _ h) ?_
  · intro x hx y hy
    have h1 := (List.mem_filter.mp hx).2
    have h2 := key y hy
    simp only [decide_eq_true_eq] at h1
    omega
  · intro x hx y hy
    have h2 := (List.mem_filter.mp hy).2
    simp only [decide_eq_true_eq] at h2
    rcases List.mem_append.mp hx with hx | hx
    · have h1 := (List.mem_filter.mp hx).2
      simp only [decide_eq_true_eq] at h1
      omega
    · have h1 := key x hx
      omega

/-! ### The memory operations of the state -/

/-- Every operation that changes memory keeps its form. -/
theorem State.store_wf {s : State} {w : Nat} (k n : Nat) (v : BitVec w) (h : Memory.wf s.mem) :
    Memory.wf (s.store k n v).mem := memWrite_wf _ _ _ h
theorem State.clear_wf {s : State} (k n : Nat) (h : Memory.wf s.mem) : Memory.wf (s.clear k n).mem :=
  memClear_wf _ _ h
theorem State.splice_wf {s : State} (k n : Nat) (b : List (Nat × Byte)) (h : Memory.wf s.mem) :
    Memory.wf (s.splice k n b).mem := memSplice_wf _ _ _ h

/-- The memory after reset is canonical: it lists nothing. -/
theorem State.reset_wf : Memory.wf State.reset.mem := Memory.wf_nil

/-- What a store writes, byte by byte. -/
theorem State.memGet_store {s : State} {w : Nat} (k n : Nat) (v : BitVec w) (j : Nat) (h : Memory.wf s.mem) :
    memGet (s.store k n v).mem j =
      if k ≤ j ∧ j < k + n then BitVec.ofNat 8 (v.toNat / 256 ^ (j - k)) else memGet s.mem j :=
  memGet_memWrite _ _ _ _ h

end Sys2Proof.Machine
end

