-- ==== Sys2Proof/Tests/Slice0.lean ====
section
/-! SUPPORT. Tests: operand checks, words decoded, single instructions on small states, and for each statement with
hypotheses a state and operands that meet them. -/

set_option Elab.async false

namespace Sys2Proof.Tests

open Sys2Proof Sys2Proof.Machine

/-! ### Ill-formed operands, one for each check of `legal` -/

theorem test_illformed_scalar :
    ([.li 1 0 (some 0x10000), .clog 0 4 0 0 0 0, .clog 0 3 0 0 1 0, .clog 0 3 0 0 0 1, .loop 0 1 0, .loop 0 1 0x400, .bar 7,
      .exit 7, .frame 7, .sysr 1 0x00C 0, .sysr 1 0x011 1, .sysw 1 0x3FF 0, .sysw 1 0x020 1, .xfv 1 0 5 0 0, .xfv 1 0 0 1 0,
      .xfv 1 0 1 2 0, .xfv 1 0 2 3 0] : List Instr).all (fun i => !i.wf) = true := by decide

theorem test_illformed_access :
    ([.ldB 1 1 3 0 0, .ldH 1 1 1 0 0x20, .ldW 1 1 3 0 0, .ldD 1 1 2 0 0, .ldzB 1 1 3 0 0, .ldzH 1 1 1 0 0x80, .ldzW 1 1 2 0 0,
      .stB 1 1 3 0 0, .stH 1 1 3 0 0, .stW 1 1 1 0 0xFF, .stD 1 1 3 0 0, .ldv 1 1 3 0 0, .stv 1 1 1 0 0x40, .ldvs 1 1 1 0 0 0,
      .stvs 1 1 3 0 0 0, .gld 1 1 3 0 0, .gst 1 1 3 0 0, .ldk 1 1 3 0 0, .stk 1 1 3 0 0, .afx 0 1 0 5, .afx 1 1 0 1, .afx 0 1 1 4,
      .peer 0 1 0 0 0 3, .peer 0 1 1 1 0 0, .peer 1 1 0 0 1 0, .efx 1 0 0 5, .efx 1 1 0 2, .rld 16 1 0 1, .rst 8 1 0 3] :
      List Instr).all (fun i => !i.wf) = true := by decide

theorem test_illformed_atomics :
    ([.amo 17 1 0 0 1 0 none, .amo 1 1 0 0 0 3 none, .amo 1 1 0 13 0 0 none, .amo 1 1 0 9 0 0 none, .amo 1 1 0 10 1 0 none,
      .amo 1 1 16 0 1 0 none, .amo 1 1 0 0 0 0 (some 0x200000), .amo 1 1 0 0 0 0 (some 1), .amo 1 1 0 0 0 0 (some 0x10000),
      .amo 1 1 0 0 0 0 (some 0x800), .amo 1 1 0 0 0 0 (some 0x100), .amo 1 1 0 0 0 0 (some 0x80), .ramo 1 1 0 2 0 0 none,
      .ramo 1 1 0 1 0 10 (some 0x80)] : List Instr).all (fun i => !i.wf) = true := by decide

theorem test_illformed_floats :
    ([.vfadd 0 0 0 0 3, .vfsub 0 0 0 0 3, .vfmul 0 0 0 0 7, .vfma 0 0 0 0 3, .vfnma 0 0 0 0 4, .vfmin 0 0 0 0 3, .vfmax 0 0 0 0 3,
      .vfabs 0 0 0 3, .vfneg 0 0 0 3, .vfcps 0 0 0 0 3, .vfrcp 0 0 0 3, .vfrsq 0 0 0 3, .vfsqrt 0 0 0 3, .vfdiv 0 0 0 0 3,
      .vfexp2 0 0 0 3, .vflog2 0 0 0 5] : List Instr).all (fun i => !i.wf) = true := by decide

theorem test_illformed_integers :
    ([.vadd 0 0 0 0 2 0 0, .vsub 0 0 0 0 6 0 0, .vmul 0 0 0 0 7 0 0, .vmulh 0 0 0 0 0 0, .vmadw 0 0 0 0 3 0 0, .vmin 0 0 0 0 2 0,
      .vmax 0 0 0 0 6 0, .vshl 0 0 0 0 2, .vshr 0 0 0 0 6, .vsar 0 0 0 0 0, .vabs 0 0 0 2 0, .vsat 0 0 0 0 5 0 0, .vfx 0 0 0 1,
      .vfx 0 0 3 1, .vslide 0 0 0 0 0 3 0, .vpack 0 0 0 0 0 0, .vpack 0 0 0 0 3 0, .vpack 0 0 0 0 2 1, .vunpk 0 0 0 6 0 0,
      .vunpk 0 0 0 1 0 1, .vcvt 0 0 1 0 0 3 0 0, .vcvt 0 0 0 0 0 0 0 0, .vcvt 0 0 0 0 0 1 2 0, .vcvt 0 0 0 0 0 1 0 1] :
      List Instr).all (fun i => !i.wf) = true := by decide

theorem test_illformed_masks :
    ([.vqnt 0 0 0 0 3 0 0, .vqnt 0 0 0 0 4 2 0, .vqnt 0 0 0 0 6 0 1, .vdqnt 0 0 0 0 0 0 0, .vdqnt 0 0 0 0 3 0 0,
      .vdqnt 0 0 0 0 1 2 0, .vred 0 0 0 6 0 0, .vred 0 0 0 0 3 0, .vscan 0 0 0 0 0 1, .vkey 0 0 0 0 2 0 0 0, .vkey 0 0 0 0 1 1 0 0,
      .kop 0 0 0 5, .kop 0 0 1 4, .kfirst 0 0 3, .kset 0 65 0, .vmm 0 0 0 0 6 0, .vmm 0 0 0 0 0 6, .vshlImm 0 0 2 0 0,
      .vshlImm 0 0 4 0 16, .vshrImm 0 0 5 0 8, .vsarImm 0 0 6 0 0, .vslideImm 0 0 0 0 65] : List Instr).all
      (fun i => !i.wf) = true := by decide

theorem test_illformed_engines :
    ([.qset 0 0 15 0, .mdrn 0 3 0 0, .mldc 0 3 0 0, .pwin 0 0 3 0 1, .pwin 1 0 0 0 1, .pwin 0 0 0 0 0, .pldw 0 0 0 0, .plaunch 0 0 0,
      .pcap 0 0 0, .prst 0 0, .cpyt 0 0 1 0 0 1 0 0, .cpyt 0 0 0 0 0 0 1 0, .cpyt 0 0 0 0 0 0 0 1, .wait 0 1 0 0 0, .wait 0 0 0 1 1,
      .test 0 0 0 1, .cancel 0 0 1, .tlwait 0 0 0 1, .tlrd 0 0 2 0 0 0, .tlrd 0 1 12 0 0 0, .tlrd 0 0 0 0 0 1, .spawn 1 0 0 0 0 0,
      .spawn 0 31 1 0 0 0, .xlinv 0 1 1] : List Instr).all (fun i => !i.wf) = true := by decide

theorem test_wellformed_bounds :
    ([.loop 0 1 1, .bar 6, .kset 0 64 0, .kfirst 0 0 2, .spawn 0 31 0 0 0 0, .spawn 0 0 15 0 0 0, .vslideImm 0 0 0 0 64,
      .vshlImm 0 0 4 0 15, .qset 0 0 14 0, .tlrd 0 1 11 0 0 0, .ldD 2 1 2 0 0, .ldW 1 1 1 0 0x1F] : List Instr).all
      (fun i => i.wf) = true := by decide

/-! ### A word of every syllable, its fields at the places the opcode table gives them, each at a value of its own -/

def readsAs (l : List (BitVec 32 × Instr)) : Bool := l.all (fun p => decode? [p.1] == some p.2)
theorem test_words_S_1 :
  readsAs
    [(0x80000000, .nop), (0x80319540, .add 17 18 21), (0x80519540, .sub 17 18 21), (0x80719540, .mul 17 18 21),
     (0x80919540, .mulh 17 18 21), (0x80B19540, .mulhb 17 18 21), (0x80D19540, .div 17 18 21),
     (0x80F19540, .divb 17 18 21), (0x81119540, .rem 17 18 21), (0x81319540, .remb 17 18 21),
     (0x81519540, .and 17 18 21), (0x81719540, .or 17 18 21), (0x81919540, .xor 17 18 21),
     (0x81B19540, .andn 17 18 21), (0x81D19540, .shl 17 18 21), (0x81F19540, .shr 17 18 21),
     (0x82119540, .sar 17 18 21), (0x82319540, .rol 17 18 21), (0x82519540, .min 17 18 21),
     (0x82719540, .max 17 18 21), (0x82919540, .minb 17 18 21), (0x82B19540, .maxb 17 18 21),
     (0x84319415, .addImm 17 18 0x415), (0x84519415, .subImm 17 18 0x415), (0x84719415, .mulImm 17 18 0x415),
     (0x84919415, .mulhImm 17 18 0x415), (0x84B19415, .mulhbImm 17 18 0x415), (0x84D19415, .divImm 17 18 0x415),
     (0x84F19415, .divbImm 17 18 0x415), (0x85119415, .remImm 17 18 0x415), (0x85319415, .rembImm 17 18 0x415),
     (0x85519415, .andImm 17 18 0x415), (0x85719415, .orImm 17 18 0x415), (0x85919415, .xorImm 17 18 0x415),
     (0x85B19415, .andnImm 17 18 0x415), (0x85D19015, .shlImm 17 18 21), (0x85F19015, .shrImm 17 18 21),
     (0x86119015, .sarImm 17 18 21), (0x86319015, .rolImm 17 18 21), (0x86519415, .minImm 17 18 0x415)] = true := by decide +kernel
theorem test_words_S_2 :
  readsAs
    [(0x86719415, .maxImm 17 18 0x415), (0x86919415, .minbImm 17 18 0x415), (0x86B19415, .maxbImm 17 18 0x415),
     (0x82D19000, .clz 17 18), (0x82F19000, .ctz 17 18), (0x83119000, .popc 17 18), (0x83319000, .brev 17 18),
     (0x83519015, .sext 17 18 21), (0x83719553, .ext 17 18 21 19), (0x83919553, .ins 17 18 21 19),
     (0x83B19556, .sel 17 18 21 1 6), (0x87118009, .li 17 0x8009 none), (0x87455676, .cmp 1 2 21 19 22),
     (0x87654D20, .clog 1 2 1 3 0 9), (0x88028015, .br 1 0 0x8015), (0x88220005, .jmp 0x20005 none),
     (0x88620005, .call 0x20005 none), (0x88408800, .jmpr 17), (0x88800000, .ret), (0x88A192A6, .loop 1 18 678),
     (0x88C00005, .bar 5), (0x88E00005, .exit 5), (0x89008005, .trap 0x8005), (0x89408005, .brk 0x8005),
     (0x89200000, .rte), (0x8A114081, .sysr 17 258 1), (0x8A310401, .sysw 17 16 1), (0x8A400005, .frame 5),
     (0x8B111001, .xfa 17 2 1), (0x8B511001, .xfe 17 2 1), (0x8B311396, .xfv 17 2 3 2 22)] = true := by decide +kernel
theorem test_words_A :
  readsAs
    [(0x90092BB5, .ldB 9 2 2 3 181), (0x90292BB5, .ldH 9 2 2 3 181), (0x90492BB5, .ldW 9 2 2 3 181),
     (0x90692BB5, .ldD 9 2 2 3 181), (0x90892BB5, .ldzB 9 2 2 3 181), (0x90A92BB5, .ldzH 9 2 2 3 181),
     (0x90C92BB5, .ldzW 9 2 2 3 181), (0x91092BB5, .stB 9 2 2 3 181), (0x91292BB5, .stH 9 2 2 3 181),
     (0x91492BB5, .stW 9 2 2 3 181), (0x91692BB5, .stD 9 2 2 3 181), (0x92092BB5, .ldv 9 2 2 3 181),
     (0x92292BB5, .stv 9 2 2 3 181), (0x92412BD9, .ldvs 1 2 2 3 6 25), (0x92612BD9, .stvs 1 2 2 3 6 25),
     (0x92812266, .gld 1 2 2 3 6), (0x92A12266, .gst 1 2 2 3 6), (0x92C12BB5, .ldk 1 2 2 3 181),
     (0x92E12BB5, .stk 1 2 2 3 181), (0x94025015, .aadd 1 2 0x1015), (0x94221009, .ali 1 0x1009 none),
     (0x94512A80, .afx 17 2 21 0), (0x94602AB0, .peer 0 2 21 0 1 2), (0x9509231E, .amo 9 2 6 3 1 2 none),
     (0x96062B80, .rld 6 2 5 3), (0x96262B80, .rst 6 2 5 3), (0x96492A83, .ramo 9 2 5 1 0 3 none)] = true := by decide +kernel
theorem test_words_V_1 :
  readsAs
    [(0xA0024AD0, .vfadd 1 2 5 3 2), (0xA0224AD0, .vfsub 1 2 5 3 2), (0xA0424AD0, .vfmul 1 2 5 3 2),
     (0xA0624AD0, .vfma 1 2 5 3 2), (0xA0824AD0, .vfnma 1 2 5 3 2), (0xA0A24AD0, .vfmin 1 2 5 3 2),
     (0xA0C24AD0, .vfmax 1 2 5 3 2), (0xA0E24150, .vfabs 1 2 5 2), (0xA1024150, .vfneg 1 2 5 2),
     (0xA1224AD0, .vfcps 1 2 5 3 2), (0xA1424AC4, .vfcmp 1 2 5 3 2), (0xA2024150, .vfrcp 1 2 5 2),
     (0xA2224150, .vfrsq 1 2 5 2), (0xA2424150, .vfsqrt 1 2 5 2), (0xA2624AD0, .vfdiv 1 2 5 3 2),
     (0xA2824150, .vfexp2 1 2 5 2), (0xA2A24150, .vflog2 1 2 5 2), (0xA4024AEA, .vadd 1 2 5 3 5 1 0),
     (0xA4224AEA, .vsub 1 2 5 3 5 1 0), (0xA4424AEA, .vmul 1 2 5 3 5 1 0), (0xA4624AE9, .vmulh 1 2 5 3 5 1),
     (0xA4824AEA, .vmadw 1 2 5 3 5 1 0), (0xA4A24AE9, .vmin 1 2 5 3 5 1), (0xA4C24AE9, .vmax 1 2 5 3 5 1),
     (0xA4E24AC0, .vand 1 2 5 3), (0xA5024AC0, .vor 1 2 5 3), (0xA5224AC0, .vxor 1 2 5 3),
     (0xA5424AE8, .vshl 1 2 5 3 5), (0xA5624AE8, .vshr 1 2 5 3 5), (0xA5824AE8, .vsar 1 2 5 3 5),
     (0xA5A24ADD, .vcmp 1 2 5 3 2 1), (0xA5C24168, .vabs 1 2 5 5 0), (0xA5E24AE2, .vsat 1 2 5 3 4 1 0),
     (0xA8024140, .vmov 1 2 5), (0xA8221253, .vfx 1 18 1 19), (0xA8424AF0, .vperm 1 2 5 3 6),
     (0xA8624AF4, .vslide 1 2 5 3 6 2 0), (0xA8824AC0, .vsel 1 2 5 3), (0xA8A24AE1, .vpack 1 2 5 3 4 1),
     (0xA8C24161, .vunpk 1 2 5 4 0 1)] = true := by decide +kernel
theorem test_words_V_2 :
  readsAs
    [(0xA8E259AB, .vcvt 1 2 1 4 6 5 1 1), (0xA9024AED, .vqnt 1 2 5 3 5 2 1), (0xA9224AED, .vdqnt 1 2 5 3 5 2 1),
     (0xA942416D, .vred 1 2 5 5 2 1), (0xA962416D, .vscan 1 2 5 5 2 1), (0xA9824ADD, .vkey 1 2 5 3 3 1 0 1),
     (0xAA024A03, .kop 1 2 5 3), (0xAA224001, .kpop 1 2 1), (0xAA424002, .kfirst 1 2 2), (0xAA625201, .kset 1 41 1),
     (0xAC024AEA, .vmm 1 2 5 3 5 2), (0xAE024CD6, .vshlImm 1 2 3 3 22), (0xAE224CD5, .vshrImm 1 2 3 3 21),
     (0xAE424CDA, .vsarImm 1 2 3 3 26), (0xAE625682, .vslideImm 1 2 5 1 130), (0xAE820815, .vmovImm 1 0 0x815)] = true := by decide +kernel
theorem test_words_M :
  readsAs
    [(0xB0064D8D, .qset 1 18 13 141), (0xB0264095, .qld 1 18 149), (0xB0464095, .qst 1 18 149), (0xB0600000, .mown),
     (0xB0600001, .mownRel), (0xB2052B99, .mmul 1 2 5 3 153), (0xB2252B99, .mmuls 1 2 5 3 153),
     (0xB2452B99, .mmrot 1 2 5 3 153), (0xB2600A00, .mzero 1 2), (0xB2852B00, .mdrn 1 2 5 3),
     (0xB2A52B00, .mldc 1 2 5 3), (0xB4005305, .pwin 1 0 2 3 5), (0xB4258501, .pldw 1 6 5 1),
     (0xB4458500, .plaunch 1 6 5), (0xB4658500, .pcap 1 6 5), (0xB4640201, .pcapList 1 2), (0xB4818200, .prst 6 2)] = true := by decide +kernel
theorem test_words_N :
  readsAs
    [(0xC000A000, .send 1 2), (0xC0242000, .recv 1 2), (0xC0401000, .pbind 1), (0xC0401001, .pbindRel 1),
     (0xC1065500, .efx 1 18 21 0), (0xC20255C0, .cpy 1 2 5 3 2), (0xC22259D3, .cpyt 1 2 6 3 2 1 0 3),
     (0xC24255C9, .gath 1 2 5 3 2 9), (0xC26255C9, .scat 1 2 5 3 2 9), (0xC4220AE0, .sig 1 2 5 3),
     (0xC3050017, .wait 1 2 1 3 1), (0xC3250016, .test 1 2 1 3), (0xC344001A, .cancel 1 1 5),
     (0xC3640056, .tlwait 1 2 1 3), (0xC3841972, .tlrd 1 1 9 3 1 1), (0xC4040000, .fenceRel 1),
     (0xC4010000, .fenceAcq), (0xC4060000, .fenceSc 1), (0xC50C593D, .spawn 6 5 9 3 6 1),
     (0xC5240125, .fanout 1 18 5), (0xC5400000, .trig), (0xC5620000, .migr 1), (0xC5620001, .migrHome 1),
     (0xC5808000, .yield 1), (0xC602010A, .coll 1 2 5), (0xC7008400, .handoff 1 2), (0xC724000A, .xlinv 1 0 5)] = true := by decide +kernel
theorem test_words_both_halves : readsAs [(0x94712AB0, .peer 17 2 21 0 1 2)] = false ∧
    readsAs [(0x94712050, .peer 17 2 0 1 0 2), (0xC7240010, .xlinv 1 1 0)] = true := by decide +kernel
/-- The syllables that an X syllable extends (R67-R69), and an X syllable of the other kind after one. -/
theorem test_words_extended :
    decode [0x87118007#32, 0x5000ABCD#32] = .ok (.li 17 0x8007 (some 0xABCD)) ∧
    decode [0x88220005#32, 0x53FFFFFF#32] = .ok (.jmp 0x20005 (some 0x3FFFFFF)) ∧
    decode [0x88620005#32, 0x50000001#32] = .ok (.call 0x20005 (some 1)) ∧
    decode [0x942A1ABC#32, 0x51234567#32] = .ok (.ali 5 0x1ABC (some 0x1234567)) ∧
    decode [0x9509334A#32, 0x54003800#32] = .ok (.amo 9 3 6 9 0 2 (some 0x3800)) ∧
    decode [0x9648349A#32, 0x54000380#32] = .ok (.ramo 8 3 2 1 1 10 (some 0x380)) ∧
    decode [0x9509334A#32, 0x50003800#32] = .error .extension ∧ decode [0x9509334A#32] = .error .value :=
  ⟨rfl, rfl, rfl, rfl, rfl, rfl, rfl, rfl⟩

/-! ### Words written out bit by bit

START [31], class [30:28], opcode [27:21], then the fields of the format (R63, R76). -/

/-- SR: xd [20:16], xs1 [15:11], xs2 [10:6], fn [5:0] (R178). -/
theorem test_decode_add : decode [0b1_000_0000001_00101_00101_00111_000000#32] = .ok (.add 5 5 7) := rfl
/-- SI: xd, xs1, simm11 (R178). -/
theorem test_decode_addi : decode [0b1_000_0100001_00111_00111_00000000001#32] = .ok (.addImm 7 7 1) := rfl
/-- SB: c [20:17], negate [16], soff16 (R186). -/
theorem test_decode_br : decode [0b1_000_1000000_0011_1_1111111111111110#32] = .ok (.br 3 1 0xFFFE) := rfl
/-- AM: register [20:16], base [15:12], mode [11:10], space [9:8], offset [7:0] (R204). -/
theorem test_decode_ldv : decode [0b0_001_0010000_00011_0111_00_01_11110000#32] = .ok (.ldv 3 7 0 1 0xF0) := rfl
/-- AA: ad [20:17], as [16:13], simm13 (R213). -/
theorem test_decode_aadd : decode [0b0_001_0100000_0010_0110_1111111111111#32] = .ok (.aadd 2 6 0x1FFF) := rfl
/-- VR: vd [20:17], vs1 [16:13], vs2 [12:9], k [8:6], type [5:3], fn [2:0] (R233). -/
theorem test_decode_vfadd : decode [0b0_010_0000000_0101_0110_0110_011_010_000#32] = .ok (.vfadd 5 6 6 3 2) := rfl
/-- R254 and R255: KFIRST of the lowest bit, and KSET of 64 lanes, inverted. -/
theorem test_decode_kset : decode [0b0_010_1010011_0010_01000000_00000000_1#32] = .ok (.kset 2 64 1) := rfl
/-- M class: A [20:18], B [17:15], tile [14:11], handle [10:8], K / 32 − 1 (R328). -/
theorem test_decode_mmul : decode [0b0_011_0010000_001_010_0111_011_00000111#32] = .ok (.mmul 1 2 7 3 7) := rfl
/-- N class: e [17:15], port [14:12] (R267). -/
theorem test_decode_send : decode [0b0_100_0000000_000_010_101_000000000000#32] = .ok (.send 2 5) := rfl
/-- The issue stamp: class 5, NX [20], stamp [19:0] (R57). -/
theorem test_decode_stamp : decode [0b0_101_1100000_1_00000000000000001111#32] = .ok (.issueStamp 1 15) := rfl

/-! ### Small states -/

/-- A user thread of launch 1, at the bundle that `withFetchWord` places. -/
def user : Thread := { Thread.init with tid := 2, lid := 1, st := .running, pc := 0x10000 }
/-- The same with every register of x and a that a test reads at a value of its own. -/
def busy : Thread := { user with
  x := #v[0, 0x10000, 0x10002, 4, 5, 6, 7, 8, 9, 10, 11, 12, 13, 14, 15, 16, 17, 18, 19, 20, 21, 22, 23, 24, 25, 26, 27, 28, 29, 30,
    31, 0x10000]
  a := #v[0, 256, 98296, 98304, 4, 2, 8, 98048, 0x4000, 0, 0, 0, 0, 0, 0, 0] }
/-- A supervisor turn of control core 0 of I/O die 16. -/
def keeper : Thread := { user with die := 16, core := 256, priv := .supervisor }

def plant : State := State.reset.withFetchWord 32 0x802529C0
def pair0 : Partition := { newPartition 0 [0, 1] [0, 1] 0 with root := 0x1000 }
def upDie (d : Nat) : Die := { Die.init d with up := true, routerOk := true, cyc := 8, base := 8 }
def held (c : Nat) : Core := { Core.init 0 c with owner := some 1 }

/-- A partition of two dies that runs launch 1 on cores 0 and 1 of its first die, with a thread in the issue stage. -/
def world (m : Thread) : State :=
  { plant with me := m, pre := m, threads := [m], slots := [], parts := [pair0], cores := [held 0, held 1]
               dies := [upDie 0, upDie 1], nextId := 10 }

/-- The address is fetched and starts a bundle, or does not. -/
def startBit (s : State) (a : W64) : Option Bool :=
  match s.fetchPacket s.pre (packetAddr a) with
  | (.ok p, _) => some ((packetWord p a).getLsbD 31)
  | _ => none
theorem startsBundle_of (s : State) (a : W64) (h4 : a.toNat % 4 = 0) (h : startBit s a = some true) : ∃ t, StartsBundle s a t := by
  unfold startBit at h
  split at h
  · next p t e => exact ⟨t, h4, p, e, by simpa using h⟩
  · simp at h
theorem startsNone_of (s : State) (a : W64) (h : startBit s a = some false) : ∃ t, StartsNone s a t := by
  unfold startBit at h
  split at h
  · next p t e => exact ⟨t, p, e, .inr (by simpa using h)⟩
  · simp at h

/-- An access is done, fails, or has a place. -/
def isDone {α : Type} (r : Access α × State) : Bool := match r.1 with | .done _ => true | _ => false
theorem done_of {α : Type} (r : Access α × State) (h : isDone r = true) : ∃ v t, r = (.done v, t) := by
  obtain ⟨a, t⟩ := r
  cases a <;> simp_all [isDone]
def isFail {α : Type} (r : Access α × State) : Bool := match r.1 with | .fail .. => true | _ => false
theorem fail_of {α : Type} (r : Access α × State) (h : isFail r = true) : ∃ c a t, r = (.fail c a, t) := by
  obtain ⟨a, t⟩ := r
  cases a <;> simp_all [isFail]
def isOk (r : Place × State) : Bool := match r.1 with | .ok .. => true | _ => false
theorem ok_of (r : Place × State) (h : isOk r = true) : ∃ k x t, r = (.ok k x, t) := by
  obtain ⟨a, t⟩ := r
  cases a <;> simp_all [isOk]

/-- When no listed die stands still, none does. -/
theorem runs_all (s : State) (h : s.dies.all (fun k => !k.stopped) = true) (e : Nat) : (s.getDie e).stopped = false := by
  unfold State.getDie
  cases f : s.dies.find? (fun k => k.die == e) with
  | none => rfl
  | some k =>
    have m := List.mem_of_find?_eq_some f
    have := List.all_eq_true.mp h k m
    simpa using this

/-! ### Hypotheses of the statements that can be met -/

theorem test_hyps_selectionsConditionsCopies : (0#2).toNat < 2 ∧ (1#2).toNat < 2 := by decide

theorem test_hyps_controlTransfers :
    let s := world busy
    ((s.rc 0) != (0#1 == 1)) = false ∧ ((s.rc 0) != (1#1 == 1)) = true ∧ s.bun.stop = .none ∧
    s.pre.pc + BitVec.ofInt 64 (4 * (0#16).toInt) = 0x10000 ∧ s.pre.pc + BitVec.ofInt 64 (4 * (1#16).toInt) = 0x10004 ∧
    s.pre.pc + BitVec.ofInt 64 (4 * (0#18).toInt) = 0x10000 ∧ s.pre.pc + BitVec.ofInt 64 (4 * (1#18).toInt) = 0x10004 ∧
    s.pre.pc + BitVec.ofInt 64 (4 * (0#26 ++ 0#18).toInt) = 0x10000 ∧ s.pre.pc + BitVec.ofInt 64 (4 * (0#11).toInt) = 0x10000 ∧
    (s.rx 1).toNat % 4 = 0 ∧ BitVec.ofNat 64 (s.pre.pc.toNat / 2 ^ 32 * 2 ^ 32 + (s.rx 1).toNat) = 0x10000 ∧
    (s.rx 2).toNat % 4 ≠ 0 ∧ (s.rx 31).toNat % 4 = 0 ∧
    ((world { user with x := Vector.replicate 32 1 }).rx 31).toNat % 4 ≠ 0 := by decide +kernel
theorem test_hyps_controlTransfers_starts : ∃ t, StartsBundle (world busy) 0x10000 t :=
  startsBundle_of _ _ (by decide) (by decide +kernel)
theorem test_hyps_controlTransfers_none : ∃ t, StartsNone (world busy) 0x10004 t := startsNone_of _ _ (by decide +kernel)

def hereAt (r : Except (BitVec 8) SyncPlace) (k : Nat) : Bool := match r with | .ok (.here j) => j == k | _ => false
theorem here_of (r : Except (BitVec 8) SyncPlace) (k : Nat) (h : hereAt r k = true) : r = .ok (.here k) := by
  unfold hereAt at h
  split at h <;> simp_all
theorem scan_of (r : Scan × State) (h : r.1.stop = none) : r = (⟨r.1.ok, none⟩, r.2) := by
  obtain ⟨⟨p, q⟩, t⟩ := r
  simp_all
def isNext (r : Host.Outcome State Fault Refusal) : Bool := match r with | .next _ => true | _ => false
theorem next_of (r : Host.Outcome State Fault Refusal) (h : isNext r = true) : ∃ t, r = .next t := by
  cases r <;> simp_all [isNext]

/-- A user thread with identifier fields of one bit at level 1. -/
def member : Thread := { user with widf := 1 }
def groupAt (kind : GroupKind) (l : Nat) : Group :=
  { gid := 5, lid := 1, level := l, key := groupKey 1 0 l, kind := kind, arrived := [2], complete := true, starts := [(0, 0)]
    lastDie := 0, ids := [] }

theorem test_hyps_groupOperations :
    let s := world member
    let t := { s with groups := [groupAt .barrier 1, groupAt .frame 1] }
    levelShift s.pre.widf (1#3).toNat ≠ 0 ∧ s.pre.stamped = false ∧ levelShift s.pre.widf (6#3).toNat ≠ 0 ∧
    t.arrivedAt? t.pre .barrier (1#3).toNat = some (groupAt .barrier 1) ∧ (groupAt .barrier 1).complete = true ∧
    s.arrivedAt? s.pre .barrier (1#3).toNat = none ∧
    t.arrivedAt? t.pre .frame (1#3).toNat = some (groupAt .frame 1) ∧
    (groupAt .frame 1).starts.find? (fun x => x.1 == t.pre.die) = some (t.pre.die, 0) ∧ 0 ≤ t.cycleReg t.pre.die ∧
    s.unreported? s.pre.tid = none ∧ s.me.tid = s.pre.tid ∧ s.pre.tid ≠ 0 := by decide +kernel

theorem test_hyps_trapAndBreak :
    let s := world { user with tvec := 3 }
    let t := world { user with tvec := 3, tcause := 0x80000000 }
    s.me.priv ≠ .plugin ∧ Memory.wf s.mem ∧ s.me.tcause.getLsbD 31 = false ∧ s.me.tvec.getLsbD 0 = true ∧
    s.me.tvec.getLsbD 1 = true ∧ t.me.tcause.getLsbD 31 = true ∧ Memory.wf t.mem ∧
    (world user).me.tvec.getLsbD 0 = false ∧ (Instr.trap 0, tcTrap, 0) ∈ [(Instr.trap 0, tcTrap, 0), (Instr.brk 0, tcBreak, 1)] := by
  decide +kernel

theorem test_hyps_trapsToTheControlCores :
    (world user).pre.priv ≠ .plugin ∧ tcAlign ≠ tcTrap ∧ tcAlign ≠ tcBreak ∧ tcAlign ≠ tcHandleFault ∧ 4 < 5 ∧ 7 < 8 := by
  decide +kernel

/-- A thread in its handler, whose resumption address is its own bundle. -/
def handler : Thread := { user with tcause := 0x80000011, tpc := 0x10000 }

theorem test_hyps_returnFromTrap :
    (world user).pre.priv.isSys = false ∧ (world user).pre.tcause.getLsbD 31 = false ∧
    (world handler).pre.tcause.getLsbD 31 = true ∧ (world handler).bun.stop = .none ∧
    (world { user with priv := .system }).pre.priv.isSys = true ∧
    (world { user with st := .trapped }).me.tid ≠ 0 ∧ (world { user with st := .trapped }).me.st = .trapped := by
  decide +kernel
theorem test_hyps_returnFromTrap_starts : ∃ t, StartsBundle (world handler) (world handler).pre.tpc t :=
  startsBundle_of _ _ (by decide +kernel) (by decide +kernel)

theorem test_hyps_systemRegisterReads :
    (world user).pre.onControl = false ∧ (world keeper).pre.onControl = true ∧ (world keeper).pre.priv.isSys = true ∧
    (world { keeper with priv := .plugin }).pre.priv.isSys = false ∧
    (world { keeper with priv := .plugin }).pre.onControl = true ∧
    5 < 6 ∧ 1 < 2 ∧ 7 < 8 ∧ 3 < 4 ∧ 12 < 13 ∧ 0x2FF < 0x300 := by decide +kernel

theorem test_hyps_systemRegisterWrites :
    (world user).pre.priv ≠ .plugin ∧ (world user).pre.priv.isSys = false ∧ (world keeper).pre.priv.isSys = true ∧
    (world keeper).pre.priv = .supervisor ∧ (world keeper).pre.onControl = true ∧
    (world { keeper with priv := .plugin }).pre.priv = .plugin ∧ (world { keeper with priv := .plugin }).pre.onControl = true ∧
    1 < 2 ∧ 7 < 8 ∧ 11 < 12 ∧ 3 < 4 ∧ 0xFF < 0x100 ∧ 1023 < 1024 := by decide +kernel

theorem test_hyps_pluginCalls :
    (0#32).toNat % 4 = 0 ∧ (0xFFFFFC#32).toNat % 4 = 0 ∧ (0xFFFFFC#32).toNat < (world keeper).me.abSize ∧
    (1#32).toNat % 4 ≠ 0 ∧ (world keeper).me.abSize ≤ (0x1000000#32).toNat ∧
    (world { keeper with priv := .plugin }).me.priv = .plugin ∧ (world { keeper with priv := .plugin }).me.tid ≠ 0 := by
  decide +kernel

theorem test_hyps_ownBufferAddresses :
    let s := world busy
    s.pre.onControl = false ∧ (2#2).toNat < 3 ∧ s.pre.offReq = none ∧ (s.amAddr 0 (5#4).toNat 0 4).toNat % 4 ≠ 0 ∧
    (s.amAddr 0 (3#4).toNat 0 4).toNat % 4 = 0 ∧
    ([196608, 98304, 65536] : List Nat)[(1#2).toNat]?.getD 0 < (s.amAddr 0 (3#4).toNat 0 4).toNat + 4 := by decide +kernel

/-- Every size at offset 0x4000 of AB, and a vector that ends where AB ends. -/
theorem test_hyps_loads :
    let s := world busy
    let reads := fun (size align : Nat) =>
      hereAt (s.syncPlace 1 (s.amAddr 0 8 0 size) size align .read) (bufKey 0 0 1 0x4000) = true ∧
      s.eccRead (bufKey 0 0 1 0x4000) size = false
    reads 1 1 ∧ reads 2 2 ∧ reads 4 4 ∧ reads 8 8 ∧ reads 256 8 ∧
    hereAt (s.syncPlace 1 (s.amAddr 0 7 0 256) 256 8 .read) (bufKey 0 0 1 98048) = true := by decide +kernel
theorem test_hyps_stores :
    let s := world busy
    let writes := fun (size align : Nat) =>
      hereAt (s.syncPlace 1 (s.amAddr 0 8 0 size) size align .write) (bufKey 0 0 1 0x4000) = true ∧
      s.eccWrite (bufKey 0 0 1 0x4000) size = false
    Memory.wf s.mem ∧ writes 1 1 ∧ writes 2 2 ∧ writes 4 4 ∧ writes 8 8 ∧ writes 256 8 := by decide +kernel

/-- Sixty-four lanes from offset 256 of WB, 4 bytes apart, under k0; an indexed transfer whose indices are 0. -/
theorem test_hyps_laneTransfers :
    let s := world busy
    Memory.wf s.mem ∧ ∀ l, l < 64 → (s.rk 0).getLsbD l = true ∧
      hereAt (s.syncPlace 0 (s.ra 1 + BitVec.ofNat 64 l * BitVec.ofInt 64 (s.rx 3).toInt) 4 4 .read) (bufKey 0 0 0 (256 + 4 * l)) = true ∧
      hereAt (s.syncPlace 0 (s.ra 1 + BitVec.ofNat 64 l * BitVec.ofInt 64 (s.rx 3).toInt) 4 4 .write) (bufKey 0 0 0 (256 + 4 * l)) = true ∧
      hereAt (s.syncPlace 0 (s.ra 1 + BitVec.ofNat 64 (elem 32 (s.rv 0) l).toNat) 4 4 .read) (bufKey 0 0 0 256) = true ∧
      hereAt (s.syncPlace 0 (s.ra 1 + BitVec.ofNat 64 (elem 32 (s.rv 0) l).toNat) 4 4 .write) (bufKey 0 0 0 256) = true ∧
      s.eccRead (bufKey 0 0 0 (256 + 4 * l)) 4 = false ∧ s.eccWrite (bufKey 0 0 0 (256 + 4 * l)) 4 = false := by
  decide +kernel

theorem test_hyps_addressRegisters : (4#4).toNat < 5 ∧ (4#3).toNat < 5 ∧ (world user).pre.priv ≠ .plugin := by decide +kernel

theorem test_hyps_localAtomics :
    let s := world busy
    Memory.wf s.mem ∧ hereAt (s.syncPlace ((0#2).toNat + 1) (s.ra 1) 8 8 .atomic) (bufKey 0 0 1 256) = true ∧
    s.eccRead (bufKey 0 0 1 256) 8 = false ∧ ¬ (0#2 = 2#2 ∧ addrBuf (s.ra 1) = 0) ∧
    2 ^ 32 - 1 < 2 ^ 32 ∧ (extraOp none).ord.getLsbD 1 = false ∧ (0#4 ≠ 10#4) ∧ (15#5).toNat < 16 ∧ 16 ≤ (16#5).toNat := by
  decide +kernel

theorem test_hyps_remoteOperations :
    let full := world { busy with rcOps := List.range' 1 16 }
    (world { busy with priv := .plugin }).pre.priv = .plugin ∧ (world busy).pre.priv ≠ .plugin ∧ (world busy).bun.stop = .none ∧
    (world { busy with rcOps := List.range' 1 15 }).pre.outstanding.length < 16 ∧ ((world busy).ra 1).toNat % 8 = 0 ∧
    ((world busy).ra 5).toNat % 4 ≠ 0 ∧ full.pre.priv ≠ .plugin ∧ full.bun.stop = .none ∧ 16 ≤ full.pre.outstanding.length ∧
    (1#2).toNat < 2 := by decide +kernel

/-- A remote operation of the thread on 4 bytes of the AB of core 1. -/
def peerReq (kind : ReqKind) (sync : Bool) : Req :=
  { (default : Req) with
    rid := 7, iss := { (default : Issue) with num := 1, tid := 2, lid := 1 }, kind := kind, sync := sync
    addrs := [0x8000A00000000000#64], size := 4, reg := 31, todo := 1 }
def asking (kind : ReqKind) (sync : Bool) : State :=
  { world { user with offReq := some 7 } with reqs := [peerReq kind sync] }

theorem test_hyps_requestsAndReplies :
    ∀ kind, kind ∈ [ReqKind.load, ReqKind.store] → ∀ sync, sync ∈ [false, true] →
      let s := asking kind sync
      let q := peerReq kind sync
      let r := s.scanReq q
      s.getReq? 7 = some q ∧ q.applied = false ∧ (∀ r, r ∈ s.reqs → r.rid ∈ q.after → r.applied = true) ∧
      s.sameBefore q = false ∧ r.1.stop = none ∧ r.1.ok.length = 1 ∧ (∀ p, p ∈ r.1.ok → p.num = 0 ∧ 2 ^ 72 ≤ p.key) ∧
      r.2.activityOf q.iss.die (r.1.ok.map (fun p => p.key)) = none ∧ q.kind ≠ .atomic ∧ q.unit = q.size ∧ q.result = 0 ∧
      Memory.wf r.2.mem ∧
      s.getThread? q.iss.tid = some s.me ∧ s.me.offReq = some 7 ∧ q.iss.tid ≠ 0 ∧ s.me.tid = q.iss.tid ∧
      s.me.die = q.iss.die ∧ s.me.core = q.iss.core ∧ s.me.st ≠ .exited ∧ q.fault = none ∧ q.noDeliver = false ∧ q.file = 0 ∧
      q.reg < 32 := by decide +kernel

theorem test_hyps_patternsRoundToThemselves :
    Fmt.f32.isIeee = true ∧ 0 < 2 ^ Fmt.f32.width ∧ 0 / 2 ^ Fmt.f32.fracBits % 2 ^ Fmt.f32.expBits ≠ 2 ^ Fmt.f32.expBits - 1 ∧
    255 < 256 ∧ 255 ≠ 128 ∧ 63 < 64 ∧ 63 ≠ 32 := by decide
theorem test_hyps_roundingModes : 0 < 1 ∧ 2 ^ 32 - 1 < 2 ^ 32 := by decide

theorem test_hyps_vectorFloat : (world user).pre.onControl = false ∧ (0#3).toNat < 3 ∧ (2#3).toNat < 3 := by decide +kernel
theorem test_hyps_vectorIntegers :
    (world user).pre.onControl = false ∧ 3 ≤ (3#3).toNat ∧ (5#3).toNat ≤ 5 ∧ (4#3).toNat ≠ 3 ∧ (4#3).toNat ≠ 5 := by
  decide +kernel
theorem test_hyps_vectorMoves : (world user).pre.onControl = false ∧ (64#9).toNat ≤ 64 := by decide +kernel
theorem test_hyps_vectorConversions :
    (world user).pre.onControl = false ∧ (1 ≤ (1#3).toNat ∧ (1#3).toNat ≤ 5 ∧ (1#3).toNat ≠ 3) ∧ 3 < (5#3).toNat ∧
    4 ≤ (7#3).toNat ∧ (5#3).toNat ≤ 5 ∧ 1 ≤ (7#3).toNat ∧ (7#3).toNat ≠ 3 := by decide +kernel
theorem test_hyps_reductionsAndScans :
    (world user).pre.onControl = false ∧ (2#2).toNat < 3 ∧ (Fmt.ofCode 3 false).isInt = true ∧ (Fmt.ofCode 3 false).width ≤ 32 := by
  decide +kernel

/-- Key parameters in lanes 0 to 2 of v1, v2 and v3: offset 1.0, scale 1.0, and a window of 1, 255 and 256. -/
def keyed : Thread := { user with
  v := wr (wr (wr (Vector.replicate 16 0) 1 0x000000013F8000003F800000) 2 0x000000FF3F8000003F800000) 3 0x000001003F8000003F800000 }
theorem test_hyps_keysAndMasks :
    let w := fun (r : Nat) => (elem 32 ((world keyed).rv r) 2).toNat
    (world keyed).pre.onControl = false ∧ 1 ≤ w 1 ∧ w 1 < 256 ∧ 1 ≤ w 2 ∧ w 2 < 256 ∧ w 0 = 0 ∧ 256 ≤ w 3 ∧
    fDecode .f32 (elem 32 ((world keyed).rv 1) 1).toNat = .fin false 0x800000 (-23) ∧ 0x800000 ≠ 0 ∧
    decodeNum .f32 (elem 32 ((world keyed).rv 1) 0).toNat = .fin false 0x800000 (-23) := by decide +kernel

theorem test_hyps_maskSyllables :
    let s := world { user with k := #v[0, 0x8000000000000000, 1, 0, 0, 0, 0, 0] }
    s.pre.onControl = false ∧ s.pre.priv ≠ .plugin ∧ (2#3).toNat ≤ 2 ∧ 2 < (3#3).toNat ∧ (64#8).toNat ≤ 64 ∧ 64 < (65#8).toNat ∧
    (s.rk 1).getLsbD 63 = true ∧ (∀ q, q < 63 → (s.rk 1).getLsbD q = false) ∧ (s.rk 2).getLsbD 0 = true ∧
    (∀ q, q ≤ 63 → (s.rk 3).getLsbD q = false) ∧ (1#8) ≠ 0 := by decide +kernel

theorem test_hyps_vectorMemoryToMemory :
    let s := world busy
    s.pre.onControl = false ∧ Memory.wf s.mem ∧ s.ecc = [] ∧ (5#3).toNat < 6 ∧ (s.ra 1).toNat % 8 = 0 ∧
    (s.ra 1).toNat + 256 ≤ 98304 ∧ (s.ra 7).toNat % 8 = 0 ∧ (s.ra 7).toNat + 256 ≤ 98304 := by decide +kernel

theorem test_hyps_vectorMemoryToMemory_control :
    (world keeper).pre.onControl = true ∧ isVector (.vfadd 0 0 0 0 0) = true ∧ (matrixCommand (.mzero 0 0)).isSome = true ∧
    (prismCommand (.prst 1 0)).isSome = true := by decide +kernel

theorem test_hyps_decodeOfEncode :
    (Instr.add 31 31 31).wf = true ∧ (Instr.add 31 31 31).encoded = true ∧ (Instr.li 1 0xFFFF (some 0xFFFF)).wf = true ∧
    (Instr.li 1 0xFFFF (some 0xFFFF)).encoded = true := by decide

/-- The packet of the placed word as its bundle's first step needs it. -/
def placedAs (s : State) (m : Thread) (w : W32) : Bool :=
  match s.fetchPacket m (packetAddr m.pc) with
  | (.ok p, t) => decide (bundleWords p m.pc = [w]) && !badForm p m.pc && decide (t.bun.stop = .none)
  | _ => false
theorem placed_of (s : State) (m : Thread) (w : W32) (h : placedAs s m w = true) :
    ∃ p t, s.fetchPacket m (packetAddr m.pc) = (.ok p, t) ∧ bundleWords p m.pc = [w] ∧ badForm p m.pc = false ∧
      t.bun.stop = .none := by
  unfold placedAs at h
  split at h
  · next p t e =>
    refine ⟨p, t, e, ?_⟩
    simpa [and_assoc] using h
  · simp at h

theorem test_hyps_stepRunsTheDecodedInstruction :
    let s := plant
    let m := user
    Attempts s 2 [] m ∧ wordClass 0x802529C0#32 ≤ 4 ∧ decode [0x802529C0#32] = .ok (.add 5 5 7) ∧
    ∃ p s1, ({ s with tick := s.tick + 1, slots := [] }.checkout m).fetchPacket m (packetAddr m.pc) = (.ok p, s1) ∧
      bundleWords p m.pc = [0x802529C0#32] ∧ badForm p m.pc = false ∧
      let b := parseBundle p m.pc
      let s2 := { s1 with me := { s1.me with packet := some p }, pre := { s1.pre with packet := some p }
                          bun := { s1.bun with next := b.next, words := b.words } }
      actsLast s2 (.add 5 5 7) = false ∧ ∃ s0 s3 s4, exec (.add 5 5 7) s2 = .next s0 ∧ s0.bun.stop = .none ∧
        exec (.add 5 5 7) { s2 with bun := { s2.bun with checked := true } } = .next s3 ∧ s3.bun.stop = .none ∧
        exec .bundleRelease s3 = .next s4 := by
  refine ⟨?_, by decide, rfl, ?_⟩
  · refine ⟨?_, ?_, ?_, ?_, ?_, ?_, ?_, ?_, ?_, ?_, ?_, ?_, ?_, ?_, ?_⟩ <;> decide +kernel
  · obtain ⟨p, t, h1, h2, h3, h4⟩ := placed_of ({ plant with tick := plant.tick + 1, slots := [] }.checkout user) user
      0x802529C0#32 (by decide +kernel)
    exact ⟨p, t, h1, h2, h3, rfl, _, _, _, rfl, h4, rfl, h4, rfl⟩

theorem test_hyps_stepKeepsMemoryCanonical : Memory.wf plant.mem ∧ ∃ t, step plant = .next t :=
  ⟨by decide +kernel, next_of _ (by decide +kernel)⟩
theorem test_hyps_storeAndLoad : Memory.wf plant.mem ∧ 0x1000 < 0x10000 ∧ 0x10000 + 32 ≤ 0x10020 :=
  ⟨by decide +kernel, by decide, by decide⟩

/-! ### Engines, ports and copies -/

/-- The world with core 0 of die 0 changed. -/
def withCore (s : State) (f : Core → Core) : State := { s with cores := [f (held 0), held 1] }
/-- The same thread with one value in every x register. -/
def allX (v : W32) : Thread := { user with x := Vector.replicate 32 v }

theorem test_hyps_streamRegisters :
    let s := world (allX 98272)
    let own := fun (o : Option Nat) => (withCore s (fun k => { k with mat := { k.mat with owner := o } }))
    s.pre.onControl = false ∧ 0 < 15 ∧ 14 < 15 ∧ Memory.wf s.mem ∧ (s.rx 1).toNat % 32 = 0 ∧ (s.rx 1).toNat + 32 ≤ 98304 ∧
    s.eccRead (bufKey 0 0 1 98272) 32 = false ∧ ((world (allX 1)).rx 1).toNat % 32 ≠ 0 ∧
    ((world (allX 98304)).rx 1).toNat % 32 = 0 ∧ 98304 < ((world (allX 98304)).rx 1).toNat + 32 ∧
    ((own none).matOf 0 0).owner = none ∧ ((own (some 2)).matOf 0 0).owner = some s.pre.tid ∧
    ((own (some 3)).matOf 0 0).owner = some 3 ∧ 3 ≠ s.pre.tid ∧ ((own (some 3)).matOf 0 0).owner ≠ some s.pre.tid := by
  decide +kernel

/-- Streams of 32-byte rows: A in AB, B in WB, and one whose GEO is reserved, one at an odd offset of halfwords. -/
def streamA : QReg := BitVec.ofNat 256 (1 * 2 ^ 20 + 1 * 2 ^ 22 + 256 * 2 ^ 32)
def streamB : QReg := BitVec.ofNat 256 (0 * 2 ^ 20 + 1 * 2 ^ 22 + 256 * 2 ^ 32)
def owning (qa qb : QReg) (queue : List MatCmd) : State :=
  withCore (world { user with q := #v[qa, qb, 0, 0, 0, 0, 0, 0] })
    (fun k => { k with mat := { k.mat with owner := some 2, queue := queue } })
theorem test_hyps_engineCommands :
    let s := owning streamA streamB []
    let full := owning streamA streamB (List.replicate 4 default)
    let bad := owning streamB streamB []
    let odd := owning (streamA ||| 0xC00001) (streamB ||| 0xC00000) []
    let a := (0, s.rq 0)
    let b := (1, s.rq 1)
    let mul := MatKind.mul false false
    let rot := MatKind.mul false true
    s.pre.onControl = false ∧ (s.matOf 0 0).owner = some s.pre.tid ∧ (s.matOf 0 0).queue.length + (s.matOf 0 0).tl.held.length < 4 ∧
    ((world user).matOf 0 0).owner ≠ some (world user).pre.tid ∧
    ¬ ((full.matOf 0 0).queue.length + (full.matOf 0 0).tl.held.length < 4) ∧
    mul.reserved (0, bad.rq 0) (1, bad.rq 1) = some (1, 0) ∧
    mul.reserved (0, odd.rq 0) (1, odd.rq 1) = none ∧ mul.misaligned (0, odd.rq 0) (1, odd.rq 1) = some 1 ∧
    mul.reserved a b = none ∧ mul.misaligned a b = none ∧ rot.reserved a b = none ∧ rot.misaligned a b = none ∧
    (∀ r, r ∈ mul.regions 2 a b → r.past = none) ∧ (∀ r, r ∈ rot.regions 2 a b → r.past = none) ∧
    ∀ k, k ∈ rings s.pre.core (qRing a.2) (qRing b.2) → s.coreHeld 0 k s.pre.lid = true := by decide +kernel
theorem test_hyps_engineCommands_kinds :
    matrixCommand (.mmul 0 1 2 3 1) = some (.mul false false, 0, 1, 2, 3, 2) ∧
    matrixCommand (.mmrot 0 1 2 3 1) = some (.mul false true, 0, 1, 2, 3, 2) := ⟨rfl, rfl⟩
theorem test_hyps_engineCommands_prism :
    let s := owning (streamA &&& ~~~(7#256 <<< 22)) 0 []
    let q := s.rq 0
    let prism := fun (p : Prism → Prism) => (withCore s (fun k => { k with mat := { k.mat with owner := some 2 }, prism := p k.prism }))
    let ready := prism (fun p => { p with winIssued := true })
    let dirty := prism (fun p => { p with winIssued := true, dirty := 2 })
    let full := prism (fun p => { p with queue := List.replicate 4 default })
    prismCommand (.plaunch 0 3 1) = some (.plaunch, some 0, 3, 1) ∧ s.pre.onControl = false ∧ (s.matOf 0 0).owner = some s.pre.tid ∧
    (s.prismOf 0 0).queue.length + (s.prismOf 0 0).tl.held.length < 4 ∧
    ¬ ((full.prismOf 0 0).queue.length + (full.prismOf 0 0).tl.held.length < 4) ∧
    (PrismKind.plaunch).reserved q = none ∧ (PrismKind.plaunch).misaligned q = none ∧
    (∀ r, r ∈ (PrismKind.plaunch).footprint q 3 → r.2.1 + r.2.2 ≤ bufSize r.1) ∧
    (s.prismOf 0 0).winIssued = false ∧ (ready.prismOf 0 0).winIssued = true ∧ (ready.prismOf 0 0).dirtyAfter &&& 3 = 0 ∧
    (dirty.prismOf 0 0).winIssued = true ∧ (dirty.prismOf 0 0).dirtyAfter &&& 3 ≠ 0 := by decide +kernel

/-- A matrix command of the thread, number 1, on tile 2. -/
def matCmd (kind : MatKind) : MatCmd :=
  { (default : MatCmd) with iss := { (default : Issue) with num := 1, tid := 2, lid := 1 }, kind := kind, tile := 2
                            groupCount := 1, qa := streamA, qb := streamB, start := some 8, rotN := 1 }
def matrixState (q : MatCmd) : State := owning streamA streamB [q]
theorem test_hyps_matrixCycles :
    let s := fun (q : MatCmd) => matrixState q
    let mul := matCmd (.mul false false)
    let rot := matCmd (.mul false true)
    let late := { mul with fault := some (acEcc, 0) }
    let rowed := { mul with rows := List.replicate 16 (List.replicate 64 5) }
    (∀ q, q ∈ [matCmd .zero, mul, rot, late, rowed] → (s q).matCmd? 0 0 1 = some q ∧ q.iss.die = 0 ∧ q.iss.core = 0 ∧
      (s q).ecc = [] ∧ ((s q).getDie 0).stopped = false ∧ Memory.wf (s q).mem) ∧
    (matCmd .zero).kind = .zero ∧ (matCmd .zero).fault = none ∧ 15 < 16 ∧ 15 < (mul.lastCycle) ∧
    mul.kind = .mul false false ∧ mul.fault = none ∧ mul.array = 16 ∧ 0 + 4 < mul.array ∧ 11 + 4 < mul.array ∧
    rot.kind = .mul false true ∧ rot.fault = none ∧ 11 + 4 < rot.array ∧
    (∀ k, k ∈ [MatKind.drn 0, .ldc 0] → let m := { matCmd k with rows := List.replicate 16 (List.replicate 64 5) }
      (s m).matCmd? 0 0 1 = some m ∧ m.kind = k ∧ m.fault = none ∧ 1 < 2 ∧ 17 = 15 + 2 ∧
      m.rows[15]? = some (List.replicate 64 5)) ∧
    16 + 4 = rowed.array + 4 ∧ 4 < 16 ∧ rowed.rows[4]? = some (List.replicate 64 5) ∧
    27 + 4 = rowed.array + 15 ∧ rowed.rows[15]? = some (List.replicate 64 5) ∧
    late.fault = some (acEcc, 0) ∧ ((s late).matOf 0 0).tl.frec = none ∧
    (s late).getThread? 2 = some (s late).me ∧ (s late).me.st ≠ .exited ∧
    rot.ring[0]? = some 0 ∧ (s rot).rotOf? 0 0 1 1 = some rot ∧ 0 < 1 ∧
    1 ≤ ((rot.shape 0).1 * (rot.shape 0).2.1 + 127) / 128 ∧ 1 < 2 := by decide +kernel

/-- A Prism command of the thread, number 1, on bands 0 and 1. -/
def prismCmd (kind : PrismKind) : PrismCmd :=
  { (default : PrismCmd) with iss := { (default : Issue) with num := 1, tid := 2, lid := 1 }, kind := kind, mask := 3
                              q := streamA &&& ~~~(7#256 <<< 22) }
def prismState (q : PrismCmd) : State :=
  withCore (world user) (fun k => { k with prism := { k.prism with window := some (12, 0, false, 1), queue := [q] } })
theorem test_hyps_prismCycles :
    (∀ kind, kind ∈ [PrismKind.plaunch, .pcap true, .pwin 12 0 false 1, .prst] →
      let s := prismState (prismCmd kind)
      s.prismCmd? 0 0 1 = some (prismCmd kind) ∧ (prismCmd kind).iss.die = 0 ∧ (prismCmd kind).iss.core = 0 ∧
      (prismCmd kind).fault = none ∧ s.ecc = [] ∧ (s.getDie 0).stopped = false ∧
      (s.prismOf 0 0).window = some (12, 0, false, 1) ∧ (s.prismOf 0 0).dirty &&& (prismCmd kind).mask = 0 ∧
      Memory.wf s.mem) ∧ (0 ≠ 2) := by decide +kernel

/-- Port 1 of core 0 of die 0 as the thread has bound it. -/
def withPort (p : Port) : State := withCore (world user) (fun k => { k with ports := k.ports.setIfInBounds 1 p })
def bound : Port := { Port.init with bound := some 2 }
theorem test_hyps_envelopesAndCredits :
    let s := withPort { bound with credits := 1 }
    let dry := withPort { bound with credits := 0 }
    let full := withPort { bound with inbox := [(7, 7), (8, 8)] }
    let empty := withPort bound
    s.pre.priv ≠ .plugin ∧ (s.portOf 0 0 1).bound = some s.pre.tid ∧ s.portAbsent 0 0 1 s.pre.lid true = false ∧
    (s.portOf 0 0 1).torn = false ∧ 1 ≤ (s.portOf 0 0 1).credits ∧ s.farEnd 0 0 1 = some ⟨0, 1, 3, 0⟩ ∧
    (s.getDie 0).stopped = false ∧ (dry.portOf 0 0 1).bound = some dry.pre.tid ∧ dry.portAbsent 0 0 1 dry.pre.lid true = false ∧
    (dry.portOf 0 0 1).torn = false ∧ (dry.portOf 0 0 1).credits = 0 ∧ dry.pre.stamped = false ∧
    (full.portOf 0 0 1).bound = some full.pre.tid ∧ (full.portOf 0 0 1).inbox = (7, 7) :: [(8, 8)] ∧ 7 < full.cyc 0 ∧
    full.feeder 0 0 1 = some ⟨0, 1, 3, 0⟩ ∧
    (empty.portOf 0 0 1).bound = some empty.pre.tid ∧ (empty.portOf 0 0 1).inbox = [] ∧
    empty.portAbsent 0 0 1 empty.pre.lid false = false ∧ (empty.portOf 0 0 1).torn = false ∧ empty.pre.stamped = false ∧
    ((world user).portOf 0 0 1).bound = none ∧ ((withPort { bound with bound := some 3 }).portOf 0 0 1).bound = some 3 ∧
    3 ≠ (world user).pre.tid ∧ 0 < 8 ∧ 7 < 8 := by decide +kernel

/-- A thread blocked at a RECV whose port is fed by itself: a cycle of one member. -/
def lonely : Thread := { user with st := .blocked, recvFrom := 0 }
def loop1 : State :=
  let w := plant.withFetchWord 32 0xC0204000
  { withCore (world lonely) (fun k => { k with
      ports := (k.ports.setIfInBounds 4 { bound with inn := some ⟨0, 0, 5, 0⟩ }).setIfInBounds 5
        { bound with out := some ⟨0, 0, 4, 0⟩ } }) with
    mem := w.mem, mem0 := w.mem, dies := [{ upDie 0 with cyc := 65536 }, upDie 1] }
theorem test_hyps_envelopesAndCredits_probe :
    loop1.getThread? 2 = some lonely ∧ lonely.st = .blocked ∧ (loop1.getDie lonely.die).stopped = false ∧
    lonely.recvFrom + 65536 ≤ loop1.cyc lonely.die ∧ loop1.walkEdges 2 32 2 [] = some [(2, false)] ∧ lonely.dlk = none ∧
    ∀ x, x ∈ [(2, false)] → (loop1.getThread? x.1).any (fun u => u.spilled == none && u.dlk == none) = true := by
  decide +kernel

/-- A copy of 300 bytes from 0x100000 to 0x200000: its second unit has 44 bytes. -/
def copyOp (started : Bool) (units : Nat) : CopyOp :=
  { (default : CopyOp) with
    iss := { (default : Issue) with num := 1, tid := 2, lid := 1, op0 := 0x200000, op1 := 0x100000, op2 := 300 }
    started := started, units := units }
def copying (q : List CopyOp) : State :=
  withCore (world user) (fun k => { k with copy := k.copy.setIfInBounds 2 { CopyCtx.init with queue := q } })
theorem test_hyps_copies :
    let s := world { user with a := Vector.replicate 16 0x1000, e := #v[300, 4, 0x10, 0, 0, 0, 0, 0] }
    let crowd := copying (List.replicate 16 default)
    s.pre.priv ≠ .plugin ∧ (s.copyCtx 0 0 2).queue.length + (s.copyCtx 0 0 2).tl.held.length < 16 ∧
    16 ≤ (crowd.copyCtx 0 0 2).queue.length + (crowd.copyCtx 0 0 2).tl.held.length ∧
    (s.ra 1).toNat % 4 = 0 ∧ (s.ra 1).toNat % 8 = 0 ∧ (s.re 0).toNat / 2 ^ 0 % 2 ^ 32 % 4 = 0 ∧
    (s.re 0).toNat / 2 ^ 0 % 2 ^ 16 % 4 = 0 ∧ (s.re 1).toNat / 2 ^ 0 % 2 ^ 32 % 4 = 0 ∧ (s.re 1).toNat / 2 ^ 32 % 2 ^ 32 % 4 = 0 ∧
    (qFmt (s.rq 0)).toNat < 5 ∧ ((world busy).ra 5).toNat % 4 ≠ 0 ∧ 2 < 4 ∧ 3 < 4 ∧
    (let w := copying [copyOp false 0]
     let o := copyOp false 0
     (w.copyCtx 0 0 2).queue = o :: [] ∧ w.dies.all (fun k => !k.stopped) = true ∧ o.started = false ∧
     w.copyCharge (copyOp true 1) = none ∧
     o.iss.num ≤ seqNext (w.copyCtx 0 0 2).tl.c ∧ w.heldBack o.iss = false ∧ o.reserved = false ∧ o.fault = none ∧
     o.cancel = false) := by decide +kernel
theorem test_hyps_copies_unit :
    ∃ f s1, (copying [copyOp true 1]).copyUnitOf (copyOp true 1) 1 = (.done f, s1) ∧ ∀ e, (s1.getDie e).stopped = false := by
  obtain ⟨f, t, h⟩ := done_of ((copying [copyOp true 1]).copyUnitOf (copyOp true 1) 1) (by decide +kernel)
  refine ⟨f, t, h, ?_⟩
  have e : t = ((copying [copyOp true 1]).copyUnitOf (copyOp true 1) 1).2 := by rw [h]
  rw [e]; exact runs_all _ (by decide +kernel)
theorem test_hyps_copies_runs : ∀ e, ((copying [copyOp false 0]).getDie e).stopped = false := runs_all _ (by decide +kernel)
theorem test_hyps_copies_bytes :
    let s := copying [copyOp true 1]
    let g := (copyOp true 1).iss.agent
    ∃ s2 s3 v, (copyOp true 1).kind = .cpy ∧ 44 = min 256 ((copyOp true 1).len - 256 * (copyOp true 1).units) ∧
      s.readMem g 0x100100 44 = (.done v, s2) ∧ s2.writeMem g 0x200100 44 v = (.done (), s3) := by
  intro s g
  obtain ⟨v, s2, h⟩ := done_of (s.readMem g 0x100100 44) (by decide +kernel)
  have e2 : s2 = (s.readMem g 0x100100 44).2 := by rw [h]
  have ev : Access.done v = (s.readMem g 0x100100 44).1 := by rw [h]
  obtain ⟨u, s3, h3⟩ := done_of (s2.writeMem g 0x200100 44 0) (by rw [e2]; decide +kernel)
  have v0 : v = 0 := by
    have k : (match (s.readMem g 0x100100 44).1 with | .done w => decide (w = 0) | _ => false) = true := by decide +kernel
    rw [← ev] at k; simpa using k
  subst v0
  exact ⟨s2, s3, 0, rfl, rfl, h, h3⟩

/-- A context of the copy unit that has counted to 1, with an operation numbered 2 in its queue. -/
def waiting (tl : Timeline) (started : Bool) (h : W64) : State :=
  { withCore (world { user with h := Vector.replicate 8 h, e := #v[1, 2, 0, 0, 0, 0, 0, 0] }) (fun k => { k with
      copy := k.copy.setIfInBounds 0 { tl := tl, queue := [{ copyOp started 0 with iss := { (copyOp started 0).iss with num := 2 } }] } }) with
    parts := [pair0] }
def counted : Timeline := { Timeline.init with c := 1, i := 2 }
def failed : FaultRec := { (default : FaultRec) with cause := acEcc, num := 1, tid := 2, handle := mkHandle 0 0 0 1 }
def foundAt (f : Found) (r : TlRef) : Bool := match f with | .at q false => q == r | _ => false
theorem found_of (f : Found) (r : TlRef) (h : foundAt f r = true) : f = .at r false := by
  unfold foundAt at h
  split at h <;> simp_all
theorem test_hyps_handles :
    let h := fun (n : Nat) => mkHandle 0 0 0 n
    let s := waiting counted false (h 1)
    let ref := TlRef.copy 0 0 0
    s.pre.priv ≠ .plugin ∧ (world user).rh 0 = 0 ∧ s.rh 0 ≠ 0 ∧ foundAt (s.findCtx s.pre (s.rh 0) none) ref = true ∧
    (s.getTl ref).opOf (handleSeq (h 1)) = some 1 ∧ (s.getTl ref).opOf (handleSeq (h 2)) = some 2 ∧ 1 ≤ (s.getTl ref).c ∧
    (s.getTl ref).reportable 2 1 = none ∧ s.noticed s.pre false = true ∧ (s.getTl ref).c < 2 ∧
    (s.getTl ref).reportable 2 2 = none ∧ s.pre.stamped = false ∧
    ((waiting { counted with frec := some failed } false (h 1)).getTl ref).reportable 2 1 = some failed ∧
    failed.cause ≠ acCancelled ∧ 0 < 4 ∧ 3 < 4 ∧
    ((s.copyCtx 0 0 0).queue.find? (fun j => j.iss.num == 2)).map (·.started) = some false ∧
    (((waiting counted true (h 2)).copyCtx 0 0 0).queue.find? (fun j => j.iss.num == 2)).map (·.started) = some true ∧
    (s.getTl ref).frec = none ∧ s.getThread? 2 = some s.me ∧ s.me.st ≠ .exited ∧ (s.re 0).toNat ≤ (s.getTl ref).c ∧
    (s.getTl ref).c < (s.re 1).toNat ∧
    (match s.findCtx s.pre (mkHandle 0 4 0 1) none with | .malformed => true | _ => false) = true := by decide +kernel
/-- A write under way that the thread comes after, and one whose order it and a FENCE.sc have brought. -/
def fenced : State :=
  let w := { (default : Req) with rid := 4, iss := { (default : Issue) with tid := 2 } }
  let i : MsgItem := { part := 0, mask := 3, ids := [4] }
  { world { user with seen := [4], got := [i] } with reqs := [w], scLog := [i] }
theorem test_hyps_handles_fences :
    fenced.pre.priv ≠ .plugin ∧ (∃ r, r ∈ fenced.reqs ∧ r.rid = 4 ∧ r.applied = false) ∧ 4 ∈ fenced.me.seen ∧
    (∀ l, l ∈ [fenced.me.got, fenced.scLog] → ∃ i, i ∈ l ∧ 4 ∈ i.ids ∧ i.part = fenced.partOf fenced.me ∧
      i.mask.getLsbD (fenced.logDie (fenced.partOf fenced.me) fenced.me.die) = true) ∧ 0 < 16 ∧
    fenced.me.reads = [] ∧ (fenced.getThread? 2).isSome = true := by decide +kernel

/-! ### Tasks, groups, clocks, collectives and stacks -/

def allA (v : W64) : Thread := { user with a := Vector.replicate 16 v }
/-- A task record of launch 1 that waits on die 0, and a partition with a spill pool of die 0. -/
def record : TaskRec :=
  { (default : TaskRec) with id := 7, lid := 1, entry := 0x10000, xf := 3, xs := [5, 6], prio := 2, here := true, num := 1, ctx := 8 }
def pooled : Partition := { pair0 with pools := [(0, 0x100000, 0x200000)], memcfg := 0x0001000000000000#64 }
def withDie (s : State) (f : Die → Die) : State := { s with dies := [f (upDie 0), upDie 1] }
def pool1 (m : Thread) (r : TaskRec) : State := { withDie (world m) (fun d => { d with ready := [r] }) with parts := [pooled] }

theorem test_hyps_taskSyllables :
    let s := world { allA 0 with priv := .system }
    let dies : BitVec 16 := ((s.getLaunch? s.pre.lid).map (·.dieSet)).getD 0
    s.pre.priv.isSys = true ∧ (world user).pre.priv.isSys = false ∧ ((world (allA 4)).ra 0).toNat % 128 ≠ 0 ∧
    (s.ra 0).toNat % 128 = 0 ∧ (s.getDie 0).stopped = false ∧ s.pre.priv ≠ .plugin ∧ (s.ra 0).toNat % 4 = 0 ∧
    dies.getLsbD 0 = true ∧ 0 < s.dieCount s.pre.part ∧ s.ra 1 >>> levelShift s.pre.widf 6 = 0 ∧
    (s.getDie 0).ready.length < 4096 ∧ s.coreHeld 0 ((s.ra 0).toNat / 2 ^ 56) s.pre.lid = true ∧
    (s.getCore 0 ((s.ra 0).toNat / 2 ^ 56)).arrivals.length + s.moversFirst 0 ((s.ra 0).toNat / 2 ^ 56) < 16 ∧
    s.dieCount s.pre.part ≤ 2 ∧ s.groupGone record = false ∧ s.stubCmd? s.pre = none ∧ s.bun.checked = false ∧
    s.pre.priv ≠ .user ∧ (world user).pre.priv = .user ∧ (world { user with stamped := true }).pre.stamped = true := by
  decide +kernel
theorem test_hyps_taskSyllables_migr :
    let far := world (allA 0x8000A00000000000#64)
    let near := world (allA 0x8000200000000000#64)
    far.migrRefused = 0 ∧ addrForm (far.ra 0) = 2 ∧ far.physDie? far.pre.part (addrDie (far.ra 0)) = some 0 ∧
    far.coreHeld 0 (addrCore (far.ra 0)) far.pre.lid = true ∧ ¬ (addrCore (far.ra 0) = far.pre.core) ∧
    addrForm (near.ra 0) = 2 ∧ near.physDie? near.pre.part (addrDie (near.ra 0)) = some 0 ∧
    addrCore (near.ra 0) = near.pre.core := by decide +kernel
/-- A thread of core 5, whose address 0 has its home at core 0. -/
def away : State := world { user with core := 5 }
theorem test_hyps_taskSyllables_home :
    let r := away.leafOf 0 pair0 0
    away.migrRefused = 0 ∧ away.getPart? away.pre.part = some pair0 ∧ addrForm (away.ra 0) < 2 ∧
    (match r.1 with | .leaf pte lv => !pteH pte && r.2.physAt pair0 (pteP pte) (leafPhys pte lv 0) == some (0, 0) | _ => false) =
      true ∧
    r.2.ownerDie (pair0.stackList[0]?.getD 0) = 0 ∧ homeSlice 0 0 = 0 ∧ r.2.coreHeld 0 0 away.pre.lid = true ∧
    0 < 256 ∧ ¬ (0 = away.pre.core) := by decide +kernel
/-- The thread and seven others hold the turns of core 0, and core 1 is another launch's: the record waits. -/
def full (m : Thread) : State :=
  { pool1 m record with
    threads := m :: (List.range 7).map (fun k => { user with tid := k + 10, turn := k + 1 }), cores := [held 0] }
theorem test_hyps_taskSyllables_yield :
    let s := full { user with prio := 2 }
    let t := full { user with prio := 3 }
    s.sourcePrio 0 0 = some 2 ∧ s.poolSlot? s.pre = some 0 ∧ s.pre.prio ≤ 2 ∧ s.pre.stamped = false ∧ s.pre.onControl = false ∧
    s.pre.die = s.me.die ∧ s.pre.tid = s.me.tid ∧ (s.getDie 0).stopped = false ∧ t.sourcePrio 0 0 = some 2 ∧
    t.poolSlot? t.pre = some 0 ∧ 2 < t.pre.prio ∧ (world user).sourcePrio 0 0 = none := by decide +kernel
theorem test_hyps_taskSyllables_contexts :
    let s := { world (allA 98240) with parts := [pooled] }
    s.pre.onControl = false ∧ (s.ra 0).toNat % 64 = 0 ∧ (s.ra 0).toNat + 64 ≤ 98304 ∧
    (s.collCtx 0 15).queue.length + (s.collCtx 0 15).tl.held.length < 16 ∧ s.eccRead (bufKey 0 0 1 98240) 64 = false ∧
    s.getPart? (s.partOf s.pre) = some pooled ∧ s.stackOf (s.partOf s.pre) (s.re 0) = some 0 ∧
    pooled.dies.contains 0 = true ∧ pooled.dies.contains ((0 + 1) % 16) = true ∧
    pooled.memcfg.getLsbD (48 + (s.re 0).toNat % 16) = true ∧
    (s.getDie 0).handQ.length + (s.getDie 0).hand.held.length < 16 := by decide +kernel

def pending (l s : Bool) (n : Nat) : Long :=
  { (default : Long) with file := .x, reg := 31, value := 9, left := n, latched := l, snap := s }
theorem test_hyps_rotationEvents :
    let w := fun (g : Long) => world { user with longs := [g], frLen := 4, frRun := true }
    (w (pending false false 1)).me.longs = [pending false false 1] ∧ (w (pending false false 2)).me.longs = [pending false false 2] ∧
    (w (pending true false 1)).me.longs = [pending true false 1] ∧ (w (pending false true 0)).me.longs = [pending false true 0] ∧
    0 < (pending false false 1).reg ∧ (pending false false 1).reg < 32 ∧ 0 < (w (pending false false 1)).me.frLen ∧
    (w (pending false false 1)).me.frRun = true ∧
    ({ world user with bun := { Bundle.init with stamp := some (true, 3) } } : State).bun.stamp = some (true, 3) := by
  decide +kernel

theorem test_hyps_groupEvents :
    let s := { world member with groups := [groupAt .frame 1] }
    let t := world { member with st := .trapped }
    s.getGroup? 5 = some (groupAt .frame 1) ∧ s.getThread? 2 = some s.me ∧ s.me.st = .running ∧ s.me.spilled = none ∧
    t.getThread? 2 = some t.me ∧ t.me.st = .trapped ∧ s.me.st ≠ .exited := by decide +kernel

theorem test_hyps_clockEvents :
    let s := withDie (world user) (fun d => { d with cyc := 39, lastWarn := 7, lead := wr d.lead 5 24 })
    (∀ q, q < 16 → ∀ p, p < 16 → regionsMeet q p = true → (s.getDie 0).leadOf q ≤ (s.getDie 0).leadOf p + 24) ∧
    regionsMeet 5 4 = true ∧
    0 < 16 ∧ 15 < 16 ∧ (s.getDie 0).warn = 0 ∧ (s.getDie 0).lastWarn + 32 ≤ (s.getDie 0).cyc ∧ (s.getDie 0).cyc % 8 = 7 ∧
    ((world user).getDie 0).cyc % 8 ≠ 7 := by decide +kernel

def spilled : Thread := { user with tid := 3, spilled := some 0, st := .running }
def spilling : Thread := { user with spilled := some 0, spilling := true }
theorem test_hyps_taskEngine :
    let s := { world user with threads := [user, spilled] }
    let r := withCore (world user) (fun k => { k with arrivals := [.record record] })
    s.freeTurns 0 0 = 1 :: [2, 3, 4, 5, 6, 7] ∧ s.restorables 0 0 = spilled :: [] ∧ spilled.tid ≠ 0 ∧
    r.freeTurns 0 0 = 1 :: [2, 3, 4, 5, 6, 7] ∧ r.restorables 0 0 = [] ∧ r.arrival? 0 0 = some (.record record) ∧
    r.groupGone record = false ∧ (r.getLaunch? record.lid).isSome = true ∧ record.ctx < 9 := by decide +kernel
/-- Die 1 has a record that core 0 of die 0 may run; die 0 has none, and asks its first neighbour. -/
def stealer : State :=
  { world user with dies := [upDie 0, { upDie 1 with ready := [record] }] }
theorem test_hyps_taskEngine_steal :
    (stealer.getDie 0).stealing = false ∧ (stealer.getDie 0).ready = [] ∧ (∃ k, k < 256 ∧ stealer.freeTurns 0 k ≠ []) ∧ (stealer.getDie 0).stopped = false ∧
    (stealer.stealOrder 0)[(stealer.getDie 0).stealRank]? = some 1 ∧ 1 ≠ 0 ∧
    (byPriority (stealer.getDie 1).ready).find? (fun r => stealer.cores.any (fun k => k.die == 0 && stealer.coreHeld 0 k.core r.lid)) =
      some record := by decide +kernel
/-- Eight blocked threads hold the turns of core 0, the one core of the launch: a record waits. -/
def crowded : State :=
  let m := { user with prio := 0, st := .blocked, since := 1 }
  let ts := (List.range 8).map (fun k => { m with tid := k + 2, turn := k, since := k + 1 })
  { pool1 m record with threads := ts, mem := loop1.mem, mem0 := loop1.mem
                        cores := [{ held 0 with ports := (held 0).ports.setIfInBounds 4 { bound with inn := some ⟨0, 0, 5, 0⟩ } }] }
theorem test_hyps_taskEngine_shortage :
    (crowded.shortage 0).map (fun p => (p.1, p.2.1.tid, p.2.2)) = some (⟨15, none, 2⟩, 2, 0) ∧
    (crowded.getDie 0).stopped = false := by decide +kernel
theorem test_hyps_taskEngine_spill :
    let s := { world spilling with parts := [pooled] }
    s.getThread? 2 = some spilling ∧ spilling.spilling = true ∧ spilling.inFlight = [] ∧ spilling.dlk = none ∧
    (s.charge spilling.part 2 6144).1 = true ∧ (spilling.spilled.bind ((s.charge spilling.part 2 6144).2.poolAddr spilling)).isSome = true ∧
    (let c := { world user with threads := [] }
     Memory.wf c.mem ∧ (c.getCore 0 1).owner = some 1 ∧ c.coreInUse (c.getCore 0 1) 1 = false ∧
     ({ c.getCore 0 1 with scrubbing := true }).scrubbing = true) := by decide +kernel

def launch1 : Launch :=
  { (default : Launch) with lid := 1, part := 0, place := 0x0000010100000003#64, reached := [(0, 0)], pending := [(0, 0)], hdr := 0x100000
                            framew := 0x400, done := 0x200000, xinit := #v[1, 2, 3, 4, 5, 6, 7, 8] }
def launching (l : Launch) (cs : List Core) : State := { world user with threads := [], launches := [l], cores := cs, me := { user with lid := 9, tid := 9 } }

/-! ### Launches, collectives and stacks -/

/-- What a read brings. -/
def reads (s : State) (g : Agent) (a : W64) (n : Nat) : Option Nat := match (s.readMem g a n).1 with | .done v => some v | _ => none
theorem reads_of (s : State) (g : Agent) (a : W64) (n v : Nat) (h : reads s g a n = some v) :
    s.readMem g a n = (.done v, (s.readMem g a n).2) := by
  unfold reads at h
  split at h
  · next w e =>
    cases h
    rw [← e]
  · simp at h
def writes (s : State) (g : Agent) (a : W64) (n v : Nat) : Bool := isDone (s.writeMem g a n v)
theorem writes_of (s : State) (g : Agent) (a : W64) (n v : Nat) (h : writes s g a n v = true) :
    s.writeMem g a n v = (.done (), (s.writeMem g a n v).2) := by
  obtain ⟨⟨⟩, t, e⟩ := done_of _ h
  rw [e]
def placedKey (s : State) (g : Agent) (a : W64) (n : Nat) (need : Need) : Option Nat :=
  match (s.placeOf g a n need).1 with | .ok k _ => some k | _ => none

/-- A header of one thread on core 0 of logical die 0, and one whose PLACE names no die. -/
def header : BitVec 1024 := place 1024 0 (0x10000#64) ||| place 1024 0x40 (0x0000010100000001#64)
def withHeaderAt (h : BitVec 1024) : State := (launching launch1 [Core.init 0 0]).store (stackKey 0 0x100000) 128 h
def headerReader : Agent := ⟨0, 0, noCore, 0, false, 0⟩
theorem test_hyps_launchesAndMoves_header :
    reads (withHeaderAt header) headerReader launch1.hdr 128 = some header.toNat ∧
    reads (withHeaderAt 0) headerReader launch1.hdr 128 = some 0 ∧ (launch1.withHeader header).reject (headerReserved header) 2 = 0 ∧
    (launch1.withHeader 0).reject (headerReserved 0) 2 ≠ 0 := by decide +kernel
theorem test_hyps_launchesAndMoves_read :
    let s1 := ((withHeaderAt header).readMem headerReader launch1.hdr 128).2
    (withHeaderAt header).heldBack launch1.fanIss = false ∧ s1.dieCount 0 = 2 ∧ (s1.getDie launch1.fanDie).stopped = false ∧
    (withHeaderAt header).getLaunch? 1 = some launch1 ∧ launch1.frontier ≠ [] := by decide +kernel
def doneAgent : Agent := ⟨0, 0, noCore, 0, true, 0⟩
theorem test_hyps_launchesAndMoves_launch :
    let l := { launch1 with accepted := true, fields := 0x1000000003 }
    let s := launching l [{ Core.init 0 0 with reserved := [1] }]
    let f := { launch1 with accepted := true, pending := [], reached := [(0, 0), (1, 0)], placed := [(0, 0), (1, 0)] }
    let u := launching f [Core.init 0 0]
    let d := { launch1 with deps := [(3, 1)] }
    let w := launching d [Core.init 0 0]
    s.getLaunch? 1 = some l ∧ s.canPlace l 0 0 = true ∧ l.turns = some 8 ∧ 7 < 8 ∧
    u.getLaunch? 1 = some f ∧ u.launchDone f = true ∧ f.done ≠ 0 ∧ f.done.toNat % 8 = 0 ∧
    placedKey u doneAgent f.done 8 .atomic = some (stackKey 0 0x200000) ∧
    (u.placeOf doneAgent f.done 8 .atomic).2.eccRead (stackKey 0 0x200000) 8 = false ∧
    Memory.wf (u.placeOf doneAgent f.done 8 .atomic).2.mem ∧
    w.getLaunch? 1 = some d ∧ (3, 1) ∈ d.deps ∧ (w.getDie d.fanDie).stopped = false := by decide +kernel
theorem test_hyps_launchesAndMoves_moves :
    let r := { launching launch1 [] with dies := [{ upDie 0 with ready := [{ record with here := false }] }] }
    let m := { user with st := .moving, dest := some (0, 1) }
    let f := withCore (world user) (fun k => { k with fwd := [(9, 0, 1), (2, 0, 1)] })
    (r.records.find? (fun q => q.id == 7)) = some { record with here := false } ∧ r.groupGone { record with here := false } = false ∧
    (world m).getThread? 2 = some m ∧ m.dest = some (0, 1) ∧ m.st = .moving ∧ m.rcStores = 0 ∧ m.longs = [] ∧ 0 < m.frLen ∧
    ((world m).getCore 0 1).arrivals.length < 16 ∧ ((world m).getDie 0).stopped = false ∧
    ((world m).getLaunch? 1).isSome = true ∧ (f.getCore 0 0).fwd = [(9, 0, 1)] ++ (2, 0, 1) :: [] := by decide +kernel

/-- A collective of die 0 on group 3, whose members are core 0 of its dies 0 and 1. -/
def collOp (ctl : W64) : CollOp :=
  { (default : CollOp) with
    iss := { (default : Issue) with num := 1, tid := 2, lid := 1 }, ctx := 15
    desc := place 512 0 ctl ||| place 512 8 (4#32) ||| place 512 16 (0x100000#64) ||| place 512 24 (0x200000#64) }
def collState (q : CollOp) : State :=
  { withDie (world user) (fun d => { d with coll := d.coll.setIfInBounds 15 { CollCtx.init with queue := [q] } }) with
    parts := [{ pair0 with groups := [(3, [0#32, 0x1000#32])] }] }
def writeOp : CollOp := { collOp 0x1030006 with started := true }
def landingOp : CollOp := { collOp 0x30000 with started := true, out := some 7 }
theorem test_hyps_collectives :
    let o := collOp 0x30000
    let b := collOp 0x1000000030000
    let s := collState o
    let f := { o with fault := some (acProtection, 3, 0) }
    15 < 16 ∧ (s.collCtx 0 15).queue = [o] ∧ o.iss.die = 0 ∧ o.ctx = 15 ∧ (s.getDie 0).stopped = false ∧ o.started = false ∧
    o.iss.num ≤ seqNext (s.collCtx 0 15).tl.c ∧ s.heldBack o.iss = false ∧ s.collReason o = none ∧ s.unrouted o = false ∧
    (collState b).collReason b = some 1 ∧ o.fault = none ∧ (∀ q, q ∈ s.issuesOf o → q.rows = none) ∧
    f.fault = some (acProtection, 3, 0) ∧ ((collState f).collCtx 0 15).tl.frec = none ∧
    (collState f).getThread? 2 = some user ∧ user.st ≠ .exited ∧
    ([1, 2 ^ 32 - 1] : List Nat) ≠ [] ∧ 2 ^ 32 - 1 < 2 ^ 32 := by decide +kernel
theorem test_hyps_collectives_write :
    let s := collState writeOp
    let s0 := (s.collCharge [writeOp]).2
    let g : Agent := ⟨0, 1, 0, 0, true, 0⟩
    ∃ v s1 s2, writeOp.started = true ∧ writeOp.moved = false ∧ writeOp.out = none ∧ writeOp.isWrite = true ∧
      0 < writeOp.count ∧ writeOp.signal = 0 ∧ (s.collCharge [writeOp]).1 = true ∧
      s0.readMem writeOp.iss.agent writeOp.src (writeOp.count * writeOp.size) = (.done v, s1) ∧ writeOp.rows = none ∧
      s1.targetAgent writeOp = some g ∧ writeOp.overlaps writeOp 1 = [] ∧
      s1.targetHeld g writeOp.dst (writeOp.count * writeOp.size) = true ∧
      s1.writeMem g writeOp.dst (writeOp.count * writeOp.size) v = (.done (), s2) ∧ s0.targetOf writeOp ≠ none := by
  intro s s0 g
  have h := reads_of s0 writeOp.iss.agent writeOp.src (writeOp.count * writeOp.size) 0 (by decide +kernel)
  exact ⟨0, _, _, rfl, rfl, rfl, by decide +kernel, by decide +kernel, by decide +kernel, by decide +kernel, h, rfl,
    by decide +kernel, by decide +kernel, by decide +kernel, writes_of _ g _ _ 0 (by decide +kernel), by decide +kernel⟩
theorem test_hyps_collectives_landing :
    let s := collState landingOp
    let n := landingOp.dstCount (s.membersOf landingOp.iss.part landingOp.group).length
    ∃ s2, landingOp.started = true ∧ landingOp.moved = false ∧ landingOp.isWrite = false ∧ landingOp.opCode ≠ 3 ∧
      landingOp.out = some 7 ∧ s.partnerFail landingOp = none ∧ (∀ q, q ∈ s.issuesOf landingOp → q.rows = none) ∧
      0 < landingOp.count * n ∧ s.writeMem landingOp.iss.agent landingOp.dst (n * landingOp.size) 7 = (.done (), s2) := by
  intro s n
  exact ⟨_, rfl, rfl, by decide +kernel, by decide +kernel, rfl, by decide +kernel, by decide +kernel, by decide +kernel,
    writes_of s landingOp.iss.agent landingOp.dst (n * landingOp.size) 7 (by decide +kernel)⟩

def handing (side : W64) : State :=
  withDie (world user) (fun d => { d with handQ := [{ (default : HandOp) with
    iss := { (default : Issue) with num := 1, tid := 2 }, operand := side }] })
def handOp (side : W64) : HandOp :=
  { (default : HandOp) with iss := { (default : Issue) with num := 1, tid := 2 }, operand := side }
/-- A handover to the die that has the stack, or to the other one. -/
def Handing (side : W64) : Prop :=
  let s := handing side
  let o := handOp side
  s.handOp? 0 1 = some o ∧ s.stackOf o.part o.operand = some 0 ∧ o.draining = false ∧ s.heldBack o.iss = false ∧
    s.stackDraining 0 = false ∧ s.handFirst 0 o = true ∧ o.operand.toNat < 32 ∧ s.ownerDie 0 = 0 ∧ (s.getDie 0).dead = false ∧
    (s.getDie 1).dead = false
theorem test_hyps_stackEvents_stays : Handing 0 := by unfold Handing; decide +kernel
theorem test_hyps_stackEvents_goes : Handing 0x10 ∧ (0x10#64).getLsbD 4 = true := by unfold Handing; decide +kernel
/-- The handover drains stack 0; a granule of it is in error, and whether its line is dirty is free: either case is stated. -/
theorem test_hyps_stackEvents_flip :
    let o := { handOp 0x10 with draining := true, phys := some 0 }
    let s := withDie (world user) (fun d => { d with handQ := [o] })
    let t := { s with ecc := [5] }
    s.handOp? 0 1 = some o ∧ s.stackOf o.part o.operand = some 0 ∧ o.phys = some 0 ∧ 0 < 16 ∧ s.dirtyErrors 0 = [] ∧
    (s.getDie 0).hand.frec = none ∧ s.getThread? o.iss.tid = some user ∧ user.st ≠ .exited ∧
    t.dirtyErrors 0 = if t.choice 2 (8 * 5 / 128) = true then [5] else [] := by
  refine ⟨by decide +kernel, by decide +kernel, rfl, by decide, by decide +kernel, by decide +kernel, by decide +kernel, by decide, ?_⟩
  simp only [State.dirtyErrors, stackKey, Config.stackSize, List.filter]
  split <;> simp_all
def xlOp (all : Bool) : XlOp := { (default : XlOp) with iss := { (default : Issue) with num := 1 }, all := all, operand := 0x10001 }
theorem test_hyps_stackEvents :
    (∀ all, all ∈ [true, false] →
      let s := withDie (world user) (fun d => { d with xlQ := [xlOp all] })
      (s.getDie 0).xlQ.find? (fun q => q.iss.num == 1) = some (xlOp all) ∧ s.heldBack (xlOp all).iss = false ∧
      xlRange (xlOp all).operand = some (16, 2)) ∧
    (world user).getPart? 0 = some pair0 ∧ (world user).freshWalk pair0 0x100000 = .leaf 0x9F 2 := by decide +kernel
/-- A page whose leaf is the host's, or the device's, at level 0 of the tables, with M. -/
def paging (leaf : W64) : State :=
  let t := (((world user).store (stackKey 0 0x3000) 8 (0x4011#64)).store (stackKey 0 0x4000) 8 (0x5011#64)).store
    (stackKey 0 0x5000) 8 leaf
  { t with parts := [{ pair0 with home := some 1 }], funcs := [{ (default : Func) with fn := 1, part := some 0, pool := [0x300000] }] }
/-- The move of page 0 that a fault has begun: the host's or the device's, or one that the host has been asked for. -/
def move0 (host asked window : Bool) (since : Nat) : PageMove :=
  { (default : PageMove) with part := 0, va := 0, byHost := host, asked := asked, window := window, since := since, target := 0x7000 }
theorem test_hyps_stackEvents_pages :
    let s := { paging 0xE7 with moves := [move0 false false false 0] }
    let t := paging 0xDF
    let o := { t with moves := [move0 true false false 0], wall := 9 }
    let p := { pair0 with home := some 1 }
    let k := stackKey 0 0x5000
    s.getPart? 0 = some p ∧ s.moveOf? 0 0 = some (move0 false false false 0) ∧ p.home = some 1 ∧
    s.pageLeaf p 0 = some (k, 0xE7, 0) ∧ (s.getFunc 1).pool = 0x300000 :: [] ∧ pteH 0xE7 = true ∧ pteM 0xE7 = true ∧
    s.physAt p (framePlaced 0x300000) (frameAddr 0x300000) = some (0, 0x300000) ∧ (s.charge 0 3 4096).1 = true ∧
    s.lineKeys = [] ∧ p.keyVals = [] ∧ Memory.wf s.mem ∧
    t.getPart? 0 = some p ∧ t.moveOf? 0 0 = none ∧ t.pageLeaf p 0 = some (k, 0xDF, 0) ∧ pteH 0xDF = false ∧ pteM 0xDF = true ∧
    (t.getFunc 1).pagm = false ∧ t.physAt p (pteP 0xDF) (pteFrame 0xDF) = some (0, 0) ∧ t.eccRead (logKey p 0 0) 4096 = false ∧
    (t.charge 0 3 4096).1 = true ∧ o.moveOf? 0 0 = some (move0 true false false 0) ∧ (move0 true false false 0).since ≠ o.wall ∧
    (move0 true false false 0).lost = false ∧ (move0 true false false 0).idle = false ∧ s.wall = (move0 false false false 0).since ∧
    ({ s with wall := 9 } : State).moveOf? 0 0 = some (move0 false false false 0) ∧
    ({ s with moves := [move0 false true false 0] } : State).moveOf? 0 0 = some (move0 false true false 0) ∧
    ({ s with moves := [move0 false false true 0] } : State).moveOf? 0 0 = some (move0 false false true 0) := by decide +kernel

/-! ### Links, hosts and management -/

/-- Port 0 of the first I/O die, up and in sequence; its far end is die 0 of the chip that the header names. -/
def linked (p : DzPort → DzPort) : State := { world user with dz := [p { DzPort.init 0 with up := true }] }
def waitingData : W64 × W64 × BitVec 1792 := (0#64, 0#64, 0)
theorem test_hyps_fabricEvents :
    let s := linked id
    let later := flitHeader 2 1 0 0
    let elsewhere := flitHeader 0 0 0 0x70000
    (s.getPort 0).up = true ∧ flitSeq 0 = (s.getPort 0).expect ∧ s.farWaits 0 = false ∧ (s.getPort 0).rx = [] ∧
    ({ s with dies := [{ upDie 0 with stopped := true }] } : State).farWaits 0 = true ∧
    ((linked (fun p => { p with rx := [waitingData] })).getPort 0).rx.any (fun e => flitDie e.1 == flitDie 0) = true ∧
    flitSeq elsewhere = (s.getPort 0).expect ∧ (∀ q, q ∈ s.parts → q.chip ≠ flitChip elsewhere) ∧
    flitSeq later ≠ (s.getPort 0).expect ∧ (s.getPort 0).discarding = false ∧
    ((linked (fun p => { p with discarding := true })).getPort 0).discarding = true ∧ s.flights = [] ∧
    (∀ e, e ∈ ((linked (fun p => { p with replay := [(1, 0, 15)] })).getPort 0).replay → 16 ≤ e.2.2 + 1) ∧
    (State.reset.getPort 0).up = false := by decide +kernel

/-- Function 1 of partition 0 with queue 0, mapped and enabled with one command to fetch. -/
def queue0 : Queue := { Queue.init 0 with pidx := 1, rcfg := 0x100, mapped := true }
def func1 : Func := { Func.init 1 with part := some 0, en := true, bar2 := 20, queues := [queue0] }
def hosted (f : Func) (p : Partition) : State := { world user with funcs := [f], parts := [p] }
theorem test_hyps_hostRegisters :
    let s := hosted func1 { pair0 with serving := some (1, 0) }
    let u := hosted { func1 with queues := [{ queue0 with mapped := false }] } pair0
    let m := hosted { func1 with mapm := true, queues := [{ queue0 with mapped := false }] } pair0
    let dead := hosted { func1 with queues := [{ queue0 with stop := true, rcfg := 0 }] } pair0
    ((s.getFunc 1).queue 0).mapped = true ∧ (s.getFunc 1).part = some 0 ∧ (s.getPart? 0).map (·.serving) = some (some (1, 0)) ∧
    (s.getFunc 1).en = true ∧ ((s.getFunc 1).queue 0).en = true ∧ ((s.getFunc 1).queue 0).stop = false ∧
    (1#16) ≠ ((s.getFunc 1).queue 0).cons ∧ ((u.getFunc 1).queue 0).mapped = false ∧ (u.getFunc 1).mapm = false ∧
    (u.getFunc 1).part.isSome = true ∧ (u.getFunc 1).plugin = none ∧ u.updating = false ∧ u.mappedCount (fnPort 1) < 512 ∧
    (m.getFunc 1).mapm = true ∧ ((m.getFunc 1).queue 0).mapped = false ∧ ((dead.getFunc 1).queue 0).en = false ∧
    ((dead.getFunc 1).queue 0).stop = true ∧ (1#4) ≠ ((s.getFunc 1).queue 0).rcfg.extractLsb' 0 4 ∧ fnPort 1 = 0 ∧
    (∃ g, g ∈ s.funcs ∧ fnPort g.fn = 0) ∧ ({ s with dies := [{ Die.init 16 with up := true }] }.getDie 16).up = true ∧
    63 < 64 ∧ (s.mailbox' 0).busy = false ∧ 1 % 256 ≠ 0 ∧
    (({ s with mailbox := Vector.replicate 2 { Mailbox.init with busy := true } } : State).mailbox' 1).busy = true ∧
    0x1000 ≤ 0x1FFC ∧ 0x1FFC < 0x2000 ∧ 0x1FFC % 4 = 0 := by decide +kernel
theorem test_hyps_hostAccesses :
    let p := { pair0 with serving := some (1, 0), holding := [⟨.wall 0, .pcieLinkUp 0⟩], home := some 1 }
    let s := hosted func1 p
    let t := { hosted { func1 with trpm := true } p with me := { user with st := .trapped } }
    (s.getFunc 1).part.bind s.getPart? = some p ∧ (s.getFunc 1).bar2 ≠ 0 ∧ 2 ^ 20 - 8 + 8 ≤ 2 ^ (s.getFunc 1).bar2 ∧
    s.hostReaches (fnPort 1) (p.dies[0]?.getD 0) = true ∧ 2 ^ (s.getFunc 1).bar2 < 2 ^ 20 - 7 + 8 ∧
    ({ s with dies := [{ upDie 0 with routerOk := false }] } : State).hostReaches (fnPort 1) 0 = false ∧
    s.getPart? 0 = some p ∧ p.serving = some (1, 0) ∧ (∀ g, g ∈ s.funcs → g.plugin = none) ∧ s.runnables 0 = [(1, 0)] ∧
    t.getThread? 2 = some t.me ∧ t.me.st = .trapped ∧ t.getPart? t.me.part = some p ∧ p.home = some 1 ∧
    (t.getFunc 1).trpm = true := by decide +kernel

/-- The world whose queue 0 holds a slot at host address 0. -/
def slotted (slot : BitVec 512) : State := (hosted func1 pair0).store (hostKey 0 0) 64 slot
def slotOk (slot : BitVec 512) : Bool :=
  slot &&& ~~~(place 512 0 (0xFFFF03FF#32) ||| bodyMask (slot.toNat % 256) ||| place 512 0x38 (BitVec.allOnes 64)) = 0
/-- A LAUNCH, one with a dependency at level 7, and a SIGNAL with a bit that must be zero. -/
theorem test_hyps_hostCommands_fetch :
    let s := slotted 1
    let dep := place 512 0 (1#64) ||| place 512 0x18 (0xF0000#64)
    (s.getFunc 1).runnable ((s.getFunc 1).queue 0) = true ∧ (∀ c, c ∈ s.cmds → c.cid < s.nextId) ∧
    (s.load (hostKey (fnPort 1) 0) 64 512 : BitVec 512) = 1 ∧ slotOk 1 = true ∧ (1#512).getLsbD 211 = false ∧
    (1#512).getLsbD 275 = false ∧ slotOk dep = true ∧ dep.toNat % 256 = 1 ∧ dep.getLsbD 211 = true ∧
    dep.extractLsb' 208 3 = 7#3 ∧ slotOk (3 ||| place 512 8 (1#64)) = false ∧
    ((slotted dep).load (hostKey (fnPort 1) 0) 64 512 : BitVec 512) = dep := by decide +kernel

/-- A started command of queue 0. -/
def command (op : Nat) : Cmd :=
  { (default : Cmd) with cid := 4, fn := 1, slot := BitVec.ofNat 512 op ||| place 512 8 (0x100000#64), st := .started
                         part := some 0 }
def commanded (c : Cmd) : State := { hosted func1 pair0 with cmds := [c] }
def channel0 : Channel := { (default : Channel) with srcPort := 4, dstPort := 5, allow := 2 }
theorem test_hyps_hostCommands :
    let c := command 3
    let s := commanded c
    let f := { c with st := .fetched }
    let past := { c with code := 1 }
    let gone := { past with dropped := true }
    let piped := { command 2 with chans := [channel0] }
    let away := { commanded (command 1) with parts := [{ pair0 with resident := false }] }
    s.getCmd? 4 = some c ∧ c.st = .started ∧ c.code = 0 ∧ (commanded f).getCmd? 4 = some f ∧ (commanded f).mayStart f = true ∧
    (command 4).op' = 4 ∧ past.st ≠ .finished ∧ past.chans = [] ∧ past.code ≠ 0 ∧ past.dropped = false ∧
    ((commanded past).charge 0 5 8).1 = true ∧ gone.dropped = true ∧ away.cmdPart (command 1) = none ∧ (command 1).lids = [] ∧
    ((commanded piped).cmds.findSome? (fun x => (x.chans.find? (fun y => y.num == channel0.num)).map (fun y => (x, y)))) =
      some (piped, channel0) ∧ channel0.srcPort < 8 ∧ channel0.dstPort < 8 ∧ s.cmdPart c = some pair0 := by decide +kernel
theorem test_hyps_hostCommands_launch :
    let s := commanded (command 1)
    let g := pair0.agent
    s.cmdPart (command 1) = some pair0 ∧ (command 1).deps = [] ∧ reads s g ((command 1).word 8 + 0x40) 8 = some 0 ∧
    (s.readMem g ((command 1).word 8 + 0x40) 8).2.freeTurns (rootOf pair0 (BitVec.ofNat 64 0)).1 (rootOf pair0 (BitVec.ofNat 64 0)).2.1 =
      1 :: [2, 3, 4, 5, 6, 7] := by decide +kernel

/-- Descriptors of one stage at address 0: without channels, with a reserved bit, and with 65 channels. -/
def piping (hv : BitVec 64) : State := (commanded (command 2)).store (stackKey 0 0x100000) 8 hv
def stagesOf (s : State) : Option (List Launch) := match (s.readStages pair0 [0]).1 with | .done l => some l | _ => none
theorem test_hyps_hostCommands_pipe :
    let g := pair0.agent
    reads (piping 0) g 0x100000 64 = some 0 ∧ reads (piping 0x10) g 0x100000 64 = some 0x10 ∧
    reads (piping 0x4100) g 0x100000 64 = some 0x4100 ∧ 64 < 0x4100 / 256 % 256 ∧ 0 / 256 % 256 ≤ 64 ∧
    reads ((piping 0).readMem g 0x100000 64).2 g 0x100040 128 = some 0 ∧
    (∀ hv, hv ∈ [0, 0x10] →
      let s3 := (((piping (BitVec.ofNat 64 hv)).readMem g 0x100000 64).2.readMem g 0x100040 128).2
      (stagesOf s3).map (fun ls => s3.pipeCode pair0 4 (BitVec.ofNat 512 hv) [] ls) = some (if hv = 0 then 0 else 1)) := by
  decide +kernel
theorem test_hyps_hostCommands_stage :
    let c := { command 2 with stage := 1, lids := [9] }
    let s := commanded c
    let g := pair0.agent
    let s1 := (s.readMem g 0x100040 8).2
    c.op' = 2 ∧ c.stage = 0 + 1 ∧ c.lids ≠ [] ∧ s.cmdPart c = some pair0 ∧ reads s g (c.word 8 + BitVec.ofNat 64 0x40) 8 = some 0 ∧
    reads s1 g (BitVec.ofNat 64 0 + 0x40) 8 = some 0 ∧ (s1.readMem g 0x40 8).2.freeTurns 0 0 = 1 :: [2, 3, 4, 5, 6, 7] ∧
    rootOf pair0 (BitVec.ofNat 64 0) = (0, 0, []) := by decide +kernel

def atLeast (v : BitVec 64) : Cmd := { command 4 with slot := (command 4).slot ||| place 512 16 v }
/-- A word that a write under way has released. -/
def released : State :=
  let s := commanded (atLeast 0)
  let w := { (default : Req) with rid := 7, kind := .store }
  { s with reqs := [w], msgs := [{ (default : Msg) with key := stackKey 0 0x100000, n := 8, items := [{ part := 0, mask := 3, ids := [7] }] }] }
theorem test_hyps_hostCommands_signals :
    let s := commanded (command 3)
    let s0 := (s.charge 0 5 8).2
    let g := pair0.agent
    let w := commanded (atLeast 1)
    let z := commanded (atLeast 0)
    let u := { w with funcs := [{ func1 with queues := [{ queue0 with mapped := false }] }] }
    (s.charge 0 5 8).1 = true ∧ placedKey s0 g 0x100000 8 .atomic = some (stackKey 0 0x100000) ∧
    (s0.placeOf g 0x100000 8 .atomic).2.eccRead (stackKey 0 0x100000) 8 = false ∧
    ((w.getFunc 1).queue 0).mapped = true ∧ reads w g 0x100000 8 = some 0 ∧ 0 < ((atLeast 1).word 16).toNat ∧
    reads z g 0x100000 8 = some 0 ∧ ((atLeast 0).word 16).toNat ≤ 0 ∧
    ((z.readMem g 0x100000 8).2.frontAcquire pair0 0x100000).1.isSome = true ∧
    ((released.readMem g 0x100000 8).2.frontAcquire pair0 0x100000).1.isSome = false ∧
    ((u.getFunc 1).queue 0).mapped = false := by decide +kernel

/-- COPYH of 300 bytes to or from 0x100000, or to an address of no form that the front end has. -/
def copyCmd (dev dir : BitVec 64) : Cmd :=
  { command 5 with slot := BitVec.ofNat 512 5 ||| place 512 16 dev ||| place 512 24 (300#64) ||| place 512 32 dir }
theorem test_hyps_hostCommands_copies :
    let s := commanded (copyCmd 0x100000 0)
    let r := commanded (copyCmd 0x100000 1)
    let b := commanded (copyCmd 0xC000000000000000 0)
    let g := pair0.agent
    ((command 5).slot.extractLsb' 192 32).toNat = 0 ∧ ((copyCmd 0x100000 0).slot.extractLsb' 192 32).toNat = 300 ∧
    (copyCmd 0x100000 0).dropped = false ∧ (s.charge 0 4 256).1 = true ∧ (copyCmd 0x100000 0).slot.getLsbD 256 = false ∧
    writes (s.charge 0 4 256).2 g 0x100000 256 (memRead (s.charge 0 4 256).2.mem (hostKey 0 0) 256) = true ∧
    (copyCmd 0x100000 1).slot.getLsbD 256 = true ∧ reads (r.charge 0 4 256).2 g 0x100000 256 = some 0 ∧
    isFail ((b.charge 0 4 256).2.writeMem g 0xC000000000000000 256 (memRead (b.charge 0 4 256).2.mem (hostKey 0 0) 256)) = true := by
  decide +kernel
theorem test_hyps_hostCommands_handoff :
    let c := { command 6 with slot := 6 }
    let d := { command 6 with slot := BitVec.ofNat 512 6 ||| place 512 8 (5#64) }
    let o := { c with op := some (0, 1) }
    let s := { commanded c with parts := [pooled] }
    let w := { withDie (commanded o) (fun k => { k with hand := { Timeline.init with c := 1, i := 1 } }) with parts := [pooled] }
    c.op = none ∧ s.cmdPart c = some pooled ∧ pooled.memcfg.getLsbD 48 = true ∧ pair0.memcfg.getLsbD 48 = false ∧ ¬ (c.fn % 257 = 0) ∧
    pooled.stackList[(c.word 8).toNat % 16]? = some 0 ∧ pair0.stackList[(d.word 8).toNat % 16]? = none ∧
    pooled.dies.contains 0 = true ∧ pooled.dies.contains ((0 + 1) % 16) = true ∧
    (s.getDie (s.ownerDie 0)).handQ.length + (s.getDie (s.ownerDie 0)).hand.held.length < 16 ∧
    (w.getTl (.hand 0)).frec = none ∧ (w.getTl (.hand 0)).isDone 1 = true := by decide +kernel

/-- A management command of a mailbox at the head of the order, for partition 0: its OP and its words at 0x08, 0x10 and 0x18. -/
def mgmtCmd (op a b c : Nat) (monitor : Bool) : Mgmt :=
  { (default : Mgmt) with
    mid := 6, src := .mailbox 0, monitor := monitor
    block := BitVec.ofNat 512 op ||| place 512 8 (BitVec.ofNat 64 a) ||| place 512 16 (BitVec.ofNat 64 b) |||
      place 512 24 (BitVec.ofNat 64 c) }
def managed (m : Mgmt) (p : Partition) : State :=
  { hosted func1 p with
    mgmt := [m], launches := [], kaolin := { State.reset.kaolin with ready := 0x7FFFFFFFFF }
    dies := [upDie 0, upDie 1, upDie 2] }
/-- The block of a command breaks no rule of R471. -/
def cleanBlock (m : Mgmt) (allowed : BitVec 512) : Bool := m.block &&& ~~~(allowed ||| place 512 0 (0xFFFFFFFF000F00FF#64)) = 0
theorem test_hyps_managementCommands :
    let bad := mgmtCmd 8 2 0 0 true
    let cfg := mgmtCmd 8 1 0 0 true
    let s := managed cfg pair0
    bad.op = 8 ∧ cleanBlock bad (opMask 8 0xFFFF003F00000001) = false ∧ cfg.op = 8 ∧
    cleanBlock cfg (opMask 8 0xFFFF003F00000001) = true ∧ s.mgmt.head? = some cfg ∧ s.getPart? cfg.part = some pair0 ∧
    ({ s with parts := [] } : State).getPart? cfg.part = none ∧ (mgmtCmd 2 0 0 0 false).monitor = false ∧
    cleanBlock (mgmtCmd 2 0 0 0 false) 0 = true ∧ cleanBlock (mgmtCmd 3 5 0 0 false) (opMask 8 0xF) = true ∧
    (mgmtCmd 3 5 0 0 false).opnd 8 0 4 ≠ 0 := by decide +kernel
/-- PFORM of die 2, which is free, of die 1, which is not, and of die 2 in an order that names another. -/
theorem test_hyps_managementCommands_pform :
    let m := mgmtCmd 1 4 2 2 true
    let t := { m with block := m.block ||| BitVec.ofNat 512 (2 ^ 16) }
    let s := managed t pair0
    let allowed := opMask 8 0xFFFF ||| opMask 0x10 (2 ^ 64 - 1) ||| opMask 0x18 (2 ^ 64 - 1) ||| opMask 0x20 3
    let dies := (List.range 16).filter (fun d => t.block.getLsbD (64 + d))
    let sts := (List.range 16).filter (fun st => dies.contains (s.ownerDie st))
    cleanBlock t allowed = true ∧ t.op = 1 ∧ t.monitor = true ∧ t.opnd 8 0 16 ≠ 0 ∧ dies = [2] ∧ sts = [2] ∧ t.part = 1 ∧
    s.getPart? 1 = none ∧ (s.getPart? 0).isSome = true ∧ s.unformable [2] = false ∧ s.unformable [1] = true ∧ oneToOne dies dies = true ∧
    oneToOne sts sts = true ∧ oneToOne (nibbles 1 1) dies = false ∧ Memory.wf s.mem ∧ s.parts.length ≤ 16 := by decide +kernel
theorem test_hyps_managementCommands_parts :
    let other := newPartition 1 [2] [2] 1
    let m := mgmtCmd 4 1 0x11 0 true
    let s := { managed m pair0 with parts := [pair0, other] }
    let idle := { managed (mgmtCmd 2 0 0 0 true) pair0 with launches := [] }
    cleanBlock m (opMask 8 0xF ||| opMask 0x10 0x1F) = true ∧ m.op = 4 ∧ s.getPart? 0 = some pair0 ∧
    s.getPart? (m.opnd 0x10 0 4) = some other ∧ pair0.stackList.contains (m.opnd 8 0 4) = true ∧ m.block.getLsbD 132 = true ∧
    other.dies.contains ((1 + 1) % 16) = true ∧ s.stackDraining 1 = false ∧ pair0.num ≠ other.num ∧ Memory.wf s.mem ∧
    pair0.stackList.contains 7 = false ∧ idle.partBusy 0 = false ∧
    ({ idle with launches := [{ launch1 with part := 0 }] } : State).partBusy 0 = true := by decide +kernel
def savedPair : Partition := { pair0 with memcfg := 0, pools := [(0, 0x100000, 0x200000), (1, 0x300000, 0x20000000)] }
theorem test_hyps_managementCommands_moves :
    let s := managed (mgmtCmd 6 0 0 0 false) savedPair
    let gone := { savedPair with resident := false }
    let t := managed (mgmtCmd 7 0 0 0 false) gone
    (mgmtCmd 6 0 0 0 false).op = 6 ∧ cleanBlock (mgmtCmd 6 0 0 0 false) 0 = true ∧ savedPair.resident = true ∧
    (managed (mgmtCmd 6 0 0 0 false) pair0).saveArea pair0 0 = none ∧ (∀ d, d ∈ savedPair.dies → (s.saveArea savedPair d).isSome = true) ∧
    s.updating = false ∧ (mgmtCmd 7 0 0 0 false).op = 7 ∧ gone.resident = false ∧ t.partDrains gone = false ∧
    ({ gone with dies := [] } : Partition).dies.length = 0 ∧ t.badPartition { gone with dies := [] } = none ∧
    t.badPartition { gone with pools := [] } = some (0, 0) ∧ (∀ d, d ∈ gone.dies → (t.getDie d).stopped = false) := by
  decide +kernel

/-- Commands of the supervisor that pass their checks, each with the bits it may set. -/
theorem test_hyps_managementCommands_tables :
    let s := managed (mgmtCmd 5 1 0x1000 0x2000 false) pair0
    let ok := fun (m : Mgmt) (op : Nat) (allowed : BitVec 512) => m.op == op && cleanBlock m allowed
    ok (mgmtCmd 5 1 0x1000 0x2000 false) 5 (opMask 8 0xF ||| opMask 0x10 (2 ^ 64 - 4096) ||| opMask 0x18 (2 ^ 64 - 4096)) = true ∧
    (mgmtCmd 5 1 0x1000 0x2000 false).opnd 8 0 4 < s.dieCount 0 ∧
    ok (mgmtCmd 9 0x1000 0 0 false) 9 (opMask 8 (2 ^ 40 - 4096)) = true ∧
    ok (mgmtCmd 0xA 3 1024 0 false) 0xA (opMask 8 0xFF ||| opMask 0x10 0x7FF ||| opMask 0x18 (2 ^ 64 - 1)) = true ∧
    (mgmtCmd 0xA 3 1024 0 false).opnd 0x18 0 64 + 4 * 1024 ≤ s.memberSpace (mgmtCmd 0xA 3 1024 0 false) ∧
    (mgmtCmd 0xA 3 1025 0 false).opnd 0x10 0 11 = 1025 ∧
    ok (mgmtCmd 0xB 5 7 0 false) 0xB (opMask 8 7 ||| opMask 0x10 0xFFFFFFFF) = true ∧ (mgmtCmd 0xB 5 7 0 false).opnd 8 0 3 < 6 ∧
    ok (mgmtCmd 0xC 1 256 0 false) 0xC (opMask 8 1 ||| opMask 0x10 0x1FF) = true ∧ (mgmtCmd 0xC 1 256 0 false).opnd 0x10 0 9 = 256 ∧
    ok (mgmtCmd 0xD 7 0xFFFF 0 false) 0xD (opMask 8 0xFFFF ||| opMask 0x10 0xFFFF) = true ∧
    ok (mgmtCmd 0x11 1000000 0 0 false) 0x11 (opMask 8 0xFFFFF) = true ∧ (mgmtCmd 0x11 1000000 0 0 false).opnd 8 0 20 = 1000000 := by
  decide +kernel
theorem test_hyps_managementCommands_functions :
    let assign := mgmtCmd 0xE 1 3 20 false
    let plug := mgmtCmd 0x12 1 0x100000 16 false
    let pool := mgmtCmd 0x14 1 0x100000 2 false
    let kill := mgmtCmd 0x15 0 5 1 false
    let s := managed plug pair0
    let k := { managed kill pair0 with me := { user with wid := 5 }, threads := [user] }
    let ok := fun (m : Mgmt) (op : Nat) (allowed : BitVec 512) => m.op == op && cleanBlock m allowed
    ok assign 0xE (opMask 8 0x3FF ||| opMask 0x10 0x1F ||| opMask 0x18 0x3F ||| opMask 0x20 (2 ^ 64 - 1)) = true ∧
    assign.opnd 8 0 10 < 514 ∧ assign.opnd 0x18 0 6 = 20 ∧ (mgmtCmd 0xE 1 3 19 false).opnd 0x18 0 6 = 19 ∧
    assign.block.getLsbD 128 = true ∧ (mgmtCmd 0xE 1 0 0 false).block.getLsbD 128 = false ∧
    ok plug 0x12 (opMask 8 0x3FF ||| opMask 0x10 (2 ^ 64 - 1) ||| opMask 0x18 0xFFFFF ||| opMask 0x20 (2 ^ 64 - 1)) = true ∧
    0 + 16 ≤ Config.fwSizeIo ∧ s.logFull = false ∧ reads s pair0.agent 0x100000 16 = some 0 ∧
    ok pool 0x14 (opMask 8 0x3FF ||| opMask 0x10 (2 ^ 64 - 1) ||| opMask 0x18 0xFFFF) = true ∧
    ok kill 0x15 (opMask 8 0xF ||| opMask 0x10 (2 ^ 64 - 1) ||| opMask 0x18 7) = true ∧ kill.opnd 8 0 4 < s.dieCount 0 ∧
    kill.opnd 0x18 0 3 < 7 ∧ k.allThreads = [] ++ k.me :: [] ∧ k.me.part = 0 ∧ k.me.die = 0 ∧ k.me.onControl = false ∧
    k.me.wid = kill.block.extractLsb' 128 64 ∧ k.me.st ≠ .exited ∧ k.getThread? 2 = some k.me ∧
    s.allThreads.all (fun t => t.wid != kill.block.extractLsb' 128 64) = true := by decide +kernel
/-- The one value that decides whether an image is taken is the loader's own: each answer leaves one case to state. -/
theorem test_hyps_managementCommands_signature (l : List Byte) : Config.signatureOk l = true ∨ Config.signatureOk l = false := by
  cases Config.signatureOk l <;> simp
theorem test_hyps_managementCommands_queues :
    let map := mgmtCmd 0xF 1 0 0 false
    let slice := mgmtCmd 0x13 1 50 0 false
    let s := managed map pair0
    let u := { s with funcs := [{ func1 with queues := [] }] }
    let n := { s with funcs := [{ func1 with queues := (List.range 512).map (fun i => { Queue.init (i + 1) with mapped := true }) }] }
    let ok := fun (m : Mgmt) (op : Nat) (allowed : BitVec 512) => m.op == op && cleanBlock m allowed
    ok map 0xF (opMask 8 0x3FF ||| opMask 0x10 0x3F) = true ∧ s.updating = false ∧ ((u.getFunc 1).queue 0).mapped = false ∧
    u.mappedCount (fnPort 1) < 512 ∧ ((n.getFunc 1).queue 0).mapped = false ∧ 512 ≤ n.mappedCount (fnPort 1) ∧
    ok (mgmtCmd 0x10 1 0 0 false) 0x10 (opMask 8 0x3FF ||| opMask 0x10 0x3F) = true ∧
    ok slice 0x13 (opMask 8 0x3FF ||| opMask 0x10 0x1FFFF) = true ∧ 50 ≤ slice.opnd 0x10 0 17 ∧ slice.opnd 0x10 0 17 ≤ 100000 ∧
    (mgmtCmd 0x13 1 49 0 false).opnd 0x10 0 17 < 50 ∧ 100000 < (mgmtCmd 0x13 1 100001 0 false).opnd 0x10 0 17 ∧
    map.src = .mailbox 0 ∧ ({ map with src := .turn 2 8 } : Mgmt).src = .turn 2 8 ∧ 2 ≠ 0 ∧ (s.getThread? 2).isSome = true := by
  decide +kernel

/-- Mailbox requests of port 0 and the first I/O die. -/
def mailed (m : Mailbox) : State := { world user with mailbox := #v[m, Mailbox.init] }
def updated (phase : Nat) : State :=
  { mailed { Mailbox.init with busy := true } with
    io := #v[{ port := 0, slot := 0, update := some { slot := 1, phase := phase, shadow := [], port := 0 } },
             { port := 1, slot := 0, update := none }] }
theorem test_hyps_firmwareAndMailbox :
    let s := mailed { Mailbox.init with mblen := 8, busy := true }
    let far := mailed { Mailbox.init with mblen := 8, data := [0xFF, 0xFF, 0x3F, 0] }
    let log := fun (n : Byte) => mailed { Mailbox.init with data := [0, 0, 0, 0, n, 0, 0, 0] }
    let ready := { s with kaolin := s.kaolin.setReady 37 }
    0 < 2 ∧ 1 < 2 ∧ (s.ioOf 0).update = none ∧ (updated 1).io[0].update.isSome = true ∧
    natOf ((s.mailbox' 0).bytes 0 4) + ((s.mailbox' 0).mblen.toNat - 4) ≤ 0x400000 ∧
    0x400000 < natOf ((far.mailbox' 0).bytes 0 4) + ((far.mailbox' 0).mblen.toNat - 4) ∧ (s.mailbox' 0).tgt < 2 ∧
    (s.mailbox' 0).busy = true ∧ s.logFull = false ∧
    ((updated 2).ioOf 0).update.map (fun u => (u.phase, u.port)) = some (2, 0) ∧
    ((updated 1).ioOf 0).update.map (·.phase) = some 1 ∧ ((updated 3).ioOf 0).update.map (·.phase) = some 3 ∧
    natOf (((log 0).mailbox' 0).bytes 4 4) = 0 ∧ natOf (((log 64).mailbox' 0).bytes 4 4) = 64 ∧
    natOf (((log 63).mailbox' 0).bytes 4 4) = 63 ∧ (mgmtEvent 1 s.nextId).isSome = true ∧ mgmtEvent 0 s.nextId = none ∧
    s.kaolin.ready.getLsbD 37 = false ∧ ready.kaolin.ready.getLsbD 37 = true := by decide +kernel
/-- The words of an image that decide whether it may run: the state block asks for less than its ACCEPT, or not. -/
theorem test_hyps_firmwareAndMailbox_accept :
    let s := mailed Mailbox.init
    let t := s.store (fwKey 16 (slotBase 1 + 8)) 4 (1#32)
    (s.imageWord 0 1 8).toNat ≤ (s.load (fwKey 16 stateBlock) 4 32 : W32).toNat ∧
    (t.load (fwKey 16 stateBlock) 4 32 : W32).toNat < (t.imageWord 0 1 8).toNat := by decide +kernel

theorem test_hyps_packageEvents :
    let s := { world user with kaolin := State.reset.kaolin, dies := [] }
    let at' := fun (n : Nat) => { s with kaolin := { s.kaolin with nextDie := n } }
    let hot := withDie s (fun d => { d with cyc := 15 })
    s.kaolin.tripped = false ∧ ({ s.kaolin with tripped := true }).tripped = true ∧ (at' 2).kaolin.nextDie = 0 + 2 ∧
    (at' 17).kaolin.nextDie = 15 + 2 ∧ (at' 0).kaolin.nextDie < 2 ∧ s.kaolin.log.length < 4095 ∧ s.ownerDie 0 = 0 ∧
    (hot.getDie 0).cyc % 8 = 7 ∧ (1 ≠ 0 ∧ 1 ≠ 0) := by decide +kernel
/-- A partition of one die that has stopped with nothing under way, and one whose die runs. -/
def settled (stopped : Bool) : State :=
  let p := { savedPair with dies := [0], evicting := true }
  { managed (mgmtCmd 6 0 0 0 false) p with
    me := Thread.init, pre := Thread.init, threads := [], dies := [{ upDie 0 with stopped := stopped, stopAt := 0 }] }
theorem test_hyps_packageEvents_quiesce :
    (∃ p, (settled true).parts.find? (fun p => p.dies.contains 0) = some p ∧ (settled true).quiet p = true) ∧
    (∃ p, (settled false).parts.find? (fun p => p.dies.contains 0) = some p ∧ (settled false).quiet p = false) ∧
    (settled true).mgmt = [mgmtCmd 6 0 0 0 false] ∧ (mgmtCmd 6 0 0 0 false).block.toNat % 256 = 6 ∧ (mgmtCmd 6 0 0 0 false).part = 0 := by
  exact ⟨⟨_, rfl, by decide +kernel⟩, ⟨_, rfl, by decide +kernel⟩, rfl, by decide +kernel, by decide +kernel⟩

/-! ### More hypotheses that can be met: one witness for each clause -/

/-- A firmware image of a supervisor turn: control core 0 of I/O die 16, and the word that its x1 names. -/
def keeping (v : W32) (cells : List Host.Cell) : State :=
  { world { keeper with x := Vector.replicate 32 v } with mem := cells, parts := [pair0] }

theorem test_hyps_controlTransfers_others :
    let s := world { busy with x := wr busy.x 31 0x10004 }
    let reg := fun (v : W32) => BitVec.ofNat 64 (s.pre.pc.toNat / 2 ^ 32 * 2 ^ 32 + v.toNat)
    startBit s (s.pre.pc + BitVec.ofInt 64 (4 * (1#18).toInt)) = some false ∧
    startBit s (s.pre.pc + BitVec.ofInt 64 (4 * (0#26 ++ 1#18).toInt)) = some false ∧
    (s.rx 31).toNat % 4 = 0 ∧ startBit s (reg (s.rx 31)) = some false ∧
    startBit s (s.pre.pc + BitVec.ofInt 64 (4 * (1#11).toInt)) = some false ∧
    startBit s (s.pre.pc + BitVec.ofInt 64 (4 * (0#11).toInt)) = some true := by decide +kernel

theorem test_hyps_returnFromTrap_assisted :
    let s := { world { user with st := .trapped } with
      parts := [{ pair0 with home := some 1 }], funcs := [{ (default : Func) with fn := 1, part := some 0, trpm := true }] }
    s.me.tid ≠ 0 ∧ s.me.st = .trapped ∧ s.assisted s.me = true ∧ (world { user with st := .trapped }).assisted user = false := by
  decide +kernel

theorem test_hyps_systemRegisterReads_part :
    let d := world { keeper with die := 1 }
    (world keeper).pre.onControl = true ∧ 16 ≤ (world keeper).pre.die ∧ d.pre.onControl = true ∧ d.pre.die < 16 ∧
    d.parts.find? (fun q => q.dies.contains d.pre.die) = some pair0 ∧
    (∀ p, p ∈ (world { keeper with die := 7 }).parts → 7 ∉ p.dies) := by decide +kernel

theorem test_hyps_systemRegisterWrites_control :
    let s := keeping 64 [(fwKey 16 64, 1)]
    let none' := keeping 64 []
    let busy' := world { keeper with x := Vector.replicate 32 64, ctl := { keeper.ctl with mstat := 0x80000000 } }
    s.pre.priv = .supervisor ∧ (keeping 65 []).pre.priv = .supervisor ∧ ((keeping 65 []).rx 1).toNat % 64 ≠ 0 ∧
    (s.rx 1).toNat % 64 = 0 ∧ (s.rx 1).toNat + 64 ≤ s.me.abSize ∧ s.me.ctl.mstat.getLsbD 31 = false ∧
    busy'.me.ctl.mstat.getLsbD 31 = true ∧ (mgmtEvent (memGet s.mem (fwKey 16 64)).toNat s.nextId).isSome = true ∧
    mgmtEvent (memGet none'.mem (fwKey 16 64)).toNat none'.nextId = none ∧ Memory.wf none'.mem ∧
    sysAssigned 0x100 = true ∧ sysAssigned 0x020 = true := by decide +kernel

theorem test_hyps_pluginCalls_ends :
    let s := world { keeper with priv := .plugin }
    let up := { world keeper with io := #v[{ port := 0, slot := 0, update := some { slot := 1, phase := 1, shadow := [], port := 0 } },
      { port := 1, slot := 0, update := none }] }
    (world keeper).updating = false ∧ up.updating = true ∧ s.pre.priv = .plugin ∧ s.pre.tid = s.me.tid ∧ s.pre.die = s.me.die ∧
    s.pre.ctl.pcall = s.me.ctl.pcall ∧ tcAccess ≠ tcTrap ∧ tcAccess ≠ tcEcc ∧ s.me.tid ≠ 0 ∧ (1#16) ≠ 0 := by decide +kernel

def failsWith (r : Except (BitVec 8) SyncPlace) (c : BitVec 8) : Bool := match r with | .error d => d == c | _ => false
theorem fails_of (r : Except (BitVec 8) SyncPlace) (c : BitVec 8) (h : failsWith r c = true) : r = .error c := by
  unfold failsWith at h
  split at h <;> simp_all
/-- A control core: a misaligned access, one beyond firmware memory, and a plug-in's outside its guards. -/
theorem test_hyps_ownBufferAddresses_control :
    let s := world keeper
    let p := world { keeper with priv := .plugin }
    s.pre.onControl = true ∧ (1#2).toNat < 3 ∧ s.pre.offReq = none ∧ failsWith (s.syncPlace 1 2 4 4 .read) tcAlign = true ∧
    failsWith (s.syncPlace 1 (BitVec.ofNat 64 s.pre.abSize) 4 4 .write) tcBufferRange = true ∧
    failsWith (p.syncPlace 1 8 4 4 .write) tcAccess = true := by decide +kernel

def awayTo (r : Except (BitVec 8) SyncPlace) : Bool := match r with | .ok (.away _) => true | _ => false
theorem away_of (r : Except (BitVec 8) SyncPlace) (h : awayTo r = true) : ∃ b, r = .ok (.away b) := by
  unfold awayTo at h
  split at h <;> simp_all
/-- Every a register names one address: WB of core 1, die memory, or core 1 beyond its buffer; mask k1 has lane 0. -/
def pointing (a : W64) : Thread := { allA a with x := Vector.replicate 32 4, k := Vector.replicate 8 1, c := 0 }
theorem test_hyps_requestsAndReplies_issue :
    let far := world (pointing 0x8000800000000000#64)
    let s := { world { pointing 0x8000800000000000#64 with stamped := true } with bun := { Bundle.init with stamp := some (false, 3) } }
    let mem := world (pointing 0x100000#64)
    let past := world (pointing 0x8000800000030000#64)
    far.pre.offReq = none ∧ far.pre.stamped = false ∧ s.pre.stamped = true ∧ s.pre.priv ≠ .plugin ∧
    (∀ n, n ∈ [(1, 1), (2, 2), (4, 4), (8, 8), (256, 8)] → ∀ need, need ∈ [Need.read, .write] →
      awayTo (far.syncPlace 3 (far.amAddr 0 0 0 n.1) n.1 n.2 need) = true) ∧
    awayTo ((world (pointing 0x8000A00000000000#64)).syncPlace 3 0x8000A00000000000#64 8 8 .atomic) = true ∧
    addrBuf 0x8000A00000000000#64 ≠ 0 ∧
    addrForm (mem.ra 0) < 2 ∧ addrForm (past.ra 0) = 2 ∧ past.ownAddr (past.ra 0) = false ∧
    failsWith (past.syncPlace 3 (past.ra 0) 4 4 .read) tcBufferRange = true ∧
    (far.rk 1).getLsbD 0 = true ∧ (∀ l, l < 64 → 0 < l → (far.rk 1).getLsbD l = false) := by decide +kernel

/-- A value at its place in a stream register. -/
def fld (n v : Nat) : QReg := BitVec.ofNat 256 (v * 2 ^ (qField n).1)
/-- Rows past AB; the ring of an exponent whose west core the launch does not hold; and Prism streams that break each check. -/
theorem test_hyps_engineCommands_ranges :
    let mul := MatKind.mul false false
    let rot := MatKind.mul false true
    let far := owning (streamA ||| fld 0 98288) streamB []
    let wide := owning (streamA ||| fld 6 2) streamB []
    let r : Region := { base := 98240, rows := 4, len := 32, stride := 32, buf := 1 }
    let t := streamA &&& ~~~(7#256 <<< 22)
    let k := PrismKind.plaunch
    mul.reserved (0, far.rq 0) (1, far.rq 1) = none ∧ mul.misaligned (0, far.rq 0) (1, far.rq 1) = none ∧
    (mul.regions 2 (0, far.rq 0) (1, far.rq 1)).findSome? Region.past = some 98304 ∧
    (∀ j, j < 2 → r.base + j * r.stride + r.len ≤ bufSize r.buf) ∧ 2 < r.rows ∧ bufSize r.buf < r.base + 2 * r.stride + r.len ∧
    rot.reserved (0, wide.rq 0) (1, wide.rq 1) = none ∧ rot.misaligned (0, wide.rq 0) (1, wide.rq 1) = none ∧
    (∀ r, r ∈ rot.regions 2 (0, wide.rq 0) (1, wide.rq 1) → r.past = none) ∧
    (rings wide.pre.core (qRing (wide.rq 0)) (qRing (wide.rq 1))).find? (fun k => !wide.coreHeld 0 k wide.pre.lid) = some 3 ∧
    k.reserved streamB = some 8 ∧ k.reserved (t ||| fld 0 1) = none ∧ k.misaligned (t ||| fld 0 1) = some 1 ∧
    k.reserved (t ||| fld 0 98300) = none ∧ k.misaligned (t ||| fld 0 98300) = none ∧
    (k.footprint (t ||| fld 0 98300) 3).findSome? (fun r =>
      if bufSize r.1 < r.2.1 + r.2.2 then some (max r.2.1 (bufSize r.1)) else none) = some 98304 := by decide +kernel

/-- Two MMROTs of cores 0 and 1, each the other's neighbour to the west and the east. -/
def rotOn (core : Nat) : MatCmd :=
  let q := matCmd (.mul false true)
  { q with iss := { q.iss with core := core, num := core + 1 }, qa := streamA ||| fld 6 1, out := #v[1, 1], inc := #v[1, 1] }
def rotating (f g : MatCmd → MatCmd) : State :=
  { world user with cores := [{ held 0 with mat := { (held 0).mat with queue := [f (rotOn 0)] } },
                              { held 1 with mat := { (held 1).mat with queue := [g (rotOn 1)] } }] }
theorem ordered_of (s : State) (d : Nat)
    (h : s.cores.all (fun c => c.mat.queue.all (fun k => k.iss.die == c.die && k.iss.core == c.core) &&
      decide (c.mat.queue.map (fun k => k.iss.num)).Nodup) = true) :
    (∀ y k, k ∈ (s.matOf d y).queue → k.iss.die = d ∧ k.iss.core = y) ∧
      ∀ y, ((s.matOf d y).queue.map (fun k => k.iss.num)).Nodup := by
  have e : ∀ y, (∀ k, k ∈ (s.matOf d y).queue → k.iss.die = d ∧ k.iss.core = y) ∧
      ((s.matOf d y).queue.map (fun k => k.iss.num)).Nodup := by
    intro y
    unfold State.matOf State.getCore
    cases f : s.cores.find? (fun x => x.die == d && x.core == y) with
    | none => exact ⟨fun k hk => by simp [Core.init, Matrix.init] at hk, by simp [Core.init, Matrix.init]⟩
    | some c =>
      have m := List.all_eq_true.mp h c (List.mem_of_find?_eq_some f)
      have p := List.find?_some f
      simp only [Bool.and_eq_true, List.all_eq_true, beq_iff_eq, decide_eq_true_eq] at m p
      exact ⟨fun k hk => ⟨(m.1 k hk).1.trans p.1, (m.1 k hk).2.trans p.2⟩, m.2⟩
  exact ⟨fun y => (e y).1, fun y => (e y).2⟩
theorem test_hyps_matrixCycles_ordered :
    let s := rotating id id
    (∀ y k, k ∈ (s.matOf 0 y).queue → k.iss.die = 0 ∧ k.iss.core = y) ∧ ∀ y, ((s.matOf 0 y).queue.map (fun k => k.iss.num)).Nodup :=
  ordered_of _ 0 (by decide +kernel)
theorem test_hyps_matrixCycles_transfers :
    let out := fun (v : Nat) (q : MatCmd) => { q with out := #v[v, 1] }
    let inc := fun (q : MatCmd) => { q with inc := #v[0, 1] }
    let ecc := fun (q : MatCmd) => { out 0 q with fault := some (acEcc, 0) }
    (∀ f, f ∈ [out 0, ecc, inc] → ∀ g, g ∈ [id, out 3] →
      let s := rotating f g
      let q := f (rotOn 0)
      let w := g (rotOn 1)
      s.matCmd? 0 0 1 = some q ∧ q.iss.die = 0 ∧ q.iss.core = 0 ∧ s.ecc = [] ∧ (s.getDie 0).stopped = false ∧
      q.kind = .mul false true ∧ q.array + 12 ≤ 28 ∧ 16 ≤ 28 ∧ (s.matOf 0 0).notices = [] ∧ q.outOf 1 ≠ 0 ∧ q.incOf 1 ≠ 0 ∧
      q.ring[0]? = some 1 ∧ q.ring[0 + 2]? = some 1 ∧ 1 ≠ 0 ∧ s.coreHeld 0 1 q.iss.lid = true ∧
      s.rotOf? 0 1 q.iss.lid q.rotN = some w ∧ ringsDiffer q w 0 1 = false ∧ q.shape 0 = w.shape 0) ∧
    (out 0 (rotOn 0)).outOf 0 = 0 ∧ (out 0 (rotOn 0)).incOf 0 ≠ 0 ∧ (out 0 (rotOn 0)).fault = none ∧
    (ecc (rotOn 0)).outOf 0 = 0 ∧ (ecc (rotOn 0)).fault = some (acEcc, 0) ∧
    (inc (rotOn 0)).outOf 0 ≠ 0 ∧ (inc (rotOn 0)).incOf 0 = 0 ∧ (inc (rotOn 0)).fault = none ∧ (out 3 (rotOn 1)).outOf 0 = 3 ∧
    (rotOn 0).shape 0 ≠ ({ rotOn 1 with groupCount := 2 } : MatCmd).shape 0 := by decide +kernel
theorem test_hyps_matrixCycles_rot :
    let q := rotOn 0
    (rotating id id).matCmd? 0 0 1 = some q ∧ q.fault = none ∧ 11 + 4 < q.array := by decide +kernel

theorem test_hyps_prismCycles_planes :
    (∀ kind, kind ∈ [PrismKind.pcap false, .pldw true, .pldw false] →
      let s := prismState (prismCmd kind)
      s.prismCmd? 0 0 1 = some (prismCmd kind) ∧ (prismCmd kind).fault = none ∧ s.ecc = [] ∧ (s.getDie 0).stopped = false ∧
      Memory.wf s.mem ∧ (bandsOf (prismCmd kind).mask)[0]? = some 0 ∧ (bandsOf (prismCmd kind).mask)[1]? = some 1 ∧
      (prismCmd kind).delayBuf.toNat < 2 ^ (4096 * 7) ∧ (prismCmd kind).modeBuf.toNat < 2 ^ 4096) ∧ 7 < 8 := by decide +kernel

/-- An RLD of 8 bytes of stack 0 that the thread has not waited for, before which an acquire has come; nothing keeps it, or a
write of the thread to its place. -/
def lateRead : AsyncRead := { (default : AsyncRead) with num := 1, addr := 0x100000, size := 8, load := true, reg := 5, stale := true }
def reading (m : Thread) (q : List Req) : State :=
  let h := mkHandle 1 0 0 1
  { world { m with reads := [lateRead], rc := counted, h := Vector.replicate 8 h, e := Vector.replicate 8 1 } with reqs := q }
def blocking : Req :=
  { (default : Req) with rid := 4, kind := .store, iss := { (default : Issue) with tid := 2 }, addrs := [0x100000], size := 8, todo := 1 }
theorem test_hyps_handles_reads :
    let s := reading user []
    let w := reading user [blocking]
    let t := { reading { user with stamped := true } [blocking] with bun := { Bundle.init with stamp := some (true, 3) } }
    let ref := TlRef.remote 2
    foundAt (s.findCtx s.pre (s.rh 0) none) ref = true ∧ foundAt (w.findCtx w.pre (w.rh 0) none) ref = true ∧ s.rh 0 ≠ 0 ∧
    (w.getTl ref).opOf (handleSeq (w.rh 0)) = some 1 ∧ 1 ≤ (w.getTl ref).c ∧ (w.getTl ref).reportable 2 1 = none ∧
    s.readsReady ref 1 = true ∧ w.readsReady ref 1 = false ∧ w.pre.stamped = false ∧ w.noticed w.pre false = true ∧
    (w.re 0).toNat ≤ (w.getTl ref).c ∧ w.readsReady ref (w.re 0).toNat = false ∧
    t.pre.stamped = true ∧ (t.getTl ref).c < 3 ∧ t.bun.stamp = some (true, 3) ∧
    (world user).me.reads = [] := by decide +kernel

theorem test_hyps_taskSyllables_trig :
    let s := world { user with triggered := true }
    s.pre.priv ≠ .plugin ∧ s.me.triggered = true ∧ (world user).me.triggered = false ∧
    fenced.me.triggered = false ∧ (∃ r, r ∈ fenced.reqs ∧ r.applied = false ∧ r.rid ∈ fenced.me.seen) ∧
    (let t := world { user with stamped := true }
     t.bun.checked = false ∧ t.pre.stamped = true) ∧
    (let d := world (allA 0x8000A00000000000#64)
     (d.getDie d.pre.die).stopped = false) := by decide +kernel

theorem test_hyps_groupEvents_assisted :
    let m := { user with st := .trapped }
    let s := { world m with
      parts := [{ pair0 with home := some 1 }], funcs := [{ (default : Func) with fn := 1, part := some 0, trpm := true }] }
    s.getThread? 2 = some m ∧ m.st = .trapped ∧ s.assisted m = true ∧ (world m).assisted m = false ∧ m.st ≠ .exited := by
  decide +kernel

/-- Regions 0 and 5 of die 0: the slowest one stretches, or another; an entry from region 4 is on its way to region 5. -/
theorem test_hyps_clockEvents_regions :
    let slow := withDie (world user) (fun d => { d with stretch := 1, lead := wr (Vector.replicate 16 1) 0 0 })
    let fast := withDie (world user) (fun d => { d with stretch := 32, lead := wr (Vector.replicate 16 0) 5 9, entries := [(4, 5, 8)] })
    (∃ q, q < 16 ∧ (slow.getDie 0).leadOf q = 0 ∧ (slow.getDie 0).stretch.getLsbD q = true) ∧
    (∀ q, q < 16 → (fast.getDie 0).leadOf q = 0 → (fast.getDie 0).stretch.getLsbD q = false) ∧
    regionsMeet 5 4 = true ∧ (4, 5, 8) ∈ (fast.getDie 0).entries ∧ (fast.getDie 0).cyc ≤ 8 + 1 := by decide +kernel

/-! ### Collectives that write granule by granule, and what comes from outside -/

/-- One granule of a destination is left to be written: of a WRITE of 16 bytes to die 1, and of a reduction of 16 bytes. -/
def lastOp (ctl : W64) : CollOp := { collOp ctl with started := true, out := some 7, todo := [0] }
def lastWrites (o : CollOp) (g : Agent) (n : Nat) : Bool :=
  let s := collState o
  let u := s.noteSources (s.issuesOf o) (s.membersOf 0 o.group).length
  let a := o.dst + BitVec.ofNat 64 (granPiece o.dst n 0).1
  let k := (granPiece o.dst n 0).2
  isDone (u.mayWrite g a k) &&
    writes { (u.mayWrite g a k).2 with free := (u.mayWrite g a k).2.free + 1 } g a k (7 / 2 ^ (8 * (granPiece o.dst n 0).1) % 2 ^ (8 * k))
theorem test_hyps_collectives_last :
    let o := lastOp 0x1030006
    let s := collState o
    let u := s.noteSources (s.issuesOf o) 2
    let g : Agent := ⟨0, 1, 0, 0, true, 0⟩
    let r := lastOp 0x30000
    let t := collState r
    o.started = true ∧ o.moved = false ∧ o.isWrite = true ∧ 0 < o.count ∧ o.signal = 0 ∧ o.todo = [0] ∧ o.due = [] ∧
    (s.targetOf o).isSome = true ∧ u.targetAgent o = some g ∧ s.targetAgent o = some g ∧
    (∀ q, q ∈ s.issuesOf o → s.written q ((s.issuesOf o).map (fun x => x.iss.oid)) = []) ∧
    u.targetHeld g (o.dst + BitVec.ofNat 64 (granPiece o.dst 16 0).1) (granPiece o.dst 16 0).2 = true ∧ o.count * o.size = 16 ∧
    lastWrites o g 16 = true ∧ r.isWrite = false ∧ r.opCode ≠ 3 ∧ t.partnerFail r = none ∧
    (∀ q, q ∈ t.issuesOf r → t.written q ((t.issuesOf r).map (fun x => x.iss.oid)) = []) ∧
    0 < r.dstCount (t.membersOf 0 r.group).length * r.size ∧
    lastWrites r r.iss.agent (r.dstCount (t.membersOf 0 r.group).length * r.size) = true := by decide +kernel
/-- A WRITE whose target, member 1 of its group, is on another package. -/
theorem test_hyps_collectives_away :
    let o := { collOp 0x1030006 with started := true }
    let s := { collState o with parts := [{ pair0 with groups := [(3, [0#32, 0x5000000#32])] }] }
    let s0 := (s.collCharge [o]).2
    (s.collCharge [o]).1 = true ∧ o.out = none ∧ (s0.targetOf o).isSome = true ∧ s0.targetAgent o = none ∧
    reads s0 o.iss.agent o.src (o.count * o.size) = some 0 ∧
    (s0.readMem o.iss.agent o.src (o.count * o.size)).2.written o [o.iss.oid] = [] := by decide +kernel

/-! ### Flits, digests, the host's accesses and a group move -/

/-- SHA-256 of "abc", the example of FIPS 180-4 (a standard that the spec names, R478). -/
theorem test_sha256_abc : bytesOf 32 (sha256 [0x61, 0x62, 0x63]).toNat =
    [0xba, 0x78, 0x16, 0xbf, 0x8f, 0x01, 0xcf, 0xea, 0x41, 0x41, 0x40, 0xde, 0x5d, 0xae, 0x22, 0x23, 0xb0, 0x03, 0x61, 0xa3, 0x96,
      0x17, 0x7a, 0x9c, 0xb4, 0x10, 0xff, 0x61, 0xf2, 0x00, 0x15, 0xad] := by decide +kernel
/-- The check value of the ECMA-182 polynomial over the digits 1 to 9, of the standard (R404). -/
theorem test_crc_check : crc64 [0x31, 0x32, 0x33, 0x34, 0x35, 0x36, 0x37, 0x38, 0x39] = 0x6C40DF5F0B497347#64 := by decide +kernel
/-- The generator x^4 + 15x^3 + 54x^2 + 120x + 64 with the roots 1, α, α^2 and α^3, of the same field (R404). -/
theorem test_fec_parity : fecParity [0, 1] = [15, 54, 120, 64] := by decide +kernel
theorem test_fec_syndromes : (List.range 4).map (syndrome [1, 15, 54, 120, 64]) = [0, 0, 0, 0] := by decide +kernel

/-- A partition that serves data for logical die 0 of its chip: the flit names it, with a byte offset. -/
theorem test_hyps_fabricEvents_arrival :
    let s := linked id
    let hdr := flitHeader 0 0 0 0
    let wide := { s with parts := [{ pair0 with chip := flitChip hdr }] }
    flitSeq hdr = (s.getPort 0).expect ∧ wide.farWaits hdr = false ∧
    wide.parts.find? (fun x => x.chip == flitChip hdr && x.dies.contains (flitDie hdr)) = some { pair0 with chip := flitChip hdr } ∧
    ({ pair0 with chip := flitChip hdr } : Partition).incoming = [] ∧ (224#64).extractLsb' 0 56 ≠ 0 := by decide +kernel

theorem test_hyps_hostRegisters_waiting :
    let s := hosted func1 pair0
    let w := { s with hostHeld := [(0, .pcieLinkUp 0)] }
    let d := { s with dies := [{ Die.init 16 with dead := true }] }
    s.portDead (fnPort 1) = false ∧ s.hostHeld.any (fun y => y.1 == fnPort 1) = false ∧ w.portDead (fnPort 1) = false ∧
    w.hostHeld.any (fun y => y.1 == fnPort 1) = true ∧ d.portDead (fnPort 1) = true ∧ s.portDead 1 = false ∧
    ((hosted { func1 with en := false } pair0).getFunc 1).en = false ∧ ((hosted { func1 with part := none } pair0).getFunc 1).part = none := by
  decide +kernel

/-- A read, a write and an atomic of the window are done, or wait for a handover that drains the stack. -/
def isWait {α : Type} (r : Access α × State) : Bool := match r.1 with | .wait => true | _ => false
theorem test_hyps_hostAccesses_window :
    let s := hosted func1 pair0
    let o := { handOp 0x10 with draining := true, phys := some 0 }
    let d := { withDie s (fun k => { k with handQ := [o] }) with parts := [pair0] }
    let g := pair0.agent
    let a : W64 := func1.wbase + BitVec.ofNat 64 0x100000
    fnPort 1 = 0 ∧ s.portDead 0 = false ∧ s.hostHeld = [] ∧ (s.getFunc 1).part.bind s.getPart? = some pair0 ∧
    2 ≤ 4 ∧ 16 ≠ 4 ∧ 16 ≠ 8 ∧ s.hostReaches 0 (pair0.dies[0]?.getD 0) = true ∧ reads s g a 8 = some 0 ∧ writes s g a 8 5 = true ∧
    placedKey s g a 8 .atomic = some (stackKey 0 0x100000) ∧
    (s.placeOf g a 8 .atomic).2.eccRead (stackKey 0 0x100000) 8 = false ∧
    isWait (d.readMem g a 8) = true ∧ isWait (d.writeMem g a 8 5) = true := by decide +kernel
theorem test_hyps_hostAccesses_trap :
    let p := { pair0 with home := some 1 }
    let t := { hosted { func1 with trpm := true } p with me := { user with st := .trapped } }
    t.me.onControl = false ∧ t.getThread? 2 = some t.me ∧ (t.getFunc 1).trpm = true := by decide +kernel

theorem test_hyps_hostCommands_others :
    let past := { command 3 with code := 1, slot := (command 3).slot ||| BitVec.ofNat 512 (2 ^ 9) }
    let s := commanded past
    let s1 := (s.charge 0 5 8).2
    let hostWord := { commanded { command 3 with dropped := true } with parts := [{ pair0 with home := some 1 }] }
    past.irq = true ∧ (past.part.getD 0xFFFFFFFF) = 0 ∧ (s.charge 0 5 8).1 = true ∧ (s.getFunc 1).part = some 0 ∧
    (s1.charge 0 5 4).1 = true ∧ hostWord.cmdPart { command 3 with dropped := true } = some { pair0 with home := some 1 } ∧
    (let c := { copyCmd 0x100000 1 with dropped := true }
     c.dropped = true ∧ c.slot.getLsbD 256 = true ∧ ((commanded c).charge 0 4 256).1 = true) ∧
    (let u := { commanded (atLeast 1) with funcs := [{ func1 with queues := [{ queue0 with mapped := false }] }] }
     ((u.getFunc 1).queue 0).mapped = false ∧ (atLeast 1).dropped = false ∧ reads u pair0.agent 0x100000 8 = some 0 ∧
     u.cmdPart (atLeast 1) = some pair0) := by decide +kernel

theorem test_hyps_managementCommands_keys :
    let m := mgmtCmd 3 5 0 0 true
    let s := managed m pair0
    cleanBlock m (opMask 8 0xF) = true ∧ m.op = 3 ∧ m.opnd 8 0 4 ≠ 0 ∧ s.getPart? 0 = some pair0 ∧
    (let t := { m with src := .turn 2 8 }
     t.src = .turn 2 8 ∧ (managed t pair0).eccWrite (fwKey ((managed t pair0).turnDie 2) (8 + 4)) 4 = false) := by decide +kernel

theorem test_hyps_firmwareAndMailbox_phases :
    (∀ n, n ∈ [1, 2] → ((updated n).ioOf 0).update.map (fun u => (u.phase, u.port)) = some (n, 0) ∧ n ≠ 3) ∧
    (updated 1).kaolin.ready.getLsbD 37 = false := by decide +kernel
/-- What a GET_MEASUREMENTS asks for is an encoding of its own standard: some block of the nine, all, or none. -/
theorem test_hyps_firmwareAndMailbox_block (l : List Byte) :
    Config.spdmBlock l = 0 ∨ (∃ n, Config.spdmBlock l = n + 1 ∧ n ≤ 8) ∨ 9 < Config.spdmBlock l := by
  rcases h : Config.spdmBlock l with _ | n
  · exact .inl rfl
  · by_cases e : n ≤ 8
    · exact .inr (.inl ⟨n, rfl, e⟩)
    · exact .inr (.inr (by omega))

/-- A partition of dies 0 and 1 with room for its images, and two free dies of the same shape. -/
def movable : State :=
  { managed (mgmtCmd 6 0 0 0 false) savedPair with dies := [upDie 0, upDie 1, upDie 4, upDie 5] }
theorem test_hyps_packageEvents_moves :
    movable.getPart? 0 = some savedPair ∧ savedPair.resident = true ∧ savedPair.evicting = false ∧
    movable.mayMove savedPair [4, 5] = true ∧ savedPair.dies.all (fun d => (movable.saveArea savedPair d).isSome) = true ∧
    movable.mayMove savedPair [4, 4] = false ∧ movable.mayMove savedPair [4, 6] = false ∧ savedPair.moveTo = [] ∧
    ({ savedPair with moveTo := [4, 5] } : Partition).moveTo ≠ [] ∧ movable.kaolin.log.length < 4093 := by decide +kernel

end Sys2Proof.Tests
end

section
/-! The contents of memory as numbers and as byte maps, and the statement on stores, loads and scrubbed ranges. -/

namespace Sys2Proof.Machine

/-! ### A range read as a number (R3) -/

/-- The number read is below 2 to the count of bits read. -/
theorem memRead_lt (m : List Host.Cell) (k n : Nat) : memRead m k n < 2 ^ (8 * n) := by
  induction n generalizing k with
  | zero => simp [memRead]
  | succ n ih =>
    have hbyte : (memGet m k).toNat < 256 := (memGet m k).isLt
    have hrest := ih (k + 1)
    rw [memRead, show 8 * (n + 1) = 8 * n + 8 from rfl, Nat.pow_add]
    omega

/-- Bytes that are the base-256 digits of a number, lowest first, read as that number. -/
theorem memRead_of_digits {m : List Host.Cell} {k n v : Nat}
    (h : ∀ i, i < n → memGet m (k + i) = BitVec.ofNat 8 (v / 256 ^ i)) : memRead m k n = v % 256 ^ n := by
  induction n generalizing k v with
  | zero => simp [memRead, Nat.mod_one]
  | succ n ih =>
    have hlow : (memGet m k).toNat = v % 256 := by simpa using congrArg BitVec.toNat (h 0 n.succ_pos)
    have hrest : memRead m (k + 1) n = v / 256 % 256 ^ n := ih fun i hi => by
      rw [Nat.div_div_eq_div_mul, ← Nat.pow_succ', Nat.add_assoc, Nat.add_comm 1]
      exact h (i + 1) (Nat.succ_lt_succ hi)
    rw [memRead, hlow, hrest, Nat.pow_succ', Nat.mod_mul]

/-- A number written is read back, cut to the bytes written. -/
theorem memRead_memWrite {m : List Host.Cell} (k n v : Nat) (h : Memory.wf m) :
    memRead (memWrite m k n v) k n = v % 256 ^ n :=
  memRead_of_digits fun i hi => by
    rw [memGet_memWrite _ _ _ _ h, if_pos (by omega), Nat.add_sub_cancel_left]

/-! ### Writing what stands there -/

/-- The canonical form lists a byte in one way only, so that a byte written over itself changes nothing. -/
theorem memSet_memGet {m : List Host.Cell} (k : Nat) (h : Memory.wf m) : memSet m k (memGet m k) = m := by
  induction m with
  | nil => simp [memSet, memGet]
  | cons c m ih =>
    obtain ⟨a, b⟩ := c
    obtain ⟨-, hb, hm⟩ := Memory.wf_cons_iff.mp h
    rcases Nat.lt_trichotomy k a with hlt | rfl | hgt
    · simp [memSet, memGet, hlt]
    · simpa [memSet, memGet] using hb
    · simp [memSet, memGet, Nat.lt_asymm hgt, Nat.ne_of_gt hgt, ih hm]

theorem memWrite_memRead {m : List Host.Cell} (k n : Nat) (h : Memory.wf m) : memWrite m k n (memRead m k n) = m := by
  induction n generalizing k with
  | zero => rfl
  | succ n ih =>
    have hbyte : (memGet m k).toNat < 256 := (memGet m k).isLt
    have hlow : BitVec.ofNat 8 (memRead m k (n + 1)) = memGet m k :=
      BitVec.eq_of_toNat_eq (by simp only [memRead, BitVec.toNat_ofNat]; omega)
    have hrest : memRead m k (n + 1) / 256 = memRead m (k + 1) n := by
      simp only [memRead]
      omega
    rw [memWrite, hlow, hrest, memSet_memGet k h, ih]

/-! ### Cells dropped -/

/-- Where only the cells of some keys are kept, every other key reads as blank. -/
theorem memGet_filter {m : List Host.Cell} (p : Nat → Bool) (j : Nat) (h : Memory.wf m) :
    memGet (m.filter (fun c => p c.1)) j = if p j then memGet m j else Config.blank := by
  induction m with
  | nil => simp [memGet]
  | cons c m ih =>
    obtain ⟨a, b⟩ := c
    obtain ⟨hbelow, -, hm⟩ := Memory.wf_cons_iff.mp h
    rcases Nat.lt_trichotomy j a with hlt | rfl | hgt
    · have hnone : memGet (((a, b) :: m).filter (fun c => p c.1)) j = Config.blank :=
        memGet_below fun c hc => (List.mem_cons.mp (List.mem_filter.mp hc).1).elim
          (fun e => e ▸ hlt) (fun hc => Nat.lt_trans hlt (hbelow c hc))
      simp [hnone, memGet, hlt]
    · cases hp : p j with
      | true => simp [hp, memGet]
      | false => simp [hp, ih hm]
    · have hskip : memGet ((a, b) :: m) j = memGet m j := by
        simp [memGet, Nat.lt_asymm hgt, Nat.ne_of_gt hgt]
      cases hp : p a with
      | true => simpa [hp, memGet, Nat.lt_asymm hgt, Nat.ne_of_gt hgt] using ih hm
      | false => simpa [hp, hskip] using ih hm

/-- A scrub leaves 0 in its range and every other byte as it was. -/
theorem State.memGet_clear {s : State} (k n j : Nat) (h : Memory.wf s.mem) :
    memGet (s.clear k n).mem j = if k ≤ j ∧ j < k + n then 0 else memGet s.mem j := by
  have hkept := memGet_filter (fun a => decide (a < k) || decide (k + n ≤ a)) j h
  by_cases hj : k ≤ j ∧ j < k + n
  · rw [if_pos hj]
    exact hkept.trans (if_neg (by simp; omega))
  · rw [if_neg hj]
    exact hkept.trans (if_pos (by simp; omega))

/-! ### Stores and loads of the state -/

theorem State.memRead_store {s : State} {w : Nat} (k n : Nat) (v : BitVec w) (h : Memory.wf s.mem) :
    memRead (s.store k n v).mem k n = v.toNat % 256 ^ n :=
  memRead_memWrite k n v.toNat h

theorem State.store_memRead_mem {s : State} (k n : Nat) (h : Memory.wf s.mem) :
    (s.store k n (BitVec.ofNat (8 * n) (memRead s.mem k n))).mem = s.mem := by
  have hv : (BitVec.ofNat (8 * n) (memRead s.mem k n)).toNat = memRead s.mem k n :=
    Nat.mod_eq_of_lt (memRead_lt s.mem k n)
  show memWrite s.mem k n (BitVec.ofNat (8 * n) (memRead s.mem k n)).toNat = s.mem
  rw [hv, memWrite_memRead k n h]

/-- Settles O38: a store changes the bytes of its range alone, to the digits of its value, and the canonical form has one
list for each content of memory. -/
theorem storeAndLoad : Obligations.storeAndLoad := by
  intro s key n w v h
  refine ⟨State.memRead_store key n v h, fun b hb => ?_, State.store_wf key n v h, State.store_memRead_mem key n h,
    rfl, rfl, fun a k => ⟨fun b hlo hhi => ?_, fun ha => ?_, State.clear_wf key k h⟩⟩
  · rw [State.memGet_store key n v b h, if_neg (by omega)]
  · rw [State.memGet_clear key n b h, if_pos ⟨hlo, hhi⟩]
  · rw [State.memGet_clear key n a h, if_neg (by omega)]

end Sys2Proof.Machine
end

section
/-! The clocks of a die (R45-R49, R52): the leads that the skew bound allows, the power steps, and the statement on them. -/

namespace Sys2Proof.Machine

/-! ### A die read after an update -/

theorem upsert_find?_same {α : Type} {p : α → Bool} {x : α} (hx : p x = true) (l : List α) :
    (upsert p x l).find? p = some x := by
  induction l with
  | nil => simp [upsert, hx]
  | cons y ys ih => cases hy : p y <;> simp [upsert, hy, hx, ih]

/-- An update of the entries of one kind leaves what a search for another kind finds. -/
theorem upsert_find?_other {α : Type} {p q : α → Bool} {x : α} (hx : q x = false) (hpq : ∀ y, p y = true → q y = false)
    (l : List α) : (upsert p x l).find? q = l.find? q := by
  induction l with
  | nil => simp [upsert, hx]
  | cons y ys ih =>
    cases hy : p y with
    | true => simp [upsert, hy, hx, hpq y hy]
    | false => simp [upsert, hy, List.find?_cons, ih]

@[simp] theorem State.getDie_die (s : State) (d : Nat) : (s.getDie d).die = d := by
  unfold State.getDie
  cases h : s.dies.find? (fun x => x.die == d) with
  | none => rfl
  | some k => simpa using List.find?_some h

theorem State.getDie_setDie (s : State) (k : Die) (e : Nat) :
    (s.setDie k).getDie e = if e = k.die then k else s.getDie e := by
  unfold State.getDie State.setDie
  split
  · next h => simp [h, upsert_find?_same]
  · next h =>
    rw [upsert_find?_other]
    · simpa using Ne.symm h
    · intro y hy
      simp only [beq_iff_eq] at hy
      simpa [hy] using Ne.symm h

theorem State.getDie_onDie_same {s : State} {d : Nat} {f : Die → Die} (hdie : (f (s.getDie d)).die = d) :
    (s.onDie d f).getDie d = f (s.getDie d) := by
  simp [State.onDie, State.getDie_setDie, hdie]

/-- An update of a die that keeps its number and its cycle count keeps the count of every die. -/
theorem State.cyc_onDie {s : State} {d : Nat} {f : Die → Die} (hdie : (f (s.getDie d)).die = d)
    (hcyc : (f (s.getDie d)).cyc = (s.getDie d).cyc) (e : Nat) : ((s.onDie d f).getDie e).cyc = (s.getDie e).cyc := by
  rw [State.onDie, State.getDie_setDie, hdie]
  split
  · next h => rw [hcyc, h]
  · rfl

/-- An entry that concerns the clocks or a control core goes on the agenda even where the partition stands still. -/
theorem State.sched_ofControl {s : State} {ev : Event} (h : Event.ofControl s ev = true) (d c rank : Nat) :
    s.sched (.cycle d c rank) ev = { s with agenda := s.agenda ++ [⟨.cycle d c rank, ev⟩] } := by
  simp [State.sched, h]

/-! ### What the clocks leave alone -/

/-- No register, no memory and no cycle count differs. -/
def CountsKept (s t : State) : Prop :=
  t.me = s.me ∧ t.threads = s.threads ∧ t.mem = s.mem ∧ ∀ e, (t.getDie e).cyc = (s.getDie e).cyc

/-- An instruction that updates one die, and neither its number nor its count, completes with what holds of the updated die. -/
theorem completes_of_onDie {i : Instr} {s : State} {d : Nat} {f : Die → Die} {P : State → Prop}
    (hexec : exec i s = .next (s.onDie d f)) (hdie : (f (s.getDie d)).die = d)
    (hcyc : (f (s.getDie d)).cyc = (s.getDie d).cyc) (hP : ∀ t, t.getDie d = f (s.getDie d) → P t) :
    Completes i s (fun t => CountsKept s t ∧ P t) :=
  ⟨_, hexec, ⟨rfl, rfl, rfl, State.cyc_onDie hdie hcyc⟩, hP _ (State.getDie_onDie_same hdie)⟩

/-! ### Register files and masks -/

theorem rd_wr {n w : Nat} (f : RegFile n w) {i : Nat} (hi : i < n) (v : BitVec w) (q : Nat) :
    rd (wr f i v) q = if q = i then v else rd f q := by
  unfold rd wr
  by_cases h : q = i
  · rw [if_pos h, h, Vector.getElem?_setIfInBounds_self_of_lt hi, Option.getD_some]
  · rw [if_neg h, Vector.getElem?_setIfInBounds_ne (Ne.symm h)]

theorem regionBit_getLsbD {r q : Nat} (hq : q < 16) : (regionBit r).getLsbD q = decide (q = r) := by
  show (BitVec.twoPow 16 r).getLsbD q = _
  rw [BitVec.getLsbD_twoPow]
  by_cases h : q = r
  · rw [← h, decide_eq_true hq, Bool.true_and]
  · rw [decide_eq_false (Ne.symm h), decide_eq_false h, Bool.and_false]

theorem or_regionBit_getLsbD (m : BitVec 16) {r q : Nat} (hq : q < 16) :
    (m ||| regionBit r).getLsbD q = (m.getLsbD q || decide (q = r)) := by
  rw [BitVec.getLsbD_or, regionBit_getLsbD hq]

/-! ### The period (R46, R52) -/

theorem Die.period_of_slowest_stretches {d : Die}
    (h : ∃ q, q < 16 ∧ d.leadOf q = 0 ∧ d.stretch.getLsbD q = true) : d.period = 16 * Config.ns / d.freq * 5 / 4 := by
  obtain ⟨q, hq, hlead, hs⟩ := h
  exact if_pos (List.any_eq_true.mpr ⟨q, List.mem_range.mpr hq, by simp [hlead, hs]⟩)

theorem Die.period_of_slowest_calm {d : Die}
    (h : ∀ q, q < 16 → d.leadOf q = 0 → d.stretch.getLsbD q = false) : d.period = 16 * Config.ns / d.freq := by
  refine if_neg fun hany => ?_
  obtain ⟨q, hq, hboth⟩ := List.any_eq_true.mp hany
  simp only [Bool.and_eq_true, beq_iff_eq] at hboth
  simp [h q (List.mem_range.mp hq) hboth.1] at hboth

/-! ### A minimum taken along a list -/

theorem le_foldl_min_iff {α : Type} (f : α → Nat) (l : List α) (a x : Nat) :
    x ≤ l.foldl (fun m r => Nat.min m (f r)) a ↔ x ≤ a ∧ ∀ r ∈ l, x ≤ f r := by
  induction l generalizing a with
  | nil => simp
  | cons r l ih =>
    have hmin : x ≤ Nat.min a (f r) ↔ x ≤ a ∧ x ≤ f r := Nat.le_min
    simp [ih, hmin, and_assoc]

/-! ### Steps between regions -/

/-- The steps between two places of a ring of four. -/
def ringGap (a b : Nat) : Nat := min ((a + 4 - b) % 4) ((b + 4 - a) % 4)

/-- The steps between two regions in the 4 × 4 grid that wraps (R16). -/
def regionGap (q r : Nat) : Nat := ringGap (q / 4) (r / 4) + ringGap (q % 4) (r % 4)

theorem regionGap_eq_zero : ∀ q, q < 16 → ∀ r, r < 16 → (regionGap q r = 0 ↔ q = r) := by decide +kernel

theorem regionGap_le_four : ∀ q, q < 16 → ∀ r, r < 16 → regionGap q r ≤ 4 := by decide +kernel

/-- A step to a region that meets brings no other one more than one step nearer. -/
theorem regionGap_le_succ : ∀ q, q < 16 → ∀ r, r < 16 → ∀ p, p < 16 →
    regionsMeet q r = true → regionGap q p ≤ regionGap r p + 1 := by decide +kernel

/-- Some region that meets q is one step nearer to p. -/
theorem exists_nearer_region : ∀ q, q < 16 → ∀ p, p < 16 → regionGap q p ≠ 0 →
    ∃ r, r < 16 ∧ regionsMeet q r = true ∧ regionGap r p + 1 = regionGap q p := by decide +kernel

/-! ### The skew bound (R49) -/

theorem le_keepBound_iff (l : Vector Nat 16) {q : Nat} (hq : q < 16) (x : Nat) :
    x ≤ (keepBound l)[q]?.getD 0 ↔
      x ≤ l[q]?.getD 0 ∧ ∀ r, r < 16 → regionsMeet q r = true → x ≤ l[r]?.getD 0 + skewBound := by
  rw [keepBound, Vector.getElem?_ofFn, dif_pos hq, Option.getD_some, le_foldl_min_iff]
  simp

/-- n rounds bound a region by every one that is n steps away or nearer. -/
theorem le_keepBound_repeat_iff (l : Vector Nat 16) (n : Nat) {q : Nat} (hq : q < 16) (x : Nat) :
    x ≤ (Nat.repeat keepBound n l)[q]?.getD 0 ↔
      ∀ p, p < 16 → regionGap q p ≤ n → x ≤ l[p]?.getD 0 + skewBound * regionGap q p := by
  induction n generalizing q x with
  | zero =>
    constructor
    · intro h p hp hgap
      obtain rfl := (regionGap_eq_zero q hq p hp).mp (by omega)
      exact Nat.le_add_right_of_le h
    · intro h
      have hself := (regionGap_eq_zero q hq q hq).mpr rfl
      have hx := h q hq (Nat.le_of_eq hself)
      rwa [hself, Nat.mul_zero, Nat.add_zero] at hx
  | succ n ih =>
    rw [Nat.repeat, le_keepBound_iff _ hq, ih hq]
    have hvia : ∀ r, r < 16 → (x ≤ (Nat.repeat keepBound n l)[r]?.getD 0 + skewBound ↔
        ∀ p, p < 16 → regionGap r p ≤ n → x ≤ l[p]?.getD 0 + skewBound * (regionGap r p + 1)) := fun r hr => by
      simp only [← Nat.sub_le_iff_le_add, ih hr, Nat.mul_add, Nat.mul_one, ← Nat.add_assoc]
    constructor
    · rintro ⟨hnear, hnext⟩ p hp hgap
      by_cases hn : regionGap q p ≤ n
      · exact hnear p hp hn
      · obtain ⟨r, hr, hmeet, hstep⟩ := exists_nearer_region q hq p hp (by omega)
        exact hstep ▸ (hvia r hr).mp (hnext r hr hmeet) p hp (by omega)
    · refine fun h => ⟨fun p hp hgap => h p hp (by omega), fun r hr hmeet => (hvia r hr).mpr fun p hp hgap => ?_⟩
      have hstep := regionGap_le_succ q hq r hr p hp hmeet
      exact Nat.le_trans (h p hp (by omega)) (Nat.add_le_add_left (Nat.mul_le_mul_left _ hstep) _)

/-- Four rounds reach every region: a bounded lead is the least that the skew bound allows from any region. -/
theorem le_bounded_iff (l : Vector Nat 16) {q : Nat} (hq : q < 16) (x : Nat) :
    x ≤ (bounded l)[q]?.getD 0 ↔ ∀ p, p < 16 → x ≤ l[p]?.getD 0 + skewBound * regionGap q p := by
  refine (le_keepBound_repeat_iff l 4 hq x).trans ⟨fun h p hp => ?_, fun h p hp _ => h p hp⟩
  exact h p hp (regionGap_le_four q hq p hp)

theorem bounded_le_of_gap (l : Vector Nat 16) {q p : Nat} (hq : q < 16) (hp : p < 16) :
    (bounded l)[q]?.getD 0 ≤ l[p]?.getD 0 + skewBound * regionGap q p :=
  (le_bounded_iff l hq _).mp (Nat.le_refl _) p hp

theorem bounded_le (l : Vector Nat 16) {q : Nat} (hq : q < 16) : (bounded l)[q]?.getD 0 ≤ l[q]?.getD 0 := by
  have hx := bounded_le_of_gap l hq hq
  rwa [(regionGap_eq_zero q hq q hq).mpr rfl, Nat.mul_zero, Nat.add_zero] at hx

/-- Bounded leads of regions that meet differ by the skew bound at most. -/
theorem bounded_le_neighbour (l : Vector Nat 16) {q r : Nat} (hq : q < 16) (hr : r < 16) (hmeet : regionsMeet q r = true) :
    (bounded l)[q]?.getD 0 ≤ (bounded l)[r]?.getD 0 + skewBound := by
  rw [← Nat.sub_le_iff_le_add, le_bounded_iff l hr]
  intro p hp
  have hstep : regionGap q p ≤ regionGap r p + 1 := regionGap_le_succ q hq r hr p hp hmeet
  calc (bounded l)[q]?.getD 0 - skewBound
      ≤ l[p]?.getD 0 + skewBound * regionGap q p - skewBound := Nat.sub_le_sub_right (bounded_le_of_gap l hq hp) _
    _ ≤ l[p]?.getD 0 + skewBound * regionGap r p := by unfold skewBound; omega

/-! ### Leads kept in bytes -/

theorem Die.leadOf_lt (d : Die) (q : Nat) : d.leadOf q < 256 := (rd d.lead q).isLt

theorem rd_map_ofNat (l : Vector Nat 16) {q : Nat} (h : l[q]?.getD 0 < 256) :
    (rd (l.map (BitVec.ofNat 8)) q).toNat = l[q]?.getD 0 := by
  rw [rd, Vector.getElem?_map]
  cases hl : l[q]? with
  | none => rfl
  | some x => simpa [hl] using h

theorem exists_le_least (l : Vector Nat 16) : ∃ p, p < 16 ∧ l[p]?.getD 0 ≤ l.toList.foldl Nat.min (l[0]?.getD 0) := by
  refine Classical.byContradiction fun hnone => ?_
  have hall : ∀ p, p < 16 → l.toList.foldl Nat.min (l[0]?.getD 0) < l[p]?.getD 0 :=
    fun p hp => Nat.lt_of_not_le fun hle => hnone ⟨p, hp, hle⟩
  have habove : l.toList.foldl Nat.min (l[0]?.getD 0) + 1 ≤ l.toList.foldl Nat.min (l[0]?.getD 0) := by
    refine (le_foldl_min_iff id l.toList _ _).mpr ⟨hall 0 (by decide), fun x hx => ?_⟩
    obtain ⟨p, hp, rfl⟩ := Vector.mem_iff_getElem.mp (Vector.mem_toList_iff.mp hx)
    have hx := hall p hp
    rwa [Vector.getElem?_eq_getElem hp, Option.getD_some] at hx
  exact Nat.lt_irrefl _ habove

/-- After a cycle some region is the slowest, with a lead of 0. -/
theorem Die.exists_drift_eq_zero (d : Die) : ∃ p, p < 16 ∧ d.drift[p]?.getD 0 = 0 := by
  obtain ⟨p, hp, hleast⟩ := exists_le_least
    (Vector.ofFn fun (r : Fin 16) => d.leadOf r.val + (if d.stretch.getLsbD r.val then 0 else 1))
  refine ⟨p, hp, ?_⟩
  rw [Die.drift, Vector.getElem?_map]
  simpa [hp, Nat.sub_eq_zero_iff_le] using hleast

theorem Die.bounded_drift_lt (d : Die) {q : Nat} (hq : q < 16) : (bounded d.drift)[q]?.getD 0 < 256 := by
  obtain ⟨p, hp, hzero⟩ := d.exists_drift_eq_zero
  have hbound := bounded_le_of_gap d.drift hq hp
  have hgap := regionGap_le_four q hq p hp
  rw [hzero, skewBound] at hbound
  omega

theorem Die.skewed_leadOf (d : Die) {q : Nat} (hq : q < 16) : d.skewed.1.leadOf q = (bounded d.drift)[q]?.getD 0 :=
  rd_map_ofNat _ (d.bounded_drift_lt hq)

theorem Die.skewed_leadOf_le (d : Die) {q p : Nat} (hq : q < 16) (hp : p < 16) (hmeet : regionsMeet q p = true) :
    d.skewed.1.leadOf q ≤ d.skewed.1.leadOf p + skewBound := by
  rw [d.skewed_leadOf hq, d.skewed_leadOf hp]
  exact bounded_le_neighbour d.drift hq hp hmeet

/-- A region at most 24 quarters of a cycle ahead has at most 7 entries waiting at its neighbour. -/
theorem Die.boundary_length_le {d : Die} {q p : Nat} (h : d.leadOf q ≤ d.leadOf p + skewBound) :
    (d.boundary q p).length ≤ 7 := by
  unfold skewBound at h
  simp only [Die.boundary, Die.regionCycle, List.length_map, List.length_range]
  omega

/-! ### Edges held (R48) -/

theorem Die.le_held_iff (d : Die) (r x : Nat) :
    x ≤ d.held r ↔ x ≤ d.leadOf r ∧ ∀ q, q < 16 → regionsMeet r q = true → d.awaits r q = true → x ≤ d.leadOf q + 4 := by
  rw [Die.held, le_foldl_min_iff]
  simp

theorem Die.held_le (d : Die) (r : Nat) : d.held r ≤ d.leadOf r := ((d.le_held_iff r _).mp (Nat.le_refl _)).1

theorem Die.held_le_of_entry {d : Die} {r q n : Nat} (hq : q < 16) (hmeet : regionsMeet r q = true)
    (hentry : (q, r, n) ∈ d.entries) (hcyc : d.cyc ≤ n + 1) : d.held r ≤ d.leadOf q + 4 :=
  ((d.le_held_iff r _).mp (Nat.le_refl _)).2 q hq hmeet (List.any_eq_true.mpr ⟨_, hentry, by simpa using hcyc⟩)

/-- The leads with the one of a region that waits put back to what its entries allow. -/
def Die.heldLeads (d : Die) (r : Nat) : Vector Nat 16 := (wr d.lead r (BitVec.ofNat 8 (d.held r))).map (·.toNat)

/-- A die one of whose regions has held its edge. -/
def Die.holdEdge (r : Nat) (d : Die) : Die :=
  { d with stretch := d.stretch ||| regionBit r, lastWarn := d.cyc, lead := (bounded (d.heldLeads r)).map (BitVec.ofNat 8) }

theorem exec_edgeHold (d r : Nat) (s : State) : exec (.edgeHold d r) s = .next (s.onDie d (Die.holdEdge r)) := rfl

theorem Die.heldLeads_getD (d : Die) {r : Nat} (hr : r < 16) (q : Nat) :
    (d.heldLeads r)[q]?.getD 0 = if q = r then d.held r else d.leadOf q := by
  have hmap : (d.heldLeads r)[q]?.getD 0 = (rd (wr d.lead r (BitVec.ofNat 8 (d.held r))) q).toNat := by
    rw [Die.heldLeads, rd, Vector.getElem?_map]
    cases (wr d.lead r (BitVec.ofNat 8 (d.held r)))[q]? <;> rfl
  have hlt : d.held r < 2 ^ 8 := Nat.lt_of_le_of_lt (d.held_le r) (d.leadOf_lt r)
  rw [hmap, rd_wr _ hr]
  split
  · exact Nat.mod_eq_of_lt hlt
  · rfl

theorem Die.heldLeads_le (d : Die) {r : Nat} (hr : r < 16) (q : Nat) : (d.heldLeads r)[q]?.getD 0 ≤ d.leadOf q := by
  rw [d.heldLeads_getD hr]
  split
  · next h => exact h ▸ d.held_le r
  · exact Nat.le_refl _

theorem Die.bounded_heldLeads_le (d : Die) {r q : Nat} (hr : r < 16) (hq : q < 16) :
    (bounded (d.heldLeads r))[q]?.getD 0 ≤ d.leadOf q :=
  Nat.le_trans (bounded_le _ hq) (d.heldLeads_le hr q)

theorem Die.holdEdge_leadOf (d : Die) {r q : Nat} (hr : r < 16) (hq : q < 16) :
    (d.holdEdge r).leadOf q = (bounded (d.heldLeads r))[q]?.getD 0 :=
  rd_map_ofNat _ (Nat.lt_of_le_of_lt (d.bounded_heldLeads_le hr hq) (d.leadOf_lt q))

theorem Die.holdEdge_leadOf_le (d : Die) {r q : Nat} (hr : r < 16) (hq : q < 16) :
    (d.holdEdge r).leadOf q ≤ d.leadOf q := by
  rw [d.holdEdge_leadOf hr hq]
  exact d.bounded_heldLeads_le hr hq

/-- The region that holds its edge is then ahead of no more than its entries allow. -/
theorem Die.holdEdge_leadOf_le_held (d : Die) {r : Nat} (hr : r < 16) : (d.holdEdge r).leadOf r ≤ d.held r := by
  rw [d.holdEdge_leadOf hr hr]
  simpa [d.heldLeads_getD hr] using bounded_le (d.heldLeads r) hr

theorem Die.holdEdge_leadOf_le_neighbour (d : Die) {r q p : Nat} (hr : r < 16) (hq : q < 16) (hp : p < 16)
    (hmeet : regionsMeet q p = true) : (d.holdEdge r).leadOf q ≤ (d.holdEdge r).leadOf p + skewBound := by
  rw [d.holdEdge_leadOf hr hq, d.holdEdge_leadOf hr hp]
  exact bounded_le_neighbour _ hq hp hmeet

/-! ### The end of a stretch (R47) and power steps (R52) -/

theorem exec_stretchEnd_of_calm {s : State} {d : Nat} (h : (s.getDie d).calm = true) :
    exec (.stretchEnd d) s = .next (s.onDie d (fun k => { k with stretch := 0 })) := by
  show Host.Outcome.next (s.setDie (if (s.getDie d).calm then { s.getDie d with stretch := 0 } else s.getDie d)) = _
  rw [if_pos h]
  rfl

theorem exec_powerStep_of_boundary {s : State} {d : Nat} (f : Nat) (h : (s.getDie d).cyc % 8 = 7) :
    exec (.powerStep d f) s = .next (s.onDie d (fun k => { k with freq := max 10 (min 20 f) })) := by
  show execPowerStep d f s = _
  exact if_pos h

theorem exec_powerStep_of_not_boundary {s : State} {d : Nat} (f : Nat) (h : (s.getDie d).cyc % 8 ≠ 7) :
    exec (.powerStep d f) s = .next (s.schedIn d (7 - (s.getDie d).cyc % 8) rankLate (.powerStep d f)) := by
  show execPowerStep d f s = _
  exact if_neg h

/-- Settles O49: each clock event updates one die and no count of it, and four rounds of the skew bound reach every region of
the grid, so that the leads after a drift or a held edge keep it everywhere. -/
theorem clockEvents : Obligations.clockEvents := by
  intro s d r f hr k quiet
  have hdie : k.die = d := s.getDie_die d
  refine ⟨?warning, ?calm, Die.period_of_slowest_stretches, Die.period_of_slowest_calm, ?edge, ?skew, ?forced, ?step, ?early⟩
  case warning =>
    refine completes_of_onDie rfl hdie rfl fun t ht => ?_
    rw [ht]
    exact ⟨rfl, fun q hq => ⟨or_regionBit_getLsbD _ hq, or_regionBit_getLsbD _ hq⟩⟩
  case calm =>
    intro hwarn hlast
    have hcalm : k.calm = true := by simp [Die.calm, hwarn, hlast]
    exact completes_of_onDie (exec_stretchEnd_of_calm hcalm) hdie rfl fun t ht => by rw [ht]
  case edge =>
    refine completes_of_onDie (exec_edgeHold d r s) hdie rfl fun t ht => ?_
    rw [ht]
    exact ⟨rfl, fun q hq => k.holdEdge_leadOf_le hr hq,
      fun q n hq hmeet hentry hcyc => Nat.le_trans (k.holdEdge_leadOf_le_held hr) (Die.held_le_of_entry hq hmeet hentry hcyc),
      fun q p hq hp hmeet => k.holdEdge_leadOf_le_neighbour hr hq hp hmeet,
      fun q hq => or_regionBit_getLsbD _ hq⟩
  case skew =>
    intro q p hq hp hmeet
    have hbound := k.skewed_leadOf_le hq hp hmeet
    exact ⟨hbound, Nat.le_trans (Die.boundary_length_le hbound) (by decide)⟩
  case forced =>
    refine completes_of_onDie rfl hdie rfl fun t ht q hq => ?_
    rw [ht, or_regionBit_getLsbD _ hq, BitVec.getLsbD_allOnes, decide_eq_true hq, Bool.true_or]
  case step =>
    intro hcyc
    exact completes_of_onDie (exec_powerStep_of_boundary f hcyc) hdie rfl fun t ht => by rw [ht]
  case early =>
    intro hcyc
    refine ⟨_, exec_powerStep_of_not_boundary f hcyc, ?_⟩
    rw [State.schedIn, State.sched_ofControl rfl]
    exact ⟨⟨rfl, rfl, rfl, fun _ => rfl⟩, rfl, _, List.mem_append_right _ (List.mem_singleton.mpr rfl), rfl, rfl⟩

end Sys2Proof.Machine
end

section
/-! Rounding and the number formats (R104-R109, R117): the neighbours that each mode picks, the patterns that round to
themselves, and the statements on them. -/

namespace Sys2Proof.Machine

/-! ### Rounding to a multiple of the quantum (R117) -/

theorem quantise_self (mode : Nat) (neg : Bool) (m : Nat) (e : Int) (sticky : Bool) (sr : Nat) :
    quantise mode neg m e e sticky sr = (m, sticky) := by
  simp [quantise]

/-- Below the quantum, the magnitude keeps its count of whole quanta or takes the next, as `roundsUp` says. -/
theorem quantise_of_shift (mode : Nat) (neg : Bool) (m : Nat) (e : Int) {sh : Nat} (sticky : Bool) (sr : Nat) (h : 0 < sh) :
    quantise mode neg m e (e + sh) sticky sr =
      (m / 2 ^ sh + (roundsUp mode neg (m / 2 ^ sh) (m % 2 ^ sh) sh sticky sr).toNat,
        decide (m % 2 ^ sh ≠ 0) || sticky) := by
  have hshift : (e + sh - e).toNat = sh := by omega
  rw [quantise, if_neg (by omega), hshift]
  cases hup : roundsUp mode neg (m / 2 ^ sh) (m % 2 ^ sh) sh sticky sr with
  | true => simp only [hup, if_true, Bool.toNat_true]
  | false => simp only [hup, Bool.false_eq_true, if_false, Bool.toNat_false, Nat.add_zero]

/-- A multiple of the quantum stays where it is in every mode. -/
theorem roundsUp_exact (mode : Nat) (neg : Bool) (n sh : Nat) {sr : Nat} (h : sr < 2 ^ 32) :
    roundsUp mode neg n 0 sh false sr = false := by
  match mode with
  | 0 | 1 | 2 | 3 | 4 => simp [roundsUp]
  | k + 5 =>
    cases neg with
    | false => simp [roundsUp]
    | true =>
      have hlt : sr * 2 ^ sh < (2 ^ sh - 0) * 2 ^ 32 := by
        rw [Nat.sub_zero, Nat.mul_comm (2 ^ sh)]
        exact Nat.mul_lt_mul_of_pos_right h (Nat.two_pow_pos sh)
      simp only [roundsUp, if_true, hlt, decide_true, Bool.not_true]

section
variable (neg : Bool) (n rem sh sr : Nat)

theorem roundsUp_nearestEven :
    roundsUp 0 neg n rem sh false sr = true ↔ 2 ^ sh < 2 * rem ∨ 2 * rem = 2 ^ sh ∧ n % 2 = 1 := by
  have hpos : 0 < 2 ^ sh := Nat.two_pow_pos sh
  simp only [roundsUp, Bool.or_eq_true, Bool.and_eq_true, decide_eq_true_eq, Bool.or_false, Bool.false_or]
  omega

theorem roundsUp_towardZero : roundsUp 1 neg n rem sh false sr = false := rfl

theorem roundsUp_upward : roundsUp 2 neg n rem sh false sr = true ↔ neg = false ∧ rem ≠ 0 := by
  simp only [roundsUp, Bool.and_eq_true, Bool.not_eq_true', Bool.or_false, decide_eq_true_eq]

theorem roundsUp_downward : roundsUp 3 neg n rem sh false sr = true ↔ neg = true ∧ rem ≠ 0 := by
  simp only [roundsUp, Bool.and_eq_true, Bool.or_false, decide_eq_true_eq]

theorem roundsUp_nearestAway : roundsUp 4 neg n rem sh false sr = true ↔ 2 ^ sh ≤ 2 * rem := by
  have hpos : 0 < 2 ^ sh := Nat.two_pow_pos sh
  simp only [roundsUp, Bool.and_eq_true, Bool.or_false, decide_eq_true_eq]
  omega

end

/-! A choice between n and n + 1 quanta, for a magnitude of n quanta of u units and a remainder. -/

theorem toNat_of_iff {b : Bool} {p : Prop} (h : b = true ↔ p) : b.toNat = 1 ∧ p ∨ b.toNat = 0 ∧ ¬ p := by
  cases b with
  | true => exact .inl ⟨rfl, h.mp rfl⟩
  | false => exact .inr ⟨rfl, fun hp => Bool.false_ne_true (h.mpr hp)⟩

section
variable {b : Bool} {rem : Nat} {p : Prop}

/-- A choice that takes the next count only from an inexact magnitude stays within a quantum. -/
theorem quanta_neighbour {u : Nat} (n : Nat) (h : b = true → rem ≠ 0) (hrem : rem < u) :
    n * u + b.toNat * u ≤ n * u + rem + u - 1 ∧ n * u + rem ≤ n * u + b.toNat * u + u - 1 := by
  cases b with
  | false => rw [Bool.toNat_false]; omega
  | true =>
    have hne : rem ≠ 0 := h rfl
    rw [Bool.toNat_true]
    omega

/-- Rounding away in a direction covers the magnitudes of that direction. -/
theorem le_quanta_of_directed {u : Nat} (n : Nat) (h : b = true ↔ p ∧ rem ≠ 0) (hp : p) (hrem : rem < u) :
    n * u + rem ≤ n * u + b.toNat * u := by
  rcases toNat_of_iff h with ⟨hb, -⟩ | ⟨hb, hnot⟩
  · rw [hb]; omega
  · have hzero : rem = 0 := Decidable.not_not.mp fun hne => hnot ⟨hp, hne⟩
    omega

/-- It leaves those of the other direction at the count below. -/
theorem quanta_le_of_not_directed (u n : Nat) (h : b = true ↔ p ∧ rem ≠ 0) (hp : ¬ p) :
    n * u + b.toNat * u ≤ n * u + rem := by
  rcases toNat_of_iff h with ⟨-, hdir, -⟩ | ⟨hb, -⟩
  · exact absurd hdir hp
  · rw [hb]; omega

end

/-- Settles O22: the result is the count of whole quanta or the next one, and each mode's test of the remainder picks
between the two. -/
theorem roundingModes : Obligations.roundingModes := by
  intro m sh sr e neg hsh hsr
  have hm : m / 2 ^ sh * 2 ^ sh + m % 2 ^ sh = m := Nat.div_add_mod' m (2 ^ sh)
  have hrem : m % 2 ^ sh < 2 ^ sh := Nat.mod_lt m (Nat.two_pow_pos sh)
  simp only [quantise_of_shift _ _ _ _ _ _ hsh, Nat.add_mul, Bool.or_false]
  generalize m / 2 ^ sh = n at *
  generalize m % 2 ^ sh = rem at *
  subst hm
  have heven := toNat_of_iff (roundsUp_nearestEven neg n rem sh sr)
  have hup := roundsUp_upward neg n rem sh sr
  have hdown := roundsUp_downward neg n rem sh sr
  have haway := toNat_of_iff (roundsUp_nearestAway neg n rem sh sr)
  refine ⟨fun _ => trivial, fun mode => quanta_neighbour n ?inexact hrem, ?nearest, ?even, ?down,
    fun hneg => le_quanta_of_directed n hup hneg hrem, fun hneg => quanta_le_of_not_directed _ n hup (by simp [hneg]),
    fun hneg => le_quanta_of_directed n hdown hneg hrem, fun hneg => quanta_le_of_not_directed _ n hdown (by simp [hneg]),
    ?nearestUp⟩
  case inexact =>
    rintro h rfl
    exact absurd h (by rw [roundsUp_exact mode neg n sh hsr]; decide)
  case nearest =>
    rcases heven with ⟨hb, htest⟩ | ⟨hb, htest⟩ <;> rw [hb] <;> omega
  case even =>
    rcases heven with ⟨hb, htest⟩ | ⟨hb, htest⟩ <;> rw [hb] <;> omega
  case down =>
    rw [roundsUp_towardZero, Bool.toNat_false]
    omega
  case nearestUp =>
    rcases haway with ⟨hb, htest⟩ | ⟨hb, htest⟩ <;> rw [hb] <;> omega

/-! ### Patterns by sign, exponent and fraction (R104, R108) -/

/-- A pattern is its sign bit and the bits below it. -/
theorem signBit_add_mod {b n : Nat} (h : b < 2 ^ (n + 1)) : (if b.testBit n then 2 ^ n else 0) + b % 2 ^ n = b := by
  have hsplit : 2 ^ n * (b / 2 ^ n) + b % 2 ^ n = b := Nat.div_add_mod b (2 ^ n)
  have htop : b / 2 ^ n < 2 := Nat.div_lt_of_lt_mul (by rwa [← Nat.pow_succ])
  rw [Nat.testBit_eq_decide_div_mod_eq, Nat.mod_eq_of_lt htop]
  rcases Nat.lt_succ_iff_lt_or_eq.mp htop with h0 | h1
  · rw [Nat.lt_one_iff.mp h0, Nat.mul_zero] at hsplit
    rw [Nat.lt_one_iff.mp h0]
    exact hsplit
  · rw [h1, Nat.mul_one] at hsplit
    rw [h1]
    exact hsplit

/-- The bits below the sign are the exponent and the fraction. -/
theorem exponent_add_fraction (b eb mb : Nat) : b / 2 ^ mb % 2 ^ eb * 2 ^ mb + b % 2 ^ mb = b % 2 ^ (eb + mb) := by
  rw [Nat.add_comm eb, Nat.pow_add, Nat.mod_mul, Nat.mul_comm, Nat.add_comm]

theorem bitLen_of_bounds {m k : Nat} (hlo : 2 ^ k ≤ m) (hhi : m < 2 ^ (k + 1)) : bitLen m = k + 1 := by
  have hne : m ≠ 0 := Nat.ne_of_gt (Nat.lt_of_lt_of_le (Nat.two_pow_pos k) hlo)
  rw [bitLen, if_neg hne, (Nat.log2_eq_iff hne).mpr ⟨hlo, hhi⟩]

theorem bitLen_le {m k : Nat} (h : m < 2 ^ k) : bitLen m ≤ k := by
  rcases Decidable.em (m = 0) with rfl | hne
  · exact Nat.zero_le k
  · rw [bitLen, if_neg hne]
    exact (Nat.log2_lt hne).mpr h

/-! ### IEEE formats (R104, R106, R117) -/

section
variable {f : Fmt} (hf : f.isIeee = true)
include hf

theorem Fmt.width_of_isIeee : f.width = f.expBits + f.fracBits + 1 := by
  cases f <;> trivial

theorem Fmt.exponents_of_isIeee : 2 ^ f.expBits = 2 * f.bias + 2 ∧ 1 ≤ f.bias := by
  cases f <;> trivial

theorem roundTo_ieee (mode : Nat) (neg : Bool) (m : Nat) (e : Int) (sr : Nat) :
    roundTo f mode (.fin neg m e) sr =
      if m = 0 then ((if neg then f.signBit else 0), 0) else roundIeee f mode neg m e false sr := by
  cases f <;> trivial

/-- A magnitude whose quantum is its own unit, that of the biased exponent ex, rounds to itself. The subnormal magnitudes
have the exponent 1 and no leading bit. -/
theorem roundIeee_exact {ex m : Nat} (mode : Nat) (neg : Bool) (sr : Nat) (hex : 1 ≤ ex) (hle : ex ≤ 2 * f.bias)
    (hm : m < 2 ^ (f.fracBits + 1)) (hlead : 2 ^ f.fracBits ≤ m ∨ ex = 1) :
    roundIeee f mode neg m (ex - f.bias - f.fracBits) false sr =
      ((if neg then f.signBit else 0) + ((ex - 1) * 2 ^ f.fracBits + m), 0) := by
  obtain ⟨-, hbias⟩ := Fmt.exponents_of_isIeee hf
  have hq : (if (1 : Int) - f.bias ≤ bitLen m - 1 + (ex - f.bias - f.fracBits) then
      (bitLen m : Int) - 1 + (ex - f.bias - f.fracBits) else 1 - f.bias) = ex - f.bias := by
    rcases hlead with hlo | rfl
    · rw [bitLen_of_bounds hlo hm]
      split <;> omega
    · have hlen := bitLen_le hm
      split <;> omega
  have hexp : ((ex : Int) - f.bias - f.fracBits + f.fracBits + f.bias).toNat = ex := by omega
  simp only [roundIeee, hq, quantise_self, hexp]
  rw [if_neg (by simp only [Bool.or_eq_true, Bool.and_eq_true, decide_eq_true_eq]; omega)]
  rcases Decidable.em (ex = 1) with rfl | hne
  · simp [Flags.when]
  · have hunit : (ex : Int) - f.bias - f.fracBits ≠ 1 - f.bias - f.fracBits := by omega
    simp [Flags.when, hunit]

theorem roundTo_ieee_exact {ex m : Nat} (mode : Nat) (neg : Bool) (sr : Nat) (hex : 1 ≤ ex) (hle : ex ≤ 2 * f.bias)
    (hm : m < 2 ^ (f.fracBits + 1)) (hlead : 2 ^ f.fracBits ≤ m ∨ ex = 1) :
    roundTo f mode (.fin neg m (ex - f.bias - f.fracBits)) sr =
      ((if neg then f.signBit else 0) + ((ex - 1) * 2 ^ f.fracBits + m), 0) := by
  rw [roundTo_ieee hf]
  split
  case isTrue hzero =>
    obtain rfl : ex = 1 := hlead.resolve_left (by have := Nat.two_pow_pos f.fracBits; omega)
    simp [hzero]
  case isFalse => exact roundIeee_exact hf mode neg sr hex hle hm hlead

theorem roundTo_fDecode {b : Nat} (mode sr : Nat) (hb : b < 2 ^ f.width)
    (hfin : b / 2 ^ f.fracBits % 2 ^ f.expBits ≠ 2 ^ f.expBits - 1) : roundTo f mode (fDecode f b) sr = (b, 0) := by
  obtain ⟨hexps, hbias⟩ := Fmt.exponents_of_isIeee hf
  have hsign := signBit_add_mod (Fmt.width_of_isIeee hf ▸ hb)
  rw [← exponent_add_fraction] at hsign
  have hex : b / 2 ^ f.fracBits % 2 ^ f.expBits < 2 ^ f.expBits := Nat.mod_lt _ (Nat.two_pow_pos _)
  have hfr : b % 2 ^ f.fracBits < 2 ^ f.fracBits := Nat.mod_lt _ (Nat.two_pow_pos _)
  have hdouble : 2 ^ (f.fracBits + 1) = 2 * 2 ^ f.fracBits := Nat.pow_succ'
  simp only [fDecode, if_neg hfin]
  generalize b / 2 ^ f.fracBits % 2 ^ f.expBits = ex at *
  generalize b % 2 ^ f.fracBits = fr at *
  split
  case isTrue hsubnormal =>
    have h := roundTo_ieee_exact hf mode (b.testBit (f.expBits + f.fracBits)) sr (Nat.le_refl 1) (by omega)
      (by omega : fr < _) (.inr rfl)
    have hb : (if b.testBit (f.expBits + f.fracBits) then f.signBit else 0) + fr = b := by
      simpa [hsubnormal, Fmt.signBit] using hsign
    simpa [hb] using h
  case isFalse hnormal =>
    rw [roundTo_ieee_exact hf mode _ sr (by omega) (by omega) (by omega) (.inl (by omega))]
    have hlead : (ex - 1) * 2 ^ f.fracBits + 2 ^ f.fracBits = ex * 2 ^ f.fracBits := by
      rw [← Nat.succ_mul, Nat.succ_eq_add_one, Nat.sub_add_cancel (by omega)]
    rw [← Nat.add_assoc _ _ fr, hlead, Fmt.signBit, hsign]

end

/-! ### Magnitudes in order (R108, R109) -/

theorem scaled_false (m : Nat) (e e0 : Int) : scaled false m e e0 = m * 2 ^ (e - e0).toNat := rfl

/-- A magnitude counted in a smaller unit is a power of two times its count in the larger one. -/
theorem scaled_of_le {m : Nat} {e e0 b : Int} (hb : b ≤ e0) (h : e0 ≤ e) :
    scaled false m e b = scaled false m e e0 * 2 ^ (e0 - b).toNat := by
  have hexp : (e - b).toNat = (e - e0).toNat + (e0 - b).toNat := by omega
  rw [scaled_false, scaled_false, hexp, Int.pow_add, Int.mul_assoc]

/-- The comparison of two magnitudes is that of their counts of any unit that measures both. -/
theorem cmpMag_eq {m n : Nat} {e g b : Int} (he : b ≤ e) (hg : b ≤ g) :
    cmpMag m e false n g = if scaled false m e b < scaled false n g b then -1
      else if scaled false m e b = scaled false n g b then 0 else 1 := by
  have hunit : b ≤ if e ≤ g then e else g := by split <;> assumption
  have hpos : (0 : Int) < 2 ^ ((if e ≤ g then e else g) - b).toNat := Int.pow_pos (by decide)
  rw [scaled_of_le (m := m) hunit (by split <;> omega), scaled_of_le (m := n) hunit (by split <;> omega)]
  simp only [Int.mul_lt_mul_right hpos, Int.mul_eq_mul_right_iff (Int.ne_of_gt hpos)]
  rfl

theorem cmpMag_neg_iff {m n : Nat} {e g b : Int} (he : b ≤ e) (hg : b ≤ g) :
    cmpMag m e false n g < 0 ↔ scaled false m e b < scaled false n g b := by
  rw [cmpMag_eq he hg]
  split
  · next hlt => exact iff_of_true (by decide) hlt
  · next hlt => exact iff_of_false (by split <;> decide) hlt

theorem cmpMag_pos_iff {m n : Nat} {e g b : Int} (he : b ≤ e) (hg : b ≤ g) :
    0 < cmpMag m e false n g ↔ scaled false n g b < scaled false m e b := by
  rw [cmpMag_eq he hg]
  split
  · next hlt => exact iff_of_false (by decide) (Int.lt_asymm hlt)
  · next hlt =>
    split
    · next heq => exact iff_of_false (by decide) (heq ▸ Int.lt_irrefl _)
    · next hne => exact iff_of_true (by decide) (by omega)

theorem cmpMag_self (m : Nat) (e : Int) : cmpMag m e false m e = 0 := by
  rw [cmpMag_eq (Int.le_refl e) (Int.le_refl e), if_neg (Int.lt_irrefl _), if_pos rfl]

theorem cmpMag_pos_comm {m n : Nat} {e g : Int} : 0 < cmpMag m e false n g ↔ cmpMag n g false m e < 0 := by
  have he := Int.min_le_left e g
  have hg := Int.min_le_right e g
  rw [cmpMag_pos_iff he hg, cmpMag_neg_iff hg he]

theorem cmpMag_neg_trans {m n p : Nat} {e g h : Int} (hmn : cmpMag m e false n g < 0) (hnp : cmpMag n g false p h < 0) :
    cmpMag m e false p h < 0 := by
  have he : min e (min g h) ≤ e := Int.min_le_left _ _
  have hg : min e (min g h) ≤ g := Int.le_trans (Int.min_le_right _ _) (Int.min_le_left _ _)
  have hh : min e (min g h) ≤ h := Int.le_trans (Int.min_le_right _ _) (Int.min_le_right _ _)
  rw [cmpMag_neg_iff he hg] at hmn
  rw [cmpMag_neg_iff hg hh] at hnp
  exact (cmpMag_neg_iff he hh).mpr (Int.lt_trans hmn hnp)

/-! ### T formats (R108, R109) -/

theorem tMag_ne_zero (c n : Nat) : (tMag c n).1 ≠ 0 := by
  simp only [tMag]
  split
  · exact Nat.one_ne_zero
  · exact Nat.ne_of_gt (Nat.add_pos_left (Nat.two_pow_pos _) _)

/-- The magnitudes of two codes of an n-bit T format compared. -/
def cmpCodes (n a b : Nat) : Int := cmpMag (tMag a n).1 (tMag a n).2 false (tMag b n).1 (tMag b n).2

/-- R108: the magnitudes of the codes 1 to 2^n - 1 of a T format run from 2^-2(n - 1) to 2^2(n - 1), each below the next. -/
structure TOrdered (n : Nat) : Prop where
  next : ∀ c, c < 2 ^ n - 1 → 1 ≤ c → cmpCodes n c (c + 1) < 0
  least : tMag 1 n = (1, -(2 * ((n : Int) - 1)))
  greatest : tMag (2 ^ n - 1) n = (1, 2 * ((n : Int) - 1))

theorem tOrdered_t8 : TOrdered 7 := ⟨by decide +kernel, rfl, rfl⟩
theorem tOrdered_t6 : TOrdered 5 := ⟨by decide +kernel, rfl, rfl⟩

section
variable {n : Nat} (hord : TOrdered n)
include hord

theorem cmpCodes_neg {a b : Nat} (ha : 1 ≤ a) (hab : a < b) (hb : b < 2 ^ n) : cmpCodes n a b < 0 := by
  induction b with
  | zero => exact absurd hab (Nat.not_lt_zero a)
  | succ b ih =>
    rcases Nat.lt_or_eq_of_le (Nat.le_of_lt_succ hab) with hlt | rfl
    · exact cmpMag_neg_trans (ih hlt (by omega)) (hord.next b (by omega) (by omega))
    · exact hord.next a (by omega) ha

theorem cmpCodes_not_pos {a b : Nat} (ha : 1 ≤ a) (hab : a ≤ b) (hb : b < 2 ^ n) : ¬ 0 < cmpCodes n a b := by
  rcases Nat.lt_or_eq_of_le hab with hlt | rfl
  · exact Int.lt_asymm (cmpCodes_neg hord ha hlt hb)
  · exact Int.not_lt.mpr (Int.le_of_eq (cmpMag_self _ _))

theorem tFloor_tMag {c p : Nat} (hc : 1 ≤ c) (hcp : c ≤ p) (hp : p < 2 ^ n) :
    tFloor n (tMag c n).1 (tMag c n).2 false p = c := by
  induction p with
  | zero => omega
  | succ p ih =>
    rcases Nat.lt_or_eq_of_le hcp with hlt | rfl
    · have habove : ¬ 0 ≤ cmpMag (tMag c n).1 (tMag c n).2 false (tMag (p + 1) n).1 (tMag (p + 1) n).2 :=
        Int.not_le.mpr (cmpCodes_neg hord hc hlt hp)
      rw [tFloor, if_neg habove, ih (by omega) (by omega)]
    · rw [tFloor, if_pos (Int.le_of_eq (cmpMag_self _ _).symm)]

/-- The magnitude of a code encodes to that code. -/
theorem roundT_tMag {c : Nat} (mode : Nat) (neg : Bool) (sr : Nat) (hc : 1 ≤ c) (hcn : c < 2 ^ n) :
    roundT n mode neg false (tMag c n).1 (tMag c n).2 false sr = ((if neg then 2 ^ n else 0) + c, 0) := by
  have hnotAbove : ¬ 0 < cmpCodes n c (2 ^ n - 1) := cmpCodes_not_pos hord hc (by omega) (by omega)
  have hnotBelow : ¬ cmpCodes n c 1 < 0 := mt cmpMag_pos_comm.mpr (cmpCodes_not_pos hord (Nat.le_refl 1) hc hcn)
  rw [cmpCodes, hord.greatest] at hnotAbove
  rw [cmpCodes, hord.least] at hnotBelow
  have hfloor : tFloor n (tMag c n).1 (tMag c n).2 false (2 ^ n - 1) = c := tFloor_tMag hord hc (by omega) (by omega)
  simp only [roundT, Bool.false_or, decide_eq_true_eq, if_neg hnotAbove, if_neg hnotBelow, hfloor, cmpMag_self, if_true]

end

theorem roundTo_t {f : Fmt} (hf : f = .t8 ∨ f = .t6) (mode : Nat) (neg : Bool) (m : Nat) (e : Int) (sr : Nat) :
    roundTo f mode (.fin neg m e) sr = if m = 0 then (0, 0) else roundT f.tBits mode neg false m e false sr := by
  rcases hf with rfl | rfl <;> rfl

/-- Every pattern of a T format but NaR, the sign bit alone, is one of its values. -/
theorem roundTo_tDecode {f : Fmt} (hf : f = .t8 ∨ f = .t6) (hord : TOrdered f.tBits) {b : Nat} (mode sr : Nat)
    (hb : b < 2 ^ (f.tBits + 1)) (hnar : b ≠ 2 ^ f.tBits) : roundTo f mode (tDecode f.tBits b) sr = (b, 0) := by
  have hsign := signBit_add_mod hb
  rcases Nat.eq_zero_or_pos (b % 2 ^ f.tBits) with hzero | hpos
  · cases hneg : b.testBit f.tBits with
    | true => exact absurd (by simpa [hneg, hzero] using hsign.symm) hnar
    | false =>
      obtain rfl : b = 0 := by simpa [hneg, hzero] using hsign.symm
      simp [tDecode, roundTo_t hf]
  · rw [tDecode, if_neg (Nat.ne_of_gt hpos), roundTo_t hf, if_neg (tMag_ne_zero _ _),
      roundT_tMag hord mode _ sr hpos (Nat.mod_lt _ (Nat.two_pow_pos _)), hsign]

/-- Settles O21: the unit of a finite IEEE pattern is the quantum of its binade, and the codes of a T format are in the order
of their magnitudes, so that each pattern is found again in every mode. -/
theorem patternsRoundToThemselves : Obligations.patternsRoundToThemselves :=
  ⟨fun _ _ mode sr hf hb hfin => roundTo_fDecode hf mode sr hb hfin,
    fun _ mode sr hb hnar => roundTo_tDecode (f := .t8) (.inl rfl) tOrdered_t8 mode sr hb hnar,
    fun _ mode sr hb hnar => roundTo_tDecode (f := .t6) (.inr rfl) tOrdered_t6 mode sr hb hnar, rfl, rfl⟩

end Sys2Proof.Machine
end

section
/-! Atomics on the issuing core (R156, R216-R218): what the accesses and orders of an atomic leave alone, its result as
arithmetic, and the statement on them. -/

namespace Sys2Proof.Machine

/-! ### Register writes as the statements word them (R79, R83) -/

theorem State.writesX_wx (s : State) {r : Nat} (hr : r < 32) (v : W32) : WritesX s (s.wx r v) r v := by
  by_cases h0 : r = 0
  · subst h0
    exact ⟨fun k _ => (if_neg fun h => h.2 h.1).symm, rfl⟩
  · rw [State.wx, if_neg h0]
    refine ⟨fun k _ => ?_, by rw [if_neg h0]⟩
    show rd (wr s.me.x r v) k = _
    rw [rd_wr _ hr]
    by_cases hk : k = r
    · rw [if_pos hk, if_pos ⟨hk, hk ▸ h0⟩]
    · rw [if_neg hk, if_neg fun h => hk h.1]

theorem State.writesA_wa (s : State) {r : Nat} (hr : r < 16) (v : W64) : WritesA s (s.wa r v) r v :=
  ⟨fun k _ => rd_wr s.me.a hr v k, rfl⟩

/-! ### Register files left alone -/

/-- The files x, a, v and k are as they were. -/
def FilesKept (s t : State) : Prop := t.me.x = s.me.x ∧ t.me.a = s.me.a ∧ t.me.v = s.me.v ∧ t.me.k = s.me.k

theorem FilesKept.trans {s t u : State} (hst : FilesKept s t) (htu : FilesKept t u) : FilesKept s u := by
  obtain ⟨hx, ha, hv, hk⟩ := hst
  obtain ⟨hx', ha', hv', hk'⟩ := htu
  exact ⟨hx'.trans hx, ha'.trans ha, hv'.trans hv, hk'.trans hk⟩

theorem FilesKept.of_me {s t : State} (h : t.me = s.me) : FilesKept s t := by
  rw [FilesKept, h]
  exact ⟨rfl, rfl, rfl, rfl⟩

theorem FilesKept.sameButOne {s t : State} (h : FilesKept s t) (f r : Nat) : SameButOne s t f r := by
  obtain ⟨hx, ha, hv, hk⟩ := h
  rw [SameButOne, hx, ha, hv, hk]
  exact ⟨fun _ _ _ => rfl, fun _ _ _ => rfl, fun _ _ _ => rfl, fun _ _ _ => rfl⟩

theorem SameButOne.trans {s t u : State} {f r : Nat} (hst : SameButOne s t f r) (htu : SameButOne t u f r) :
    SameButOne s u f r := by
  obtain ⟨hx, ha, hv, hk⟩ := hst
  obtain ⟨hx', ha', hv', hk'⟩ := htu
  exact ⟨fun k hlt hne => (hx' k hlt hne).trans (hx k hlt hne), fun k hlt hne => (ha' k hlt hne).trans (ha k hlt hne),
    fun k hlt hne => (hv' k hlt hne).trans (hv k hlt hne), fun k hlt hne => (hk' k hlt hne).trans (hk k hlt hne)⟩

theorem WritesX.sameButOne {s t : State} {r : Nat} {v : W32} (h : WritesX s t r v) : SameButOne s t 0 r := by
  obtain ⟨hregs, ht⟩ := h
  refine ⟨fun k hlt hne => ?_, ?_⟩
  · rw [hregs k hlt, if_neg fun hk => hne ⟨rfl, hk.1⟩]
  · rw [ht]
    by_cases h0 : r = 0
    · rw [if_pos h0]
      exact ⟨fun _ _ _ => rfl, fun _ _ _ => rfl, fun _ _ _ => rfl⟩
    · rw [if_neg h0]
      exact ⟨fun _ _ _ => rfl, fun _ _ _ => rfl, fun _ _ _ => rfl⟩

theorem WritesA.sameButOne {s t : State} {r : Nat} {v : W64} (h : WritesA s t r v) : SameButOne s t 1 r := by
  obtain ⟨hregs, ht⟩ := h
  refine ⟨?_, fun k hlt hne => ?_, ?_⟩
  · rw [ht]
    exact fun _ _ _ => rfl
  · rw [hregs k hlt, if_neg fun hk => hne ⟨rfl, hk⟩]
  · rw [ht]
    exact ⟨fun _ _ _ => rfl, fun _ _ _ => rfl⟩

/-! ### What releases and acquires leave alone (R145) -/

/-- What no entry put on the agenda changes, a list of them does not change. -/
theorem foldl_schedIn_keeps {α β : Type} (f : State → β) (hf : ∀ s d n r e, f (State.schedIn s d n r e) = f s)
    (die rank : State → α → Nat) (n : Nat) (ev : α → Event) (l : List α) (s : State) :
    f (l.foldl (fun a q => a.schedIn (die a q) n (rank a q) (ev q)) s) = f s := by
  induction l generalizing s with
  | nil => rfl
  | cons q l ih => exact (ih _).trans (hf s _ _ _ _)

@[simp] theorem State.expedite_me (s : State) (ids : List Nat) : (s.expedite ids).me = s.me :=
  foldl_schedIn_keeps State.me State.schedIn_me State.reqDie State.reqRank 1 Req.arrival _ _

@[simp] theorem State.expedite_mem (s : State) (ids : List Nat) : (s.expedite ids).mem = s.mem :=
  foldl_schedIn_keeps State.mem State.schedIn_mem State.reqDie State.reqRank 1 Req.arrival _ _

@[simp] theorem State.see_me (s : State) (d : Nat) (ids : List Nat) : (s.see d ids).me = s.me := by
  simp only [State.see]
  split
  · rfl
  · split
    · exact State.expedite_me _ _
    · rfl

@[simp] theorem State.see_mem (s : State) (d : Nat) (ids : List Nat) : (s.see d ids).mem = s.mem := by
  simp only [State.see]
  split
  · rfl
  · split
    · exact State.expedite_mem _ _
    · rfl

@[simp] theorem State.acquire_mem (s : State) (ids : List Nat) : (s.acquire ids).mem = s.mem := by
  simp only [State.acquire]
  split <;> split <;> simp

theorem State.acquire_files (s : State) (ids : List Nat) : FilesKept s (s.acquire ids) := by
  simp only [State.acquire]
  split <;> split <;> simp [FilesKept]

@[simp] theorem State.ordered_mem (s : State) : s.ordered.mem = s.mem := by
  simp only [State.ordered]
  split <;> rfl

theorem State.ordered_files (s : State) : FilesKept s s.ordered := by
  simp only [State.ordered]
  split <;> simp [FilesKept]

/-! ### Accesses to the core's own buffers, noted (R142-R147) -/

@[simp] theorem State.getCore_die (s : State) (d c : Nat) : (s.getCore d c).die = d := by
  unfold State.getCore
  cases h : s.cores.find? (fun x => x.die == d && x.core == c) with
  | none => rfl
  | some k => simpa using (Bool.and_eq_true_iff.mp (List.find?_some (p := fun x : Core => x.die == d && x.core == c) h)).1

@[simp] theorem State.getCore_core (s : State) (d c : Nat) : (s.getCore d c).core = c := by
  unfold State.getCore
  cases h : s.cores.find? (fun x => x.die == d && x.core == c) with
  | none => rfl
  | some k => simpa using (Bool.and_eq_true_iff.mp (List.find?_some (p := fun x : Core => x.die == d && x.core == c) h)).2

theorem State.getCore_setCore (s : State) (k : Core) (d c : Nat) :
    (s.setCore k).getCore d c = if d = k.die ∧ c = k.core then k else s.getCore d c := by
  unfold State.getCore State.setCore
  split
  · next h => simp [h, upsert_find?_same]
  · next h =>
    have hother : ∀ y : Core, (y.die == k.die && y.core == k.core) = true → (y.die == d && y.core == c) = false := by
      rintro y hy
      obtain ⟨hd, hc⟩ := Bool.and_eq_true_iff.mp hy
      rw [beq_iff_eq] at hd hc
      rw [Bool.and_eq_false_iff, beq_eq_false_iff_ne, beq_eq_false_iff_ne, hd, hc, ← Decidable.not_and_iff_not_or_not]
      exact fun hk => h ⟨hk.1.symm, hk.2.symm⟩
    rw [upsert_find?_other (q := fun x : Core => x.die == d && x.core == c) (hother k (by simp)) hother]

theorem Noted.refl (s : State) : Noted s s := ⟨rfl, fun _ _ => rfl, rfl, rfl, fun _ => rfl⟩

theorem Noted.trans {s t u : State} (hst : Noted s t) (htu : Noted t u) : Noted s u := by
  obtain ⟨hrest, hcores, hreqs, hparts, hdies⟩ := hst
  obtain ⟨hrest', hcores', hreqs', hparts', hdies'⟩ := htu
  refine ⟨?_, fun d c => (hcores' d c).trans (hcores d c), hreqs'.trans hreqs, hparts'.trans hparts,
    fun d => (hdies' d).trans (hdies d)⟩
  refine hrest'.trans ?_
  rw [hrest]

theorem Noted.mem_eq {s u : State} (h : Noted s u) : u.mem = s.mem := by
  rw [h.1]

/-- What the thread has seen, what its reads brought, what releases hand on and which writes a collective asks about are all
noted. -/
theorem noted_of_notes (s : State) (msgs : List Msg) (touched : Option (List Touch)) (seen : List Nat) (got : List MsgItem) :
    Noted s { s with msgs := msgs, touched := touched, me := { s.me with seen := seen, got := got } } :=
  ⟨rfl, fun _ _ => rfl, rfl, rfl, fun _ => rfl⟩

theorem noted_setCore_locals (s : State) (d c : Nat) (l : List Nat) :
    Noted s (s.setCore { s.getCore d c with locals := l }) := by
  refine ⟨rfl, fun e f => ?_, rfl, rfl, fun _ => rfl⟩
  rw [State.getCore_setCore]
  split
  · next h =>
    obtain ⟨rfl, rfl⟩ : e = d ∧ f = c := by simpa using h
    rfl
  · rfl

theorem State.noted_noteLocal (s : State) : Noted s s.noteLocal := by
  have hseen (seen : List Nat) : Noted s { s with me := { s.me with seen := seen } } :=
    noted_of_notes s s.msgs s.touched seen s.me.got
  simp only [State.noteLocal]
  split <;> split
  · exact Noted.refl s
  · exact hseen _
  · exact noted_setCore_locals s s.me.die s.me.core _
  · exact (hseen _).trans (noted_setCore_locals { s with me := { s.me with seen := _ } } s.me.die s.me.core _)

theorem State.noted_noteRead (s : State) (key n : Nat) : Noted s (s.noteRead key n) := by
  simp only [State.noteRead]
  refine Noted.trans ?_ (State.noted_noteLocal _)
  split
  · exact Noted.refl s
  · exact noted_of_notes s s.msgs s.touched s.me.seen _

theorem State.noted_touch (s : State) (id die core key n : Nat) : Noted s (s.touch id die core key n) := by
  unfold State.touch
  split
  · exact Noted.refl s
  · exact noted_of_notes s s.msgs _ s.me.seen s.me.got

theorem State.noted_attach (s : State) (rmw : Bool) (key n : Nat) (items : List MsgItem) :
    Noted s (s.attach rmw key n items) := by
  simp only [State.attach]
  split
  · exact Noted.refl s
  · exact noted_of_notes s _ s.touched s.me.seen s.me.got

/-- The write of an atomic brings no earlier write forward (R218). -/
theorem State.noted_noteWrite_atomic (s : State) (key n : Nat) (items : List MsgItem) :
    Noted s (s.noteWrite true key n items) :=
  (s.noted_touch 0 s.me.die s.me.core key n).trans ((State.noted_attach _ true key n _).trans (State.noted_noteLocal _))

/-- A store of a number of n bytes: its digits stand there, and the granules that it covers are sound (R487). -/
theorem State.storesAt_store (s : State) (key n v : Nat) (hwf : Memory.wf s.mem) :
    StoresAt s (s.store key n (BitVec.ofNat (8 * n) v)) key n v := by
  refine ⟨fun b => ?_, rfl⟩
  rw [State.memGet_store key n _ b hwf]
  by_cases hb : key ≤ b ∧ b < key + n
  · have hsplit : 2 ^ (8 * n) = 256 ^ (b - key) * 256 ^ (n - (b - key)) := by
      rw [← Nat.pow_add, show b - key + (n - (b - key)) = n by omega, Nat.pow_mul]
    have hbyte : 256 ^ 1 ∣ 256 ^ (n - (b - key)) := Nat.pow_dvd_pow 256 (by omega)
    rw [if_pos hb, if_pos hb]
    apply BitVec.eq_of_toNat_eq
    rw [BitVec.toNat_ofNat, BitVec.toNat_ofNat, BitVec.toNat_ofNat, hsplit, Nat.mod_mul_right_div_self]
    exact Nat.mod_mod_of_dvd _ hbyte
  · rw [if_neg hb, if_neg hb]

/-! ### The operations on integers (R156) -/

section
variable {w : Nat} (a b : BitVec w)

theorem toInt_least_signed : (if BitVec.slt b a then b else a).toInt = min a.toInt b.toInt := by
  simp only [BitVec.slt_iff_toInt_lt]
  split <;> omega

theorem toInt_greatest_signed : (if BitVec.slt a b then b else a).toInt = max a.toInt b.toInt := by
  simp only [BitVec.slt_iff_toInt_lt]
  split <;> omega

theorem toNat_least_unsigned : (if BitVec.ult b a then b else a).toNat = min a.toNat b.toNat := by
  simp only [BitVec.ult_iff_toNat_lt]
  split <;> omega

theorem toNat_greatest_unsigned : (if BitVec.ult a b then b else a).toNat = max a.toNat b.toNat := by
  simp only [BitVec.ult_iff_toNat_lt]
  split <;> omega

end

/-- An operation on integers raises no flag. -/
theorem atomicOp_flags_of_integer {k : Nat} (hk : k < 10) (w : Nat) (fb : BitVec 8) (old x cmp : Nat) (r : RndCtx) :
    (atomicOp w k false fb old x cmp r).2 = 0 := by
  match k with
  | 0 | 1 | 2 | 3 | 4 | 5 | 6 | 7 | 8 | 9 => rfl

section
variable {w : Nat} (a b : BitVec w) (fb : BitVec 8) (cmp : Nat) (r : RndCtx)

/-- The operations on integers, over words. -/
theorem atomicOp_integer :
    let op := fun (k : Nat) => (atomicOp w k false fb a.toNat b.toNat cmp r).1
    op 0 = some (a + b).toNat ∧ op 1 = some (a &&& b).toNat ∧ op 2 = some (a ||| b).toNat ∧ op 3 = some (a ^^^ b).toNat ∧
    op 4 = some (if BitVec.slt b a then b else a).toNat ∧ op 5 = some (if BitVec.slt a b then b else a).toNat ∧
    op 6 = some (if BitVec.ult b a then b else a).toNat ∧ op 7 = some (if BitVec.ult a b then b else a).toNat ∧
    op 8 = some b.toNat ∧ op 9 = if a.toNat = cmp then some b.toNat else none := by
  simp [atomicOp]

end

/-! ### Delivery and orders of an atomic (R145, R218) -/

/-- The old value goes to an x-register at size w, and to an a-register at size d unless its number is 16 (R217). -/
def State.amoPut (s : State) (d : BitVec 5) (dbl : Bool) (old : Nat) : State :=
  if dbl then (if d.toNat < 16 then s.wa d.toNat (BitVec.ofNat 64 old) else s) else s.wx d.toNat (BitVec.ofNat 32 old)

/-- The acquire and the release that an atomic asks for. -/
def State.amoOrder (s : State) (e : ExtraOp) (wrote : Bool) (got : List MsgItem) : State :=
  let t := if e.ord.getLsbD 0 then s.acquire ((got.filter s.names).flatMap (·.ids)) else s
  if e.ord.getLsbD 1 && wrote then t.ordered else t

theorem State.amoDone_eq (s : State) (d : BitVec 5) (o : BitVec 4) (dbl : Bool) (e : ExtraOp) (old : Nat) (f : Flags)
    (wrote : Bool) (got : List MsgItem) :
    s.amoDone d o dbl e old f wrote got = (((s.orFlags f).atomicCount o e.det).amoPut d dbl old).amoOrder e wrote got := rfl

@[simp] theorem State.atomicCount_me (s : State) (o : BitVec 4) (det : Bool) : (s.atomicCount o det).me = s.me := by
  unfold State.atomicCount
  split <;> simp

@[simp] theorem State.atomicCount_mem (s : State) (o : BitVec 4) (det : Bool) : (s.atomicCount o det).mem = s.mem := by
  unfold State.atomicCount
  split <;> simp

/-- Only native fadd takes a counter value (R119). -/
theorem State.atomicCount_of_not_rounding {o : BitVec 4} {det : Bool} (h : o ≠ 10 ∨ det = true) (s : State) :
    s.atomicCount o det = s := by
  refine if_neg fun hround => ?_
  simp only [Bool.and_eq_true, decide_eq_true_eq, Bool.not_eq_true'] at hround
  simp [hround] at h

theorem State.amoPut_of_lt (s : State) {d : BitVec 5} (hd : d.toNat < 16) (old : Nat) :
    s.amoPut d true old = s.wa d.toNat (BitVec.ofNat 64 old) := if_pos hd

theorem State.amoPut_of_le (s : State) {d : BitVec 5} (hd : 16 ≤ d.toNat) (old : Nat) : s.amoPut d true old = s :=
  if_neg (Nat.not_lt.mpr hd)

@[simp] theorem State.amoPut_mem (s : State) (d : BitVec 5) (dbl : Bool) (old : Nat) : (s.amoPut d dbl old).mem = s.mem := by
  unfold State.amoPut
  split
  · split <;> simp
  · simp

theorem State.amoPut_sameButOne (s : State) (d : BitVec 5) (dbl : Bool) (old : Nat) :
    SameButOne s (s.amoPut d dbl old) (if dbl = true then 1 else 0) d.toNat := by
  cases dbl with
  | false => exact (s.writesX_wx d.isLt _).sameButOne
  | true =>
    rcases Nat.lt_or_ge d.toNat 16 with hd | hd
    · rw [s.amoPut_of_lt hd old]
      exact (s.writesA_wa hd _).sameButOne
    · rw [s.amoPut_of_le hd old]
      exact FilesKept.sameButOne (.of_me rfl) _ _

@[simp] theorem State.amoOrder_mem (s : State) (e : ExtraOp) (wrote : Bool) (got : List MsgItem) :
    (s.amoOrder e wrote got).mem = s.mem := by
  simp only [State.amoOrder]
  split <;> split <;> simp

theorem State.amoOrder_files (s : State) (e : ExtraOp) (wrote : Bool) (got : List MsgItem) :
    FilesKept s (s.amoOrder e wrote got) := by
  have hacquire : FilesKept s (if e.ord.getLsbD 0 then s.acquire ((got.filter s.names).flatMap (·.ids)) else s) := by
    split
    · exact s.acquire_files _
    · exact FilesKept.of_me rfl
  simp only [State.amoOrder]
  split
  · exact hacquire.trans (State.ordered_files _)
  · exact hacquire

theorem State.amoOrder_of_unordered {e : ExtraOp} (h : e.ord = 0) (s : State) (wrote : Bool) (got : List MsgItem) :
    s.amoOrder e wrote got = s := by
  simp [State.amoOrder, h]

/-- Without orders and without rounding an atomic raises its flags and delivers the old value, and that is all. -/
theorem State.amoDone_of_plain {o : BitVec 4} {e : ExtraOp} (hord : e.ord = 0) (hround : o ≠ 10 ∨ e.det = true) (s : State)
    (d : BitVec 5) (dbl : Bool) (old : Nat) (f : Flags) (wrote : Bool) (got : List MsgItem) :
    s.amoDone d o dbl e old f wrote got = (s.orFlags f).amoPut d dbl old := by
  rw [State.amoDone_eq, State.atomicCount_of_not_rounding hround, State.amoOrder_of_unordered hord]

theorem State.amoDone_mem (s : State) (d : BitVec 5) (o : BitVec 4) (dbl : Bool) (e : ExtraOp) (old : Nat) (f : Flags)
    (wrote : Bool) (got : List MsgItem) : (s.amoDone d o dbl e old f wrote got).mem = s.mem := by
  simp [State.amoDone_eq]

theorem State.amoDone_sameButOne (s : State) (d : BitVec 5) (o : BitVec 4) (dbl : Bool) (e : ExtraOp) (old : Nat) (f : Flags)
    (wrote : Bool) (got : List MsgItem) :
    SameButOne s (s.amoDone d o dbl e old f wrote got) (if dbl = true then 1 else 0) d.toNat := by
  have hflags : FilesKept s ((s.orFlags f).atomicCount o e.det) :=
    FilesKept.trans (t := s.orFlags f) ⟨rfl, rfl, rfl, rfl⟩ (FilesKept.of_me (by simp))
  rw [State.amoDone_eq]
  exact ((hflags.sameButOne _ _).trans (State.amoPut_sameButOne _ d dbl old)).trans
    ((State.amoOrder_files _ e wrote got).sameButOne _ _)

/-! ### An atomic at its bank (R205, R207, R218) -/

/-- A die number below the count of a partition names one of its dies (R24). -/
theorem State.physDie?_of_lt_dieCount {s : State} {p l : Nat} (h : l < s.dieCount p) : ∃ d, s.physDie? p l = some d := by
  unfold State.dieCount at h
  unfold State.physDie?
  cases hp : s.getPart? p with
  | none => simp [hp] at h
  | some q =>
    rw [hp] at h
    exact ⟨q.dies[l], List.getElem?_eq_getElem h⟩

/-- A buffer that passes the checks is the one that its address names (R134). -/
theorem State.bufCheck_names {s : State} {g : Agent} {a : W64} {size align : Nat} {b : BufRef}
    (h : s.bufCheck g a size align = .ok b) (hform : addrForm a ≠ 3) :
    s.physDie? g.part (addrDie a) = some b.die ∧ b.core = addrCore a := by
  simp only [State.bufCheck, hform, decide_false, Bool.not_false, Bool.true_and, if_false] at h
  repeat' split at h
  any_goals cases h
  next hcount _ =>
    obtain ⟨e, he⟩ := State.physDie?_of_lt_dieCount (Nat.lt_of_not_le (by simpa using hcount))
    exact ⟨by simp [he], rfl⟩

/-- A peer address whose place is a byte of the issuing core names that core (R205). -/
theorem State.peerPlace_here {s : State} {a : W64} {size align key : Nat} {need : Need}
    (h : s.peerPlace a size align need = .ok (.here key)) (hform : addrForm a = 2) :
    s.physDie? (s.partOf s.pre) (addrDie a) = some s.pre.die ∧ addrCore a = s.pre.core := by
  simp only [State.peerPlace, hform, Nat.lt_irrefl, if_false, (by decide : ¬ 2 = 3), decide_false, Bool.false_and] at h
  cases hb : s.bufCheck (s.agentOf s.pre) a size align with
  | error c => simp [hb] at h
  | ok b =>
    obtain ⟨hdie, hcore⟩ := State.bufCheck_names hb (by omega)
    by_cases hhere : b.die = s.pre.die ∧ b.core = s.pre.core
    · exact ⟨hdie.trans (congrArg some hhere.1), hcore.symm.trans hhere.2⟩
    · have haway : (decide (b.die = s.pre.die) && decide (b.core = s.pre.core)) = false := by simpa using hhere
      simp only [hb, haway, Bool.false_eq_true, if_false] at h
      split at h <;> cases h

/-- An access that goes to a byte of the issuing core is no off-core access (R208). -/
theorem State.offCoreAddr_of_here {s : State} {sp : Nat} {a : W64} {size align key : Nat} {need : Need}
    (h : s.syncPlace sp a size align need = .ok (.here key)) : s.offCoreAddr sp a = false := by
  by_cases hpeer : sp = 3 ∧ addrForm a = 2
  · obtain ⟨rfl, hform⟩ := hpeer
    obtain ⟨hdie, hcore⟩ := State.peerPlace_here (by simpa [State.syncPlace] using h) hform
    simp [State.offCoreAddr, hdie, hcore]
  · rw [State.offCoreAddr, Bool.and_eq_false_iff]
    exact .inl (by simpa using hpeer)

theorem exec_amo_of_here {s : State} {d r : BitVec 5} {a o : BitVec 4} {z : BitVec 1} {p : BitVec 2}
    {xx : Option (BitVec 26)} {key size : Nat} (hsize : size = if z == 1 then 8 else 4) (hoff : s.pre.offReq = none)
    (hplace : s.syncPlace (p.toNat + 1) (s.ra a.toNat) size size .atomic = .ok (.here key))
    (hecc : s.eccRead key size = false) (hwb : ¬ (p = 2 ∧ addrBuf (s.ra a.toNat) = 0)) :
    exec (.amo d a r o z p xx) s =
      .next (s.amoHere key size o (extraOp xx) (s.atomicArgs (z == 1) r.toNat (extraOp xx)) d) := by
  have hcore := State.offCoreAddr_of_here hplace
  have hwb' : (decide (p.toNat + 1 = 3) && decide (addrBuf (s.ra a.toNat) = 0)) = false := by
    rw [Bool.and_eq_false_iff, decide_eq_false_iff_not, decide_eq_false_iff_not, ← Decidable.not_and_iff_not_or_not]
    exact fun h => hwb ⟨by bv_omega, h.2⟩
  show execAmo d a r o z p xx s = _
  simp only [execAmo, ← hsize, hoff, State.offFirst, hcore, Bool.false_and, hplace, hwb', hecc, if_false, Bool.false_eq_true]

/-- The outcome of an atomic on what stands at its address (R156). -/
def State.amoResult (s : State) (key size : Nat) (o : BitVec 4) (e : ExtraOp) (g : AtomicArgs) : Option Nat × Flags :=
  atomicOp (8 * size) o.toNat e.det g.fb (memRead s.mem key size) g.x.toNat g.cmp.toNat s.rndCtx

/-- The bytes at a key hold the result of an atomic, if it has one; nothing else has changed. -/
def StoresResult (s t : State) (key n : Nat) : Option Nat → Prop
  | some v => StoresAt s t key n v
  | none => t = s

/-- An atomic at its bank notes its read and, if it writes, its write, stores the result, and goes on as `amoDone` says. -/
theorem State.amoHere_stores {s : State} (hwf : Memory.wf s.mem) (key size : Nat) (o : BitVec 4) (e : ExtraOp)
    (g : AtomicArgs) (d : BitVec 5) :
    ∃ w u, Noted s w ∧ StoresResult w u key size (s.amoResult key size o e g).1 ∧
      s.amoHere key size o e g d = u.amoDone d o (decide (size = 8)) e (memRead s.mem key size)
        (s.amoResult key size o e g).2 (s.amoResult key size o e g).1.isSome (s.brought key size) := by
  have hread := s.noted_noteRead key size
  cases hres : (s.amoResult key size o e g).1 with
  | none =>
    refine ⟨_, _, hread, rfl, ?_⟩
    simp only [State.amoResult] at hres
    simp only [State.amoHere, hres, State.amoResult]
  | some v =>
    have hnoted := hread.trans (State.noted_noteWrite_atomic _ key size
      (if e.ord.getLsbD 1 then [s.handing g.mask] else []))
    refine ⟨_, _, hnoted, State.storesAt_store _ key size v (hnoted.mem_eq ▸ hwf), ?_⟩
    simp only [State.amoResult] at hres
    simp only [State.amoHere, hres, State.amoResult]

/-- The operands in the words of R217. -/
theorem State.atomicArgs_eq (s : State) (z : BitVec 1) (r : Nat) (e : ExtraOp) :
    s.atomicArgs (z == 1) r e =
      { x := if z = 1 ∧ e.det = false then s.ra r else BitVec.ofNat 64 (s.rx r).toNat
        cmp := if z = 1 then s.ra e.xs2 else BitVec.ofNat 64 (s.rx e.xs2).toNat
        fb := BitVec.ofNat 8 (rd s.pre.dscale e.ds).toNat
        mask := (s.rx e.mx).extractLsb' 0 16 } := by
  simp [State.atomicArgs]

/-- Settles O18: an atomic on the issuing core notes its accesses, stores its result if it has one, and then only delivers
the old value and makes its orders, which reach no other register and no byte. -/
theorem localAtomics : Obligations.localAtomics := by
  refine ⟨?bank, ?words⟩
  case bank =>
    intro s d r a o z p xx key hwf hoff e size ad old x cmp n hplace hecc hwb
    have hsize : size = if z == 1 then 8 else 4 := by simp [size]
    have hdbl : decide (size = 8) = (z == 1) := by
      rw [hsize]
      cases z == 1 <;> rfl
    obtain ⟨w, u, hnoted, hstored, hdone⟩ := State.amoHere_stores hwf key size o e (s.atomicArgs (z == 1) r.toNat e) d
    have hn : s.amoResult key size o e (s.atomicArgs (z == 1) r.toNat e) = n := by
      rw [State.amoResult, State.atomicArgs_eq]
    rw [hn] at hstored hdone
    exact ⟨_, exec_amo_of_here hsize hoff hplace hecc hwb, w, u, hnoted, hstored, hdbl ▸ hdone⟩
  case words =>
    intro s d o w old x cmp fb r e f wrote z got
    refine ⟨?_, s.amoDone_sameButOne d o z e old f wrote got, s.amoDone_mem d o z e old f wrote got, ?_⟩
    · intro _ hold hx sg op
      obtain ⟨a, rfl⟩ : ∃ a : BitVec w, a.toNat = old := ⟨BitVec.ofNat w old, Nat.mod_eq_of_lt hold⟩
      obtain ⟨b, rfl⟩ : ∃ b : BitVec w, b.toNat = x := ⟨BitVec.ofNat w x, Nat.mod_eq_of_lt hx⟩
      have hsg (v : BitVec w) : sg v.toNat = v.toInt := by simp [sg]
      obtain ⟨hadd, hand, hor, hxor, hmin, hmax, hminu, hmaxu, hswap, hcas⟩ := atomicOp_integer a b fb cmp r
      have hflags (k : Nat) (hk : k < 10) := atomicOp_flags_of_integer hk w fb a.toNat b.toNat cmp r
      refine ⟨hflags, ?_, ?_, ?_, ?_, ?_, ?_, ?_, ?_, hswap, hcas⟩
      · exact hadd.trans (congrArg some (BitVec.toNat_add a b))
      · exact hand.trans (congrArg some (BitVec.toNat_and a b))
      · exact hor.trans (congrArg some (BitVec.toNat_or a b))
      · exact hxor.trans (congrArg some (BitVec.toNat_xor a b))
      · rw [show op 4 = _ from hmin, Option.map_some, hsg, hsg, hsg, toInt_least_signed]
      · rw [show op 5 = _ from hmax, Option.map_some, hsg, hsg, hsg, toInt_greatest_signed]
      · exact hminu.trans (congrArg some (toNat_least_unsigned a b))
      · exact hmaxu.trans (congrArg some (toNat_greatest_unsigned a b))
    · intro hord hround u
      simp only [State.amoDone_of_plain hord hround]
      exact ⟨u.writesX_wx d.isLt _, fun hd => u.amoPut_of_lt hd old ▸ u.writesA_wa hd _, fun hd => u.amoPut_of_le hd old⟩

end Sys2Proof.Machine
end

section
/-! The send engine (R258-R273): what an update of a port and a signal that sets out leave alone, the marks that a probe
leaves on the members of a cycle, and the statement on them. -/

namespace Sys2Proof.Machine

/-! ### Ports of a core (R258, R263) -/

theorem State.portOf_of_cores {s t : State} (h : t.cores = s.cores) (d c p : Nat) : t.portOf d c p = s.portOf d c p := by
  rw [State.portOf, State.portOf, State.getCore, State.getCore, h]

theorem State.portOf_onSendPort (s : State) (d c : Nat) {p : Nat} (hp : p < 8) (f : Port → Port) :
    (s.onSendPort d c p f).portOf d c p = f (s.portOf d c p) := by
  simp [State.portOf, State.onSendPort, State.onCore, State.getCore_setCore, hp]

theorem State.feeder_of_inn {s t : State} {d c p : Nat} (h : (t.portOf d c p).inn = (s.portOf d c p).inn) :
    t.feeder d c p = s.feeder d c p := by
  rw [State.feeder, State.feeder, h]

theorem State.hasMail_eq (s : State) (d c : Nat) {p : Nat} (hp : p < 8) :
    s.hasMail d c p = (s.portOf d c p).inbox.head?.any (fun v => decide (v.2 < s.cyc d)) := by
  have hport : (s.getCore d c).ports[p]? = some (s.portOf d c p) := by
    rw [State.portOf, Vector.getElem?_eq_getElem hp, Option.getD_some]
  rw [State.hasMail, hport]
  cases h : (s.portOf d c p).inbox.head? <;> simp [h]

/-! ### Signals that set out (R48, R262, R263) -/

/-- A signal between two clock regions adds to the entries of a boundary buffer of its die, and changes nothing else. -/
theorem State.crossTo_cases (s : State) (r : PortRef) :
    s.crossTo r = s ∨ ∃ l, s.crossTo r = s.setDie { s.getDie r.die with entries := l } := by
  unfold State.crossTo State.cross
  split
  · dsimp only
    split
    · exact .inr ⟨_, rfl⟩
    · exact .inl rfl
  · exact .inl rfl

theorem State.getDie_crossTo (s : State) (r : PortRef) (d : Nat) :
    ∃ l, (s.crossTo r).getDie d = { s.getDie d with entries := l } := by
  rcases s.crossTo_cases r with h | ⟨l, h⟩
  · exact ⟨_, by rw [h]⟩
  · rw [h, State.getDie_setDie, State.getDie_die]
    split
    · next hd => exact ⟨l, by rw [hd]⟩
    · exact ⟨_, rfl⟩

@[simp] theorem State.crossTo_stopped (s : State) (r : PortRef) (d : Nat) :
    ((s.crossTo r).getDie d).stopped = (s.getDie d).stopped := by
  obtain ⟨l, hl⟩ := s.getDie_crossTo r d
  rw [hl]

@[simp] theorem State.crossTo_cyc (s : State) (r : PortRef) (d : Nat) : (s.crossTo r).cyc d = s.cyc d := by
  obtain ⟨l, hl⟩ := s.getDie_crossTo r d
  rw [State.cyc, State.cyc, hl]
  rfl

/-- Finding the cycle of an arrival uses up a free time at most. -/
theorem State.arrivalCycle_free (s : State) (d : Nat) (r : PortRef) (earlier : Event → Bool) :
    ∃ n, (s.arrivalCycle d r earlier).2 = { s with free := n } := by
  unfold State.arrivalCycle
  split
  · exact ⟨s.free, rfl⟩
  · exact ⟨_, rfl⟩

theorem State.arrivalCycle_of_here {d : Nat} {r : PortRef} (h : r.die = d) (s : State) (earlier : Event → Bool) :
    (s.arrivalCycle d r earlier).1 = s.cyc d + 3 + 2 * r.hops := by
  rw [State.arrivalCycle, if_pos h]

/-- An entry of a die whose partition runs goes on the agenda. -/
theorem State.mem_agenda_sched {s : State} {d : Nat} (h : (s.getDie d).stopped = false) (c rank : Nat) (ev : Event) :
    ⟨.cycle d c rank, ev⟩ ∈ (s.sched (.cycle d c rank) ev).agenda := by
  simp [State.sched, h]

/-- What a signal that sets out leaves alone: the thread, memory and the cores. -/
def SetsOut (s t : State) : Prop := t.me = s.me ∧ t.mem = s.mem ∧ t.cores = s.cores

theorem State.setsOut_crossTo (s : State) (r : PortRef) : SetsOut s (s.crossTo r) := by
  rcases s.crossTo_cases r with h | ⟨l, h⟩
  · rw [h]
    exact ⟨rfl, rfl, rfl⟩
  · rw [h]
    exact ⟨rfl, rfl, rfl⟩

theorem State.setsOut_sched (s : State) (r : PortRef) (d : Nat) (earlier : Event → Bool) (due : Due) (ev : Event) :
    SetsOut s (State.sched ((s.crossTo r).arrivalCycle d r earlier).2 due ev) := by
  obtain ⟨hme, hmem, hcores⟩ := s.setsOut_crossTo r
  obtain ⟨n, hn⟩ := (s.crossTo r).arrivalCycle_free d r earlier
  rw [hn]
  exact ⟨(State.sched_me _ _ _).trans hme, (State.sched_mem _ _ _).trans hmem, (State.sched_cores _ _ _).trans hcores⟩

theorem State.mem_agenda_setsOut {s : State} {r : PortRef} (h : (s.getDie r.die).stopped = false) (d : Nat)
    (earlier : Event → Bool) (c rank : Nat) (ev : Event) :
    ⟨.cycle r.die c rank, ev⟩ ∈
      (State.sched ((s.crossTo r).arrivalCycle d r earlier).2 (.cycle r.die c rank) ev).agenda := by
  obtain ⟨n, hn⟩ := (s.crossTo r).arrivalCycle_free d r earlier
  have hrun : ((s.crossTo r).getDie r.die).stopped = false := (s.crossTo_stopped r r.die).trans h
  rw [hn]
  exact State.mem_agenda_sched (s := { s.crossTo r with free := n }) hrun c rank ev

theorem State.setsOut_launchEnvelope (s : State) (d : Nat) (r : PortRef) (v : W64) : SetsOut s (s.launchEnvelope d r v) :=
  s.setsOut_sched r d _ _ _

theorem State.setsOut_launchCredit (s : State) (d : Nat) (r : PortRef) : SetsOut s (s.launchCredit d r) :=
  s.setsOut_sched r d _ _ _

/-- An envelope on its way arrives 3 + 2h cycles later where the far inbox is on the same die (R262). -/
theorem State.launchEnvelope_agenda {s : State} {r : PortRef} (h : (s.getDie r.die).stopped = false) (d : Nat) (v : W64) :
    ∃ x, x ∈ (s.launchEnvelope d r v).agenda ∧ x.ev = .envelopeArrival r.die r.core r.port v ∧
      (r.die = d → x.due = .cycle r.die (s.cyc r.die + 3 + 2 * r.hops) rankEngine) := by
  refine ⟨_, State.mem_agenda_setsOut h d _ _ _ _, rfl, fun hd => ?_⟩
  rw [State.arrivalCycle_of_here hd, State.crossTo_cyc, hd]

theorem State.awaits_launchCredit {s : State} {e c p : Nat} (h : (s.getDie e).stopped = false) (d hops : Nat) :
    Awaits (s.launchCredit d ⟨e, c, p, hops⟩) (.creditArrival e c p) :=
  ⟨_, State.mem_agenda_setsOut (r := ⟨e, c, p, hops⟩) h d _ _ _ _, rfl⟩

/-! ### The syllables (R267-R270) -/

theorem State.notPlugin_of {s : State} (h : s.pre.priv ≠ .plugin) (c : Nat) (f : State → State) :
    s.notPlugin c f = .next (f s) := by
  rw [State.notPlugin, if_neg h]

theorem State.holdSyl_of_free {s : State} (h : s.pre.stamped = false) (c : Nat) : s.holdSyl c = s.block := by
  simp [State.holdSyl, h]

/-- The state after a SEND has spent its credit, before the envelope sets out. -/
def State.spent (s : State) (p : BitVec 3) : State :=
  s.onSendPort s.pre.die s.pre.core p.toNat (fun q => { q with credits := q.credits - 1, torn := false })

/-- A credit goes back to the port that feeds an inbox, if there is one. The hop count of a channel stands at its source
end (R263). -/
def State.returnCredit (s : State) (d c p : Nat) : State :=
  match s.feeder d c p with
  | some r =>
    s.launchCredit d { r with
      hops := if p < 4 then 0 else match (s.portOf r.die r.core r.port).out with
        | some o => o.hops
        | none => r.hops }
  | none => s

theorem State.setsOut_returnCredit (s : State) (d c p : Nat) : SetsOut s (s.returnCredit d c p) := by
  unfold State.returnCredit
  split
  · exact s.setsOut_launchCredit d _
  · exact ⟨rfl, rfl, rfl⟩

theorem State.awaits_returnCredit {s : State} {d c p : Nat} {r : PortRef} (hfeeder : s.feeder d c p = some r)
    (hrun : (s.getDie r.die).stopped = false) : Awaits (s.returnCredit d c p) (.creditArrival r.die r.core r.port) := by
  simp only [State.returnCredit, hfeeder]
  exact State.awaits_launchCredit hrun d _

/-- The state after a RECV has taken its envelope, before the credit goes back. -/
def State.took (s : State) (e p : BitVec 3) (v : W64) (rest : List (W64 × Nat)) : State :=
  (s.onSendPort s.pre.die s.pre.core p.toNat (fun q => { q with inbox := rest, torn := false })).we e.toNat v

theorem State.portOf_took (s : State) (e p : BitVec 3) (v : W64) (rest : List (W64 × Nat)) :
    (s.took e p v rest).portOf s.pre.die s.pre.core p.toNat =
      { s.portOf s.pre.die s.pre.core p.toNat with inbox := rest, torn := false } :=
  (State.portOf_of_cores (State.we_cores _ _ _) _ _ _).trans (s.portOf_onSendPort _ _ p.isLt _)

section
variable {s : State} {e p : BitVec 3} (hpriv : s.pre.priv ≠ .plugin)
include hpriv

section
variable (hmine : (s.portOf s.pre.die s.pre.core p.toNat).bound = some s.pre.tid)
include hmine

section
variable (hhere : s.portAbsent s.pre.die s.pre.core p.toNat s.pre.lid true = false)
  (htorn : (s.portOf s.pre.die s.pre.core p.toNat).torn = false)
include hhere htorn

theorem exec_send_of_credit {r : PortRef} (hcredit : 1 ≤ (s.portOf s.pre.die s.pre.core p.toNat).credits)
    (hfar : s.farEnd s.pre.die s.pre.core p.toNat = some r) :
    exec (.send e p) s = .next ((s.spent p).launchEnvelope s.pre.die r (s.re e.toNat)) := by
  have hcan : s.canSend s.pre.die s.pre.core p.toNat = true := decide_eq_true hcredit
  show execSend e p s = _
  simp [execSend, State.notPlugin_of hpriv, hmine, hhere, htorn, hcan, hfar, State.spent]

theorem exec_send_of_no_credit (hdry : (s.portOf s.pre.die s.pre.core p.toNat).credits = 0) (hfree : s.pre.stamped = false) :
    exec (.send e p) s = .next s.block := by
  have hcan : s.canSend s.pre.die s.pre.core p.toNat = false := by simp [State.canSend, hdry]
  show execSend e p s = _
  simp [execSend, State.notPlugin_of hpriv, hmine, hhere, htorn, hcan, State.holdSyl_of_free hfree]

end

theorem exec_recv_of_mail {v : W64 × Nat} {rest : List (W64 × Nat)}
    (hinbox : (s.portOf s.pre.die s.pre.core p.toNat).inbox = v :: rest) (hearlier : v.2 < s.cyc s.pre.die) :
    exec (.recv e p) s = .next ((s.took e p v.1 rest).returnCredit s.pre.die s.pre.core p.toNat) := by
  have hmail : s.hasMail s.pre.die s.pre.core p.toNat = true := by simp [State.hasMail_eq s _ _ p.isLt, hinbox, hearlier]
  show execRecv e p s = _
  simp only [execRecv, State.notPlugin_of hpriv, hmine, hmail, hinbox, ne_eq, not_true_eq_false, Bool.not_true,
    Bool.false_and, Bool.false_eq_true, if_false]
  rfl

theorem exec_recv_of_no_mail (hhere : s.portAbsent s.pre.die s.pre.core p.toNat s.pre.lid false = false)
    (htorn : (s.portOf s.pre.die s.pre.core p.toNat).torn = false)
    (hempty : (s.portOf s.pre.die s.pre.core p.toNat).inbox = []) (hfree : s.pre.stamped = false) :
    exec (.recv e p) s = .next s.block := by
  have hmail : s.hasMail s.pre.die s.pre.core p.toNat = false := by simp [State.hasMail_eq s _ _ p.isLt, hempty]
  show execRecv e p s = _
  simp [execRecv, State.notPlugin_of hpriv, hmine, hhere, htorn, hmail, hempty, State.holdSyl_of_free hfree]

theorem exec_pbindRel_of_mine : exec (.pbindRel p) s = .next
    (s.onSendPort s.pre.die s.pre.core p.toNat (fun q => { q with bound := none })) := by
  show execPbindRel p s = _
  rw [execPbindRel, State.notPlugin_of hpriv, if_pos hmine]

end

theorem exec_pbind_of_unbound (hunbound : (s.portOf s.pre.die s.pre.core p.toNat).bound = none) :
    exec (.pbind p) s = .next
      (s.onSendPort s.pre.die s.pre.core p.toNat (fun q => { q with bound := some s.pre.tid, torn := false })) := by
  show execPbind p s = _
  rw [execPbind, State.notPlugin_of hpriv, hunbound]

section
variable {u : Nat} (hother : (s.portOf s.pre.die s.pre.core p.toNat).bound = some u) (hu : u ≠ s.pre.tid)
include hother hu

theorem traps_pbind_of_other : Traps (.pbind p) s .trap 4 tcOwner (BitVec.ofNat 32 p.toNat) 0 := by
  show execPbind p s = _
  rw [execPbind, State.notPlugin_of hpriv, hother]
  exact congrArg _ (if_neg hu)

theorem traps_pbindRel_of_other : Traps (.pbindRel p) s .trap 4 tcOwner (BitVec.ofNat 32 p.toNat) 0 := by
  show execPbindRel p s = _
  rw [execPbindRel, State.notPlugin_of hpriv, hother, if_neg fun h => hu (Option.some.inj h)]

end

end

/-! ### Threads read after an update -/

theorem State.getThread?_tid {s : State} {i : Nat} {u : Thread} (h : s.getThread? i = some u) : u.tid = i ∧ i ≠ 0 := by
  unfold State.getThread? at h
  split at h
  · cases h
  · next h0 =>
    split at h
    · next hme =>
      cases h
      exact ⟨hme, h0⟩
    · exact ⟨by simpa using List.find?_some h, h0⟩

theorem State.getThread?_setThread (s : State) {t : Thread} (ht : t.tid ≠ 0) (i : Nat) :
    (s.setThread t).getThread? i = if i = t.tid then some t else s.getThread? i := by
  unfold State.setThread State.getThread?
  by_cases hi : i = t.tid
  · subst hi
    by_cases hme : s.me.tid = t.tid
    · simp [hme, ht]
    · simp [hme, ht, upsert_find?_same]
  · by_cases hme : s.me.tid = t.tid
    · simp [hme, hi, Ne.symm hi]
    · have hfind : (upsert (fun x : Thread => x.tid == t.tid) t s.threads).find? (fun x => x.tid == i) =
          s.threads.find? (fun x => x.tid == i) :=
        upsert_find?_other (by simpa using Ne.symm hi) (fun y hy => by simp_all [Ne.symm hi]) s.threads
      simp [hme, hi, hfind]

/-- The thread in the issue stage is the one written, or it is as before. -/
theorem State.setThread_me_cases (s : State) (t : Thread) :
    (s.setThread t).me = t ∧ s.me.tid = t.tid ∨ (s.setThread t).me = s.me := by
  unfold State.setThread
  split
  · next h => exact .inl ⟨rfl, h⟩
  · exact .inr rfl

theorem SameStorage.trans {s t u : State} (hst : SameStorage s t) (htu : SameStorage t u) : SameStorage s u := by
  obtain ⟨hb, hh, he, hc, hq, hm⟩ := hst
  obtain ⟨hb', hh', he', hc', hq', hm'⟩ := htu
  exact ⟨hb.trans hb', hh'.trans hh, he'.trans he, hc'.trans hc, hq'.trans hq, hm'.trans hm⟩

theorem sameStorage_of_dlk {s t : State} {k : Option (Nat × Nat × BitVec 512)} (hme : t.me = { s.me with dlk := k })
    (hmem : t.mem = s.mem) : SameStorage s t := by
  simp [SameStorage, SameButOne, hme, hmem]

/-! ### The marks of a probe (R273, R274) -/

/-- A member of a confirmed cycle takes DEADLOCK at once where it is spilled, and is marked for it otherwise. -/
def State.markMember (n : Nat) (l : BitVec 512) (a : State) (m : (Nat × Bool) × Nat) : State :=
  match a.getThread? m.1.1 with
  | none => a
  | some u =>
    if u.spilled.isSome && !u.spilling then a.deadlock u n m.2 l
    else a.setThread { u with dlk := some (n, m.2, l) }

/-- The cycle list of R274. -/
def State.cycleList (s : State) (ms : List (Nat × Bool)) : BitVec 512 :=
  packElems 512 16 (fun i => (((s.fromLeast ms)[i]?).map s.memberEntry).getD 0) 32

theorem exec_probe_of_cycle {s : State} {tid : Nat} {m : Thread} {ms : List (Nat × Bool)} (hm : s.getThread? tid = some m)
    (hst : m.st = .blocked) (hdlk : m.dlk = none) (hcount : m.recvFrom + 65536 ≤ s.cyc m.die)
    (hwalk : s.walkEdges tid 32 tid [] = some ms) (hfresh : ∀ x, x ∈ ms → ∃ u, s.getThread? x.1 = some u ∧ u.dlk = none) :
    exec (.probe tid) s = .next
      ((s.fromLeast ms).zipIdx.foldl (State.markMember (s.fromLeast ms).length (s.cycleList ms)) s) := by
  have hnone : ms.any (fun x => ((s.getThread? x.1).bind (·.dlk)).isSome) = false := by
    rw [List.any_eq_false]
    intro x hx
    obtain ⟨u, hu, hud⟩ := hfresh x hx
    simp [hu, hud]
  have hexec : exec (.probe tid) s = execProbe tid s := rfl
  rw [hexec, execProbe]
  simp only [hm, hst, hdlk, hwalk, hnone, Nat.not_lt.mpr hcount]
  rfl

theorem State.fromLeast_perm (s : State) (ms : List (Nat × Bool)) : (s.fromLeast ms).Perm ms := by
  unfold State.fromLeast
  exact List.perm_append_comm.trans (by rw [List.take_append_drop])

/-- A thread that is not spilled, so that it takes DEADLOCK at its next issue cycle. -/
def State.Resident (a : State) (i : Nat) : Prop := ∃ u, a.getThread? i = some u ∧ u.spilled = none

/-- A thread that is to take DEADLOCK as one of n members with this cycle list. -/
def State.Marked (n : Nat) (l : BitVec 512) (a : State) (i : Nat) : Prop :=
  ∃ u pos, a.getThread? i = some u ∧ pos < n ∧ u.dlk = some (n, pos, l)

section
variable {n : Nat} {l : BitVec 512} {a : State} {m : (Nat × Bool) × Nat} (hres : a.Resident m.1.1)
include hres

theorem State.markMember_of_resident : ∃ u, a.getThread? m.1.1 = some u ∧ u.spilled = none ∧
    a.markMember n l m = a.setThread { u with dlk := some (n, m.2, l) } := by
  obtain ⟨u, hu, hspilled⟩ := hres
  exact ⟨u, hu, hspilled, by simp [State.markMember, hu, hspilled]⟩

/-- A mark is all that a resident member takes. -/
theorem State.markMember_sameStorage : SameStorage a (a.markMember n l m) := by
  obtain ⟨u, hu, -, hmark⟩ := State.markMember_of_resident (n := n) (l := l) hres
  obtain ⟨htid, -⟩ := State.getThread?_tid hu
  rw [hmark]
  rcases a.setThread_me_cases { u with dlk := some (n, m.2, l) } with ⟨hme, hself⟩ | hme
  · have hid : a.me.tid = m.1.1 := hself.trans htid
    obtain ⟨-, rfl⟩ : m.1.1 ≠ 0 ∧ a.me = u := by simpa [State.getThread?, hid] using hu
    exact sameStorage_of_dlk hme (State.setThread_mem _ _)
  · exact sameStorage_of_dlk (k := a.me.dlk) hme (State.setThread_mem _ _)

theorem State.getThread?_markMember : ∃ u, u.spilled = none ∧ u.dlk = some (n, m.2, l) ∧
    ∀ i, (a.markMember n l m).getThread? i = if i = m.1.1 then some u else a.getThread? i := by
  obtain ⟨u, hu, hspilled, hmark⟩ := State.markMember_of_resident (n := n) (l := l) hres
  obtain ⟨htid, hne⟩ := State.getThread?_tid hu
  refine ⟨{ u with dlk := some (n, m.2, l) }, hspilled, rfl, fun i => ?_⟩
  rw [hmark, State.getThread?_setThread a (t := { u with dlk := some (n, m.2, l) }) (by simpa [htid] using hne)]
  simp [htid]

theorem State.Resident.markMember {i : Nat} (hi : a.Resident i) : (a.markMember n l m).Resident i := by
  obtain ⟨u, hspilled, -, hget⟩ := State.getThread?_markMember (n := n) (l := l) hres
  rw [State.Resident, hget]
  split
  · exact ⟨u, rfl, hspilled⟩
  · exact hi

theorem State.Marked.of_markMember (hm : m.2 < n) {i : Nat} (hi : i = m.1.1 ∨ a.Marked n l i) :
    (a.markMember n l m).Marked n l i := by
  obtain ⟨u, -, hdlk, hget⟩ := State.getThread?_markMember (n := n) (l := l) hres
  rw [State.Marked, hget]
  split
  · exact ⟨u, m.2, rfl, hm, hdlk⟩
  · next h => exact hi.resolve_left h

end

/-- Marks on resident members reach every one of them, and neither a register nor a byte of memory. -/
theorem State.foldl_markMember {n : Nat} {l : BitVec 512} (ms : List ((Nat × Bool) × Nat)) {a : State}
    (hpos : ∀ m, m ∈ ms → m.2 < n) (hres : ∀ m, m ∈ ms → a.Resident m.1.1) :
    SameStorage a (ms.foldl (State.markMember n l) a) ∧
      ∀ i, a.Marked n l i ∨ i ∈ ms.map (·.1.1) → (ms.foldl (State.markMember n l) a).Marked n l i := by
  induction ms generalizing a with
  | nil => exact ⟨sameStorage_of_dlk (k := a.me.dlk) rfl rfl, fun i hi => hi.resolve_right (by simp)⟩
  | cons m ms ih =>
    obtain ⟨hm, hms⟩ := List.forall_mem_cons.mp hpos
    obtain ⟨hrm, hrms⟩ := List.forall_mem_cons.mp hres
    obtain ⟨hsame, hmarked⟩ := ih (a := a.markMember n l m) hms fun x hx => State.Resident.markMember hrm (hrms x hx)
    refine ⟨(State.markMember_sameStorage hrm).trans hsame, fun i hi => hmarked i ?_⟩
    rcases hi with hi | hi
    · exact .inl (.of_markMember hrm hm (.inr hi))
    · exact (List.mem_cons.mp hi).imp_left fun hi => .of_markMember hrm hm (.inl hi)

/-! ### What each instruction comes to -/

/-- An update of a port changes neither the thread nor memory. -/
theorem completes_of_onSendPort {i : Instr} {s : State} {d c p : Nat} (hp : p < 8) {f : Port → Port}
    (hexec : exec i s = .next (s.onSendPort d c p f)) :
    Completes i s (fun t => t.me = s.me ∧ t.mem = s.mem ∧ t.portOf d c p = f (s.portOf d c p)) :=
  ⟨_, hexec, rfl, rfl, s.portOf_onSendPort d c hp f⟩

theorem completes_send {s : State} {e p : BitVec 3} {r : PortRef} (hpriv : s.pre.priv ≠ .plugin)
    (hmine : (s.portOf s.pre.die s.pre.core p.toNat).bound = some s.pre.tid)
    (hhere : s.portAbsent s.pre.die s.pre.core p.toNat s.pre.lid true = false)
    (htorn : (s.portOf s.pre.die s.pre.core p.toNat).torn = false)
    (hcredit : 1 ≤ (s.portOf s.pre.die s.pre.core p.toNat).credits)
    (hfar : s.farEnd s.pre.die s.pre.core p.toNat = some r) (hrun : (s.getDie r.die).stopped = false) :
    Completes (.send e p) s (fun t => t.me = s.me ∧ t.mem = s.mem ∧
      (t.portOf s.pre.die s.pre.core p.toNat).credits = (s.portOf s.pre.die s.pre.core p.toNat).credits - 1 ∧
      ∃ x, x ∈ t.agenda ∧ x.ev = .envelopeArrival r.die r.core r.port (s.re e.toNat) ∧
        (r.die = s.pre.die → x.due = .cycle r.die (s.cyc r.die + 3 + 2 * r.hops) rankEngine)) := by
  obtain ⟨hme, hmem, hcores⟩ := (s.spent p).setsOut_launchEnvelope s.pre.die r (s.re e.toNat)
  refine ⟨_, exec_send_of_credit hpriv hmine hhere htorn hcredit hfar, hme, hmem, ?_,
    State.launchEnvelope_agenda (s := s.spent p) hrun s.pre.die (s.re e.toNat)⟩
  rw [State.portOf_of_cores hcores, State.spent, State.portOf_onSendPort s _ _ p.isLt]

theorem completes_recv {s : State} {e p : BitVec 3} {v : W64 × Nat} {rest : List (W64 × Nat)}
    (hpriv : s.pre.priv ≠ .plugin) (hmine : (s.portOf s.pre.die s.pre.core p.toNat).bound = some s.pre.tid)
    (hinbox : (s.portOf s.pre.die s.pre.core p.toNat).inbox = v :: rest) (hearlier : v.2 < s.cyc s.pre.die) (r : PortRef) :
    Completes (.recv e p) s (fun t =>
      (∀ k, k < 8 → rd t.me.e k = if k = e.toNat then v.1 else rd s.me.e k) ∧ t.me = { s.me with e := t.me.e } ∧
      t.mem = s.mem ∧ (t.portOf s.pre.die s.pre.core p.toNat).inbox = rest ∧
      (s.feeder s.pre.die s.pre.core p.toNat = some r → (s.getDie r.die).stopped = false →
        Awaits t (.creditArrival r.die r.core r.port))) := by
  have hport := s.portOf_took e p v.1 rest
  obtain ⟨hme, hmem, hcores⟩ := (s.took e p v.1 rest).setsOut_returnCredit s.pre.die s.pre.core p.toNat
  refine ⟨_, exec_recv_of_mail hpriv hmine hinbox hearlier, fun k _ => ?_, ?_, hmem, ?_, fun hfeeder hrun => ?_⟩
  · rw [hme]
    exact rd_wr s.me.e e.isLt v.1 k
  · rw [hme]
    rfl
  · rw [State.portOf_of_cores hcores, hport]
  · exact State.awaits_returnCredit ((State.feeder_of_inn (by rw [hport])).trans hfeeder) hrun

theorem completes_envelopeArrival (s : State) (d c : Nat) {p : Nat} (hp : p < 8) (v : W64) :
    Completes (.envelopeArrival d c p v) s (fun t => t.me = s.me ∧ t.mem = s.mem ∧
      t.portOf d c p = { s.portOf d c p with inbox := (s.portOf d c p).inbox ++ [(v, s.cyc d)] }) :=
  completes_of_onSendPort hp (f := fun q => { q with inbox := q.inbox ++ [(v, s.cyc d)] }) rfl

theorem completes_creditArrival (s : State) (d c : Nat) {p : Nat} (hp : p < 8) :
    Completes (.creditArrival d c p) s (fun t => t.me = s.me ∧ t.mem = s.mem ∧
      t.portOf d c p = { s.portOf d c p with
        credits := min ((s.portOf d c p).credits + 1) (if p < 4 then 4 else (s.portOf d c p).allow) }) :=
  completes_of_onSendPort hp (f := fun q => { q with credits := min (q.credits + 1) (if p < 4 then 4 else q.allow) }) rfl

theorem completes_probeLaunch {s : State} {tid : Nat} {m : Thread} (hm : s.getThread? tid = some m)
    (hst : m.st = .blocked) (hrun : (s.getDie m.die).stopped = false) :
    Completes (.probeLaunch tid) s (fun t => SameStorage s t ∧ Awaits t (.probe tid)) := by
  have hexec : exec (.probeLaunch tid) s = .next
      (s.freeDelay.2.schedIn m.die (s.freeDelay.1 + 1) rankLate (.probe tid)) := by
    show execProbeLaunch tid s = _
    simp [execProbeLaunch, hm, hst]
  exact ⟨_, hexec, sameStorage_of_dlk (k := s.me.dlk) (State.schedIn_me _ _ _ _ _) (State.schedIn_mem _ _ _ _ _),
    _, State.mem_agenda_sched (s := s.freeDelay.2) hrun _ _ _, rfl⟩

theorem completes_probe {s : State} {tid : Nat} {m : Thread} {ms : List (Nat × Bool)} (hm : s.getThread? tid = some m)
    (hst : m.st = .blocked) (hcount : m.recvFrom + 65536 ≤ s.cyc m.die) (hwalk : s.walkEdges tid 32 tid [] = some ms)
    (hdlk : m.dlk = none) (hfresh : ∀ x, x ∈ ms → ∃ u, s.getThread? x.1 = some u ∧ u.spilled = none ∧ u.dlk = none) :
    Completes (.probe tid) s (fun t => SameStorage s t ∧ ∃ l, ∀ x, x ∈ ms → t.Marked ms.length l x.1) := by
  have hperm := s.fromLeast_perm ms
  have hexec := exec_probe_of_cycle hm hst hdlk hcount hwalk fun x hx =>
    (hfresh x hx).imp fun u ⟨hu, _, hud⟩ => ⟨hu, hud⟩
  rw [hperm.length_eq] at hexec
  have hpos (x) (hx : x ∈ (s.fromLeast ms).zipIdx) : x.2 < ms.length :=
    hperm.length_eq ▸ List.snd_lt_of_mem_zipIdx hx
  have hres (x) (hx : x ∈ (s.fromLeast ms).zipIdx) : s.Resident x.1.1 :=
    (hfresh x.1 (hperm.mem_iff.mp (List.fst_mem_of_mem_zipIdx hx))).imp fun u ⟨hu, hspilled, _⟩ => ⟨hu, hspilled⟩
  obtain ⟨hsame, hmarked⟩ := State.foldl_markMember (l := s.cycleList ms) _ hpos hres
  refine ⟨_, hexec, hsame, s.cycleList ms, fun x hx => hmarked x.1 (.inr ?_)⟩
  have hmem : x ∈ (s.fromLeast ms).zipIdx.map Prod.fst := by
    rw [List.zipIdx_map_fst]
    exact hperm.mem_iff.mpr hx
  obtain ⟨y, hy, rfl⟩ := List.mem_map.mp hmem
  exact List.mem_map_of_mem hy

/-- Settles O43: the syllables and the arrivals update one port, a signal that sets out adds one entry to the agenda, and a
probe that finds a cycle marks its members one after another, in one moment (log 53). -/
theorem envelopesAndCredits : Obligations.envelopesAndCredits := by
  refine ⟨?syllables, ?arrivals, ?probes⟩
  case syllables =>
    intro s e p r hpriv n q mine
    refine ⟨?send, ?sendHeld, ?recv, ?recvHeld, ?bind, ?release, ?owner⟩
    case send => exact completes_send hpriv
    case sendHeld => exact exec_send_of_no_credit hpriv
    case recv => exact fun v rest hmine hinbox hearlier => completes_recv hpriv hmine hinbox hearlier r
    case recvHeld => exact fun hmine hempty hhere htorn => exec_recv_of_no_mail hpriv hmine hhere htorn hempty
    case bind => exact fun hunbound => completes_of_onSendPort p.isLt (exec_pbind_of_unbound hpriv hunbound)
    case release => exact fun hmine => completes_of_onSendPort p.isLt (exec_pbindRel_of_mine hpriv hmine)
    case owner =>
      exact fun u hother hu => ⟨traps_pbind_of_other hpriv hother hu, traps_pbindRel_of_other hpriv hother hu⟩
  case arrivals => exact fun s d c p v hp => ⟨completes_envelopeArrival s d c hp v, completes_creditArrival s d c hp⟩
  case probes => exact fun s tid m ms hm hst => ⟨completes_probeLaunch hm hst, completes_probe hm hst⟩

end Sys2Proof.Machine
end
